-- ==== Sys2Proof/Word.lean ====
section
/-! DEFINITION. The word types of the model and nothing else: every arithmetic helper stands under `Sys2Proof/Machine/`. -/

namespace Sys2Proof

/-- A 32-bit register, payload word or binary32 pattern (R13, R82). -/
abbrev Word := BitVec 32

/-- One byte. -/
abbrev Byte := BitVec 8

/-- A 16-bit word: a tex header, a slub entry, an event code, a W16 value. -/
abbrev Half := BitVec 16

/-- A 64-bit word: a binary64 pattern, a SHA lane. -/
abbrev DWord := BitVec 64

end Sys2Proof
end

