-- ==== Sys2Proof/Syntax.lean ====
section
/-! DEFINITION. The commands of the block: the operand types first, then `Instr`, one constructor per row of
spec/opcode_table.json in the table's order. A row that is a frame on a roving port carries the frame; a row that is the
expiry of a time limit carries which wait expired (log entry 2); data that comes from outside the device (host memory) and what a
descriptor template names (places, extents, order of work) stand in the operands (log entry 3). -/

namespace Sys2Proof

/-- A core, numbered die × 144 + cluster × 12 + core (R15, R407). -/
abbrev CoreIx := Fin 576

/-- A cluster, numbered die × 12 + cluster. -/
abbrev ClusterIx := Fin 48

/-- A roving port (R15). -/
abbrev PortIx := Fin 9

/-- A skein stack (R15). -/
abbrev StackIx := Fin 8

/-- A channel of a stack (R278). -/
abbrev ChanIx := Fin 32

/-- A requester class: 0 engine DMA, 1 bobbin, 2 reel, 3 skein update, 4 CXL.mem (R293). -/
abbrev ClassIx := Fin 5

/-- A weft queue: 0 job, 1 copy (R356). -/
abbrev QueueIx := Fin 2

/-- The phase code of SPD_FIRST_INVALID_0 (R144's map). -/
inductive Phase where
  | fwd | bAct | bWgt | bRecomp | lowRank | selfTest
  deriving DecidableEq, Repr

/-- An operand role of a layer: which of ACT, WEIGHT and GRAD gives its format, staple and twist code (R57, R486). -/
inductive Role where
  | act | weight | grad
  deriving DecidableEq, Repr

/-- One staple as stored: tex header, one element code per position, three side-list slots (R86, R93, R100). -/
structure Staple where
  header : Half
  elems : List Byte
  slots : List Half
  deriving DecidableEq, Repr

/-- One operand row (or column) along the reduction axis: staples of a narrow tensor, or binary32 or BF16 patterns (BF16 in
the upper half, R82) of a wide one. -/
inductive ORow where
  | narrow (staples : List Staple)
  | wide (vals : List Word)
  deriving DecidableEq, Repr

/-- One accumulator tile: core, engine, T0 or T1 (R24, R141). -/
structure AccRef where
  core : CoreIx
  eng : Bool
  tile : Bool
  deriving DecidableEq, Repr

/-- A place in one of the device's memories: a core's spool, a cluster's creel, or the skein (R26, R28, R281); in the receive buffer of
a key or value block: part, layer, shard, block (R213, R291, R342); or in a low-rank layer's Q in force, `second` its P̂ (R243). -/
inductive Loc where
  | spool (core : CoreIx) (off : Nat)
  | creel (cluster : ClusterIx) (off : Nat)
  | skein (addr : Nat)
  | kv (part layer shard block off : Nat)
  | factor (layer : Nat) (second : Bool) (off : Nat)
  deriving DecidableEq, Repr

/-- A hand-over slot in creel banks 60 to 62 (R120, R291, log entry 150). -/
structure SlotRef where
  cluster : ClusterIx
  slot : Fin 12
  deriving DecidableEq, Repr

/-- How an output tile starts (R120): at +0, from an accumulator tile, or from a creel hand-over slot. -/
inductive TileStart where
  | zero
  | handOver (src : AccRef)
  | slot (src : SlotRef)
  deriving DecidableEq, Repr

/-- One narrow copy of a tensor as memory holds it (R85, R100): where its three arrays start, and its K positions per row. -/
structure NarrowAt where
  elem : Loc
  hdr : Loc
  slub : Loc
  kLen : Nat
  deriving DecidableEq, Repr

/-- The operand rows that one side of a tile part reads (R100, R102): rows from `row0`, the K positions of the part's chunks from `k0`; of
a wide tensor, BF16 or binary32 with a row stride in values, in transposed order where the unpack so reads it (R125). -/
inductive TileSrc where
  | narrow (t : NarrowAt) (row0 rows k0 : Nat)
  | wide (half : Bool) (base : Loc) (stride row0 rows k0 : Nat) (transposed : Bool)
  deriving DecidableEq, Repr

/-- Binary32 values in memory, or BF16 values where `half`, each `stride` values after the one before. -/
structure Vec where
  base : Loc
  len : Nat
  stride : Nat
  half : Bool
  deriving DecidableEq, Repr

/-- The outcome of the ECC decoder for a word that is read (R302, R303): good, corrected at a symbol, uncorrectable. -/
inductive Ecc where
  | good
  | corrected (symbol : Fin 36)
  | uncorrectable
  deriving DecidableEq, Repr

/-- What the protection of stored and moving data finds while a tile or an operation runs or drains (R141, R277, R303, R305, R306): an
uncorrectable word in accumulator storage, in a spool bank, in a creel bank or in a table; a parity failure at a boundary of R304; a
key table entry that fails parity; corrected words; how a word of the skein decodes. -/
inductive UnitError where
  | accumulator
  | spool (bank : Nat)
  | creel (bank : Nat)
  | table (number : Nat)
  | parity (boundary : Fin 8) (addr : Nat)
  | nepKey (generator : Nat) (stream : Word)
  | corrected (words : Nat)
  | skein (addr : BitVec 40) (ecc : Ecc)
  deriving DecidableEq, Repr

/-- One part of one output tile as the descriptor templates present it to the readiness scheduler (R183): what it is, where its
operands stand, its chunk range, how it starts, and the hand-over slot that takes it after this part, if it leaves its engine. -/
structure TileWork where
  layer : Nat
  phase : Phase
  tileRow : Nat
  tileCol : Nat
  /-- Micro-batch whose operands this part reads. -/
  microBatch : Nat
  /-- Attention key block, or zero (R377). -/
  keyBlock : Nat
  aRole : Role
  bRole : Role
  a : TileSrc
  b : TileSrc
  kExtent : Nat
  chunkLo : Nat
  chunkHi : Nat
  start : TileStart
  park : Option SlotRef
  deriving DecidableEq, Repr

/-- A narrow destination of a drain (R85, R100, R145): the consumer's operand, which copy, where it stands, the first row and K
position of the tile in it. -/
structure NarrowDest where
  layer : Nat
  role : Role
  /-- true: the token-axis copy (staples run down the tile's columns); false: the feature-axis copy. -/
  tokenAxis : Bool
  tensor : NarrowAt
  row0 : Nat
  k0 : Nat
  deriving DecidableEq, Repr

/-- Where a drained tile goes (R135 step 4). -/
inductive Dest where
  | narrow (d : NarrowDest)
  /-- BF16 (`half` true) or binary32 rows at a place with a row stride in elements (R102). -/
  | wide (half : Bool) (base : Loc) (stride : Nat)
  /-- The output of epilogue step 2 as BF16 rows, for a bobbin record (R188). -/
  | preAct (base : Loc) (stride : Nat)
  /-- A gradient tile into its hank: linear tile index and contribution group (R195, R222). -/
  | wire (tag : Nat) (tile : Nat) (group : Nat)
  deriving DecidableEq, Repr

/-- What a re-execution returned where it differs from the original (R379, R380): the accumulator words, the status bits, and the values
that its drain produced, in the order written. -/
structure ReExec where
  acc : List Word
  status : Nat
  made : List Nat
  deriving DecidableEq, Repr

/-- A key or value block, or a partial, that goes to the next rank of the context-shard group (R213, R342): `bytes` from a place, as
block `block` of shard `shard` at ring step `ringStep`. -/
structure RingSend where
  part : Nat
  layer : Nat
  shard : Nat
  block : Nat
  ringStep : Nat
  base : Loc
  bytes : Nat
  deriving DecidableEq, Repr

/-- What a layer's ring does after a work: it goes to its next ring step, or its pass is over (R213, log entry 151). -/
inductive RingMove where
  | next | over
  deriving DecidableEq, Repr

/-- Where the parts of a bobbin record stand when it is pushed (R188): the narrow input in its token-axis and feature-axis copies, the
binary32 or BF16 input of a layer that takes a wide one, the attention stash (Q, K, V, and the values m and ℓ) and the other copies of
Q, K and V (`qt`, `kt`, `vf`); and the pre-activation values. -/
inductive PushSpec where
  | narrow (token feature : NarrowAt) (pre : Loc)
  | wide (input pre : Loc)
  | attention (q k v qt kt vf : NarrowAt) (ml pre : Loc)
  deriving DecidableEq, Repr

/-- One drain (R135): the tile, where the column scale and bias of its first column stand, the destinations, the record to push, whether
it is the last drain of its phase on the device (of a recomputation: of its layer and micro-batch), and the checker's differing
re-execution of a sampled unit (none: it agrees). -/
structure DrainSpec where
  acc : AccRef
  sigma : Option Loc
  beta : Option Loc
  dests : List Dest
  push : Option PushSpec
  ring : Option RingSend
  ringMove : Option RingMove
  last : Bool
  reExec : Option ReExec
  err : Option UnitError
  deriving DecidableEq, Repr

/-- One whorl operation (R138 to R140, R164, R165, R198, R211, R212, R269) on values in spool or creel. -/
inductive WhorlOp where
  | add (a b : Vec)
  | sub (a b : Vec)
  | mul (a b : Vec)
  | fma (a b c : Vec)
  | div (a b : Vec)
  | sqrt (a : Vec)
  | rsqrt (a : Vec)
  | max (a b : Vec)
  | min (a b : Vec)
  | exp2 (a : Vec)
  | sigmoid (a : Vec)
  | activation (code : Nat) (a : Vec)
  /-- A reduction, from +0 or from a running value handed over at a block boundary (R139). -/
  | reduce (a : Vec) (running : Option Loc)
  | softmax (a : Vec)
  /-- The values as they are, to be written in one more copy; of attention probabilities with their head's stream (R85, R164, R257). -/
  | copy (probs : Bool) (a : Vec)
  /-- Unpack and unrotate `n` positions of a narrow operand row of the layer (R99, R107). -/
  | unpack (role : Role) (src : NarrowAt) (row k0 n : Nat)
  /-- Dropout with the layer's stream: of its output, or of attention probabilities (R269). -/
  | dropout (probs : Bool) (a : Vec)
  /-- The losses of one micro-batch, one for each token in logical order (R198). -/
  | loss (a : Vec)
  /-- The gradient of the loss, multiplied by 2^E (R165). -/
  | lossGrad (a : Vec)
  /-- Residual addition into the binary32 stream at a skein address (R164). -/
  | residualAdd (addr : Nat) (a : Vec)
  /-- Steps 1 to 4 of R211 and the writing of p for one key block, query row and head, on the raw scores of the block. -/
  | attnBlock (scores : Vec)
  /-- The block's attention-value product added into o (R211 step 5). -/
  | attnValue (pv : Vec)
  /-- After the last block: o divided by ℓ, or zero for an empty state; then m and ℓ for the stash (R211, R212). -/
  | attnFinish (width : Nat)
  /-- The probabilities recomputed in B from the stashed m and ℓ (R212). -/
  | attnProbs (scores : Vec) (ml : Loc)
  deriving DecidableEq, Repr

/-- One whorl operation with its place: the logical row (a token of the micro-batch) and first feature index (R129), and where in the
core's spool the results go. A result may also go through the twist unit into narrow tensors (R145, R164, R211): along features of
one token, or along tokens of one feature. -/
structure WhorlWork where
  core : CoreIx
  layer : Nat
  phase : Phase
  /-- Micro-batch and attention key block of the unit's identity (R377). -/
  microBatch : Nat
  keyBlock : Nat
  row : Nat
  feat : Nat
  /-- Attention head; 0 otherwise (R257). -/
  head : Nat
  op : WhorlOp
  dst : Nat
  dests : List NarrowDest
  ring : Option RingSend
  ringMove : Option RingMove
  push : Option PushSpec
  /-- The last work of its phase on the device, as for a drain. -/
  last : Bool
  /-- What a re-execution of a sampled unit returned for this row where it differs: its status bits and bytes (R380). -/
  reExec : Option ReExec
  err : Option UnitError
  deriving DecidableEq, Repr

/-- What the readiness scheduler orders (R184): tiles, drains and whorl work. -/
inductive Work where
  | tile (t : TileWork)
  | drain (d : DrainSpec)
  | whorl (w : WhorlWork)
  deriving DecidableEq, Repr

/-- A roving frame as it arrives: the header of R325 field by field, the payload words and the CRC word. -/
structure Frame where
  ftype : BitVec 8
  marker : BitVec 4
  tag : BitVec 20
  dest : BitVec 16
  src : BitVec 16
  seq : BitVec 16
  vc : BitVec 2
  exec : BitVec 2
  rsv : Bool
  len : BitVec 11
  batch : BitVec 48
  hops : BitVec 16
  payload : List Word
  crc : Word
  deriving DecidableEq, Repr

/-- A frame received at a port, with the number of 32-byte blocks it filled (R314, R326), and the boundary of R304 at which its content
fails parity on its way through the device, if any. -/
structure Rx where
  port : PortIx
  blocks : Nat
  frame : Frame
  parity : Option (Fin 8)
  deriving DecidableEq, Repr

/-- A request to a skein base (R284), and what else the cluster DMA moves (R28). -/
inductive SkeinOp where
  | read (len : Nat)
  | write (data : List Byte)
  /-- Cluster DMA (R28): a read into spool or creel, a write from there, and a move between spools and creels, over the mesh where they lie
  in two clusters. -/
  | fetch (len : Nat) (dst : Loc)
  | store (len : Nat) (src : Loc)
  | move (len : Nat) (src dst : Loc)
  deriving DecidableEq, Repr

/-- A window access (R143): a read, or a write of one binary32 pattern. -/
inductive Access where
  | read
  | write (v : Word)
  deriving DecidableEq, Repr

/-- The SNAP registers (R174, R215, R255, R309, R344, R373, R407, R433, R462 and the core's SPD_ARITH_SNAP). -/
inductive SnapReg where
  | num | step | bobbin | reel | rov | weft | ply | trd | sec
  | skn (stack : StackIx)
  | spd (core : CoreIx)
  deriving DecidableEq, Repr

/-- The kinds of host attach reset (R348). -/
inductive AttachKind where
  | linkDown | cxlReset | conventional | flr
  deriving DecidableEq, Repr

/-- The host-memory writes that can time out (R369). -/
inductive HostRing where
  | completion (q : QueueIx)
  | eventRing
  | report
  deriving DecidableEq, Repr

/-- The units carding tests (R384, R407). -/
inductive CardUnit where
  | core (c : CoreIx)
  | creel (c : ClusterIx)
  | update (s : StackIx)
  | reelEngine (e : Fin 12)
  deriving DecidableEq, Repr

/-- The part of the carding test that reproduced (R384, R386); `limit` is the time limit. -/
inductive CardPart where
  | none | retry | pattern | march | limit
  deriving DecidableEq, Repr

/-- What a patrol-scrub read finds (R308). -/
inductive ScrubKind where
  | clean
  | corrected (symbol : Fin 36)
  /-- Corrected, but a requester wrote the word first: the write-back is discarded. -/
  | overtaken (symbol : Fin 36)
  | uncorrectable
  deriving DecidableEq, Repr

/-- The causes of event 0x4002 (R345). -/
inductive RetrainCause where
  | lock | alignGap | retryLimit | vc0Credit
  deriving DecidableEq, Repr

/-- Sources of the emergency cap that the distaff raises or the pin (R421). -/
inductive EmSource where
  | pin | command | thermal | inputLow
  deriving DecidableEq, Repr

/-- The junction sensors that the device carries (R426): 32 on each spindle die, 8 on the flyer, 2 on each skein base die. -/
inductive Sensor where
  | spindle (die : Fin 4) (index : Fin 32)
  | flyer (index : Fin 8)
  | skein (stack : Fin 8) (index : Fin 2)
  deriving DecidableEq, Repr

/-- Who requests a ladder state (R412). -/
inductive Requester where
  | host | distaff
  deriving DecidableEq, Repr

/-- A boot stage after the ROM (R441). -/
inductive BootStage where
  | distaff | flyer | skeinBase
  deriving DecidableEq, Repr

/-- How a delivery reaches the distaff (R444, R460): PLDM, or Redfish with the client certificate of its TLS session. -/
inductive Carrier where
  | pldm
  | redfish (client : List Byte)
  deriving DecidableEq, Repr

/-- The envelope of an owner command (R447): serial, counter, opcode and the owner's signature pair over these and the operands. -/
structure OwnerEnv where
  serial : BitVec 64
  counter : BitVec 64
  opcode : Byte
  edSig : List Byte
  mlSig : List Byte
  deriving DecidableEq, Repr

/-- The signature pair of a delivery from Dvortan, and the signer it names (R439); what is signed are the delivery's fields. -/
structure Signed where
  edSig : List Byte
  mlSig : List Byte
  signer : BitVec 32
  deriving DecidableEq, Repr

/-- The commands, one constructor per row of spec/opcode_table.json. -/
inductive Instr where
  -- BAR0
  | registerWrite (off : BitVec 28) (val : Word)
  | badAccess (isWrite : Bool) (off : BitVec 28) (size : Nat)
  | snap (reg : SnapReg) (val : Word)
  -- warp loader
  | load (cont : Bool)
  | unload (cont : Bool)
  | verify
  | validate
  | feasibility
  | distribute
  | loaderTimeout
  -- core registers
  | accClear (acc : AccRef)
  | windowPageWrite (core : CoreIx) (val : Word)
  | spoolWindowAccess (core : CoreIx) (word : Fin 8192) (access : Access)
  | firstInvalidClear (core : CoreIx)
  -- the step on one device
  | firstFIssue
  | frameReserve (stage microBatch : Nat)
  | tileIssue (cluster : ClusterIx) (ready : List Work) (err : Option UnitError)
  | agedTilePriority (cluster : ClusterIx) (layer tileRow tileCol microBatch : Nat) (phase : Phase)
  | slubPass (acc : AccRef) (err : Option UnitError)
  | tileDrain (d : DrainSpec)
  | whorlOp (w : WhorlWork)
  | bobbinPop (stage microBatch layer : Nat) (dst : Loc) (damage : List Word) (err : Option UnitError)
  | schedulerWaitTimeout (cluster : ClusterIx) (unissued : List Work)
  | updateShard (tag : BitVec 20) (err : Option UnitError)
  | updateSegmentCheck (tag : BitVec 20) (segment : Nat) (faulty : Option (List Word))
  | sendVerdictSet
  -- job control
  | admitRequest (rx : Rx)
  | admitReply (rx : Rx)
  | admitRetry
  | nonfiniteNotice (rx : Rx)
  | verdict (rx : Rx)
  | layerCounts (rx : Rx)
  | shardRatios (rx : Rx)
  | skipNotice (rx : Rx)
  | commit (rx : Rx)
  | skip (rx : Rx)
  | replay (rx : Rx)
  | halt (rx : Rx)
  | start (rx : Rx)
  | decisionQuery (rx : Rx)
  | decisionQueryTimer
  | decisionTimeout
  | verdictTimeout
  -- reel
  | hankSegment (rx : Rx)
  | rescale (rx : Rx)
  | scaleProposal (rx : Rx)
  | scaleAgreed (rx : Rx)
  | factorResult (rx : Rx)
  | paramSegment (rx : Rx)
  | paramEnd (rx : Rx)
  | paramResend (rx : Rx)
  | plyLeaf (rx : Rx)
  | plyLeafQuery (rx : Rx)
  | plyLeafMissing (tag : BitVec 20) (step : BitVec 48)
  | scaleAgreementTimeout (tag : BitVec 20)
  | hankTimeout (tag : BitVec 20) (rank : BitVec 16)
  | paramEndTimeout (tag : BitVec 20)
  | kvBlock (rx : Rx)
  | kvBlockTimeout (layer shard block : Nat)
  -- nep
  | initialisation (err : Option UnitError)
  | nepTestRun (val : Word)
  | nepTestDone
  -- skein memory and shuttle
  | skeinRequest (cls : ClassIx) (byLoader : Bool) (addr : BitVec 40) (op : SkeinOp) (ecc : List Ecc) (parity : Option (Fin 8))
  | cxlMemRead (addr : BitVec 64) (len : Nat) (ecc : List Ecc) (parity : Option (Fin 8))
  | cxlMemWrite (addr : BitVec 64) (data : List Byte) (parity : Option (Fin 8))
  | refresh (stack : StackIx) (chan : ChanIx) (bank : Fin 48)
  | scrub (stack : StackIx) (off : BitVec 37) (kind : ScrubKind)
  | windowRefill (stack : StackIx) (chan : ChanIx) (beats : Nat)
  | arbitration (stack : StackIx) (chan : ChanIx) (requests : BitVec 5) (beats wait : Nat)
  | burstLimit (stack : StackIx) (chan : ChanIx) (requests : BitVec 5) (beats wait : Nat)
  | backoffEnd (stack : StackIx) (chan : ChanIx) (cls : ClassIx)
  | shuttleStarved (stack : StackIx) (chan : ChanIx) (cls : ClassIx) (wait : Nat)
  | clearWaitMax (stack : StackIx) (val : Word)
  -- roving ports
  | physicalTrainingDone (port : PortIx) (lanes : BitVec 8) (rtt : Word)
  | trainingAttemptTimeout (port : PortIx)
  | hello (rx : Rx)
  | helloTimeout (port : PortIx)
  | lossOfLock (port : PortIx) (lanes : BitVec 8)
  | portDown (port : PortIx)
  | align (port : PortIx) (count : Word)
  | idle (port : PortIx)
  | idleSend (port : PortIx)
  | alignSend (port : PortIx)
  | uncorrectableCodeword (port : PortIx) (discarded : Nat)
  | linkCtrl (rx : Rx)
  | linkCtrlSend (port : PortIx)
  | ackTimeout (port : PortIx)
  | vc0CreditTimeout (port : PortIx)
  | notReady (rx : Rx)
  | notReadyBackoff (port : PortIx)
  | portDisable (mask : BitVec 9)
  | retrain (port : PortIx) (val : Word)
  -- host attach and weft
  | hostAttachReset (kind : AttachKind)
  | hostLinkRetrain
  | hostLinkDown
  | doorbell (q : QueueIx) (val : Word)
  | descriptorConsume (q : QueueIx) (words : List Word)
  | complHeadWrite (q : QueueIx) (val : Word)
  | queueEnable (q : QueueIx) (val : Word)
  | queueDisable (q : QueueIx) (val : Word)
  | eventRingEnable (val : Word)
  | eventHeadWrite (val : Word)
  | step (seqTable tokens : List Word) (poisonAt : Option Nat)
  | infer (seqTable tokens reqTable : List Word) (poisonAt : Option Nat) (err : Option UnitError)
  | seed
  | ckptSave (err : Option UnitError)
  | ckptRestore (buffer : List Byte) (poisoned : Bool)
  | copyIn (data : List Byte) (poisoned : Bool) (err : Option UnitError)
  | copyOut (bytes : Nat) (err : Option UnitError)
  | descriptorReadTimeout (q : QueueIx)
  | dataReadTimeout (q : QueueIx) (seqTable tokens reqTable : List Word) (word : Nat)
  | hostWriteTimeout (ring : HostRing)
  | completionBlocked (q : QueueIx)
  -- integrity
  | cardingStart (val : Word)
  | cardingResult (unit : CardUnit) (part : CardPart)
  | cardingTimeout (unit : CardUnit)
  -- power input and treadle
  | inputLow
  | inputRecovered
  | inputLoss
  | overvoltage
  | stateRequest (who : Requester) (val : Word)
  | capWrite (val : Word)
  | managementCap (watts : BitVec 16)
  | controlInterval (estimate measurement target : Nat) (hot : Sensor) (hotQuarter : Nat)
  | powerDisagreement
  | estimatorRecalibrated
  | powerSensorSuspect
  | sensorFaultClear
  | capNotHeld
  | emergencyAsserted (src : EmSource)
  | lastUnitStopped
  | emergencyReleased (src : EmSource)
  | emergencyCommand (on : Bool)
  | thermalLimit (sensor : Sensor) (quarterDeg : Nat)
  | thermalRelease
  | thermalTrip (sensor : Sensor) (quarterDeg : Nat)
  | marginEvaluation (slackOk : Bool) (shortfall : Nat)
  | marginRaised (reserve : Nat)
  | refclkHoldover
  | refclkRelock
  | refclkLost
  | refclkRestored
  -- bring-up
  | moduleReset
  | watchdogExpiry
  | bringupStart (straps : List (Fin 4)) (slot : BitVec 5)
  | bootStageVerified (stage : BootStage) (stack : StackIx) (pufOk : Bool)
  | attestationReady (edOk mlOk : Bool)
  | railFault
  | bootStageTimeout
  | skeinTrained
  | skeinTrainingFailed (stack : StackIx) (channels : BitVec 32)
  | hostLinkUp (hdmBase : BitVec 64)
  | hostLinkNotTrained
  | bringupComplete (failed : List CardUnit) (edOk mlOk : Bool)
  | selfTestTimeout (untested : List CardUnit)
  | spiExternalEnable
  -- identity
  | firmwareUpdate (image : List Byte) (via : Carrier)
  | revocationList (list : Signed) (sequence : BitVec 32) (names : List (BitVec 32)) (via : Carrier)
  | ownershipVoucher (v : Signed) (serial : BitVec 64) (sequence : BitVec 32) (edPub mlPub : List Byte)
  | enrolWarpKey (env : OwnerEnv) (keyId : BitVec 32) (edPub mlPub : List Byte)
  | revokeWarpKey (env : OwnerEnv) (keyId : BitVec 32)
  | enrolSealingKey (env : OwnerEnv) (keyId : BitVec 32) (key : BitVec 256)
  | revokeSealingKey (env : OwnerEnv) (keyId : BitVec 32)
  | raiseWarpFloor (env : OwnerEnv) (floor : BitVec 32)
  | applyServiceAuth (env : OwnerEnv) (auth : Signed) (serial : BitVec 64) (generation : BitVec 32) (cores : List CoreIx)
  -- SPDM
  | getVersion
  | getCapabilities
  | negotiateAlgorithms
  | getDigests
  | getCertificate (slot offset length : Nat)
  | challenge (slot : Nat) (nonce : List Byte)
  | getMeasurements (index : Nat) (nonce : List Byte)
  | keyExchange (exchange : List Byte)
  | finish (verifyOk : Bool)
  | heartbeat
  | endSession
  | sessionTimeout
  | getReport (nonce : List Byte)
  | getPqCert (offset length : Nat)
  | getQuarantineMap
  | reportRequest (val : Word)
  -- management bus and test access port
  | setdasa (addr : BitVec 7)
  | i3cTransferTimeout
  | idcode
  | bypass (code : Nat)
  | samplePreload (pins : List Bool) (preload : Option (List Bool))
  | extest
  | clamp
  | highz
  | extestPulse
  | extestTrain
  | snoop (addr : BitVec 64)
  deriving DecidableEq, Repr

end Sys2Proof
end

