-- ==== Sys2Proof/Decode.lean ====
section
/-! DEFINITION. The word form of a command. spec/opcode_table.json gives none of its rows any bits: the device is commanded by
register accesses, frames, pins and descriptors, not by instruction words. -/

namespace Sys2Proof

/-- The command that a word spells by the table's bits: none for every word. -/
def decodeTableWord (_nbits _w : Nat) : Option Instr := none

end Sys2Proof
end

