-- ==== Sys2Proof/Config.lean ====
section
/-! DEFINITION. What one module or one silicon stepping fixes, and the values the spec leaves open, as constants without a body:
nothing in Lean can evaluate them, so a claim is true whatever they are. -/

namespace Sys2Proof.Config

/-- The free choice drawn with count `n` among alternatives the spec does not order. -/
opaque freeChoice : Nat → Nat

/-- Whether a maximum (true) or minimum of two zeros of different sign returns the second of them (R138; log entry 152). -/
opaque zeroSecond : Bool → BitVec 32 → BitVec 32 → Bool

/-- The worst pre-FEC bit error ratio that a port measured over a given second of the reference timer, as ROV_PORT_PRE_FEC_BER shows
it (R344; log entry 128). -/
opaque preFecBer : Nat → Nat → BitVec 16

/-- Codewords that the FEC of a port corrected between two ALIGN frames, by the running count of the later one (R344; log entry 128). -/
opaque fecCorrected : Nat → Nat → Nat

/-- The descriptor templates that an image distributes, each with its cluster; the section layouts of the spec do not hold them (R63, R183;
log entry 176). -/
opaque templates : List Byte → List (Nat × Work)

/-- A word of spool bank 47 as the window reads it, from the descriptor queue, the word's index and what was last written there: the bank's
layout is not given (R290; log entry 131). -/
opaque bank47 : List TileWork → Nat → BitVec 32 → BitVec 32

/-- Dvortan's PCI-SIG vendor identifier (R350). -/
opaque pciVendor : BitVec 16

/-- Silicon stepping (R54, R372, R476). -/
opaque stepping : BitVec 8

/-- Dvortan's JEP106 identity (R476). -/
opaque jep106 : BitVec 11

/-- The 256-bit device secret that the PUF yields with this module's helper data (R435). -/
opaque pufSecret : BitVec 256
opaque pufHelper : List Byte

/-- Ed25519: the public key of a private seed, a signature over a message, and its verification (R439; log entry 7). -/
opaque edPublic : List Byte → List Byte
opaque edSign : List Byte → List Byte → List Byte
opaque edVerify : List Byte → List Byte → List Byte → Bool

/-- ML-DSA-65: the public key of a seed ξ, a signature and its verification, with a context string (R439; log entry 7). -/
opaque mlPublic : List Byte → List Byte
opaque mlSign : List Byte → List Byte → List Byte → List Byte
opaque mlVerify : List Byte → List Byte → List Byte → List Byte → Bool

/-- AES-256-GCM sealing and opening: key, nonce, associated data, text (R401, R448; log entry 7). -/
opaque gcmSeal : List Byte → List Byte → List Byte → List Byte → List Byte
opaque gcmOpen : List Byte → List Byte → List Byte → List Byte → Option (List Byte)

/-- What the SPDM 1.3 standard has the responder sign for a request code and what has passed (R458): the spec leaves it to the standard. -/
opaque spdmSigned : Nat → List Byte → List Byte

/-- The responder's ephemeral public value on secp384r1 for the n-th free choice (R458). -/
opaque ecdhPublic : Nat → List Byte

/-- The bytes of a signed region, or of a stored record, from its fields in the order in which its rule names them, by the kind of artefact:
1 revocation list, 2 ownership voucher, 3 owner command, 4 service authorisation, 5 device-signed record, 6 key store, 7 trim record,
8 replay-protected region. The spec gives none of these layouts (log entry 174). -/
opaque signedBytes : Nat → List (List Byte) → List Byte

/-- SHA-512 hashes of the two root public keys, in the distaff ROM (R437). -/
opaque rootEdHash : List Byte
opaque rootMlHash : List Byte

/-- The Dvortan key pair that a 32-bit signer identifier names, where the root has certified it: a firmware key, a service key (R439, R442,
R450). -/
opaque firmwareKey : Word → Option (List Byte × List Byte)
opaque serviceKey : Word → Option (List Byte × List Byte)

/-- What the DER of a two-level chain says (R437): the self-signed root certificate and the device certificate with their signed parts, and
the subject serialNumber as the number that its 16 hexadecimal digits write. -/
structure Chain where
  rootKey : List Byte
  rootPart : List Byte
  rootSig : List Byte
  deviceKey : List Byte
  deviceSerial : Nat
  devicePart : List Byte
  deviceSig : List Byte
  deriving DecidableEq, Repr, Inhabited

opaque readChain : List Byte → Chain

/-- The two certificate chains in DER that the module leaves the factory with, and the owner of its delivery voucher with the voucher's
sequence (R437, R446). -/
opaque edChain : List Byte
opaque mlChain : List Byte
opaque factoryOwner : List Byte × List Byte × Nat

/-- A TLS client certificate chains to the owner's keys (R460). -/
opaque chainsToOwner : List Byte → List Byte × List Byte → Bool

/-- The tag of the message that writes the replay-protected region, under the key bound to this module (R445), and the IV of a key store
by its generation (R448). -/
opaque replayTag : Nat → List Byte → List Byte
opaque storeIv : Nat → List Byte

/-- The ROM measurement of this stepping (R441). -/
opaque romMeasurement : List Byte

/-- The firmware images with which the module left the factory, per stage 0 distaff, 1 flyer, 2 skein base (R443). -/
opaque factoryFirmware : Nat → List Byte

/-- What the input stage controller's own store held when power was first applied: cause and boots (R482). -/
opaque inputStageBoots : BitVec 16

/-- Calibrated power of this module in milliwatts, for the trim record in force and the activity mix of the image with the given
image hash: static, and at full issue (R70, R429; log entry 8). -/
opaque pStatic : Nat → List Byte → Nat
opaque pFull : Nat → List Byte → Nat

/-- The coefficients that the estimator finds from paired readings, and the estimate that they give where those of the trim record give
another (R419, R420): the spec does not lay either out (log entry 170). -/
opaque recalibrated : List (Nat × Nat) → Nat
opaque reEstimate : Nat → Nat → Nat

/-- The published cost model of R69, which the spec names and does not give: the five declared figures it recomputes from the
image's bytes, in the order of DEADLINE: F and B cycles, G tail, U, C, P (log entry 9). -/
opaque costModel : List Byte → List Nat

/-- Reduced-form bytes of one micro-batch's whole frame in a stage, with the fallback budget taken up, by the published cost model
of R69 (R191; log entry 9): from the image's bytes and the stage. -/
opaque frameNeed : List Byte → Nat → Nat

/-- Identity keys of the module with a serial number, whether its certificates chain to the Dvortan roots, and the identifier under which
a revocation list names it (R402, R438): the spec does not say how a checkpoint brings its signer's certificate. -/
opaque moduleKeys : Nat → List Byte × List Byte
opaque moduleTrusted : Nat → Bool
opaque moduleCertId : Nat → Word

/-- A logit of the forward pass of R365, by the logical image hash, the mode codes in force, the committed parameters of each layer (bytes
in logical order), the INPUT words of the sequence, the position and the index: what the
descriptor templates compute, which the spec does not lay out (log entry 81). -/
opaque logit : List Byte → List Nat → List (Nat × List Byte) → List (BitVec 32) → Nat → Nat → BitVec 32

/-- Whether an image has a layer write its output (tensor 0) or its activation gradient (tensor 1) in a narrow copy (R259): by the image's
bytes, the layer, the tensor and the copy. The spec does not say where an image states it (log entry 46). -/
opaque writesCopy : List Byte → Nat → Nat → Nat → Bool

end Sys2Proof.Config
end

