-- ==== Sys2Proof/Machine/Bits.lean ====
section
/-! DEFINITION. Bit fields and byte order (R12, R13, R54): the one place where a field is cut out of a word and where
bytes are put together little-endian. -/

namespace Sys2Proof.Machine

/-- Field `[hi:lo]` of a number, bit 0 least significant (R12). -/
def field (w hi lo : Nat) : Nat := (w >>> lo) % 2 ^ (hi + 1 - lo)

/-- Bit `i` of a number. -/
def bitOf (w i : Nat) : Bool := (w >>> i) % 2 == 1

/-- Field `[hi:lo]` of a word. -/
def wfield (w : Word) (hi lo : Nat) : Nat := field w.toNat hi lo

/-- Bit `i` of a word. -/
def wbit (w : Word) (i : Nat) : Bool := w.getLsbD i

/-- A Boolean as the number a flag bit holds. -/
def b2n (b : Bool) : Nat := if b then 1 else 0

/-- A word from a number, taken modulo 2³². -/
def w32 (n : Nat) : Word := BitVec.ofNat 32 n

/-- A number read as an `n`-bit two's-complement integer. -/
def signed (n w : Nat) : Int := if w % 2 ^ n < 2 ^ (n - 1) then (w % 2 ^ n : Nat) else (w % 2 ^ n : Nat) - (2 ^ n : Nat)

/-- The `n`-bit two's-complement pattern of an integer. -/
def unsigned (n : Nat) (i : Int) : Nat := (i % (2 ^ n : Nat)).toNat

/-- The low `n` bytes of a number, least significant first (R54). -/
def leBytes : Nat → Nat → List Byte
  | 0, _ => []
  | n + 1, v => BitVec.ofNat 8 v :: leBytes n (v / 256)

/-- The number that little-endian bytes stand for (R54). -/
def leNat : List Byte → Nat
  | [] => 0
  | b :: bs => b.toNat + 256 * leNat bs

/-- The bytes of a list of words, each little-endian. -/
def wordsBytes : List Word → List Byte
  | [] => []
  | w :: ws => leBytes 4 w.toNat ++ wordsBytes ws

/-- `n` consecutive 32-bit little-endian words of a byte string; bytes past its end read zero. -/
def bytesWords : Nat → List Byte → List Word
  | 0, _ => []
  | n + 1, bs => w32 (leNat (bs.take 4)) :: bytesWords n (bs.drop 4)

/-- `n` bytes of a byte string from `off`. -/
def slice (bs : List Byte) (off n : Nat) : List Byte := (bs.drop off).take n

/-- The word at index `i` of a structure, zero past its end. -/
def wordAt (ws : List Word) (i : Nat) : Word := ws.getD i 0

/-- Zero bytes up to the next multiple of `n` (`n` positive). -/
def padTo (n : Nat) (bs : List Byte) : List Byte := bs ++ List.replicate ((n - bs.length % n) % n) 0

/-- The ASCII bytes of a string (the labels of the digests, R55, R239, R260, R287). -/
def ascii (s : String) : List Byte := s.toList.map fun c => BitVec.ofNat 8 c.toNat

/-- Even parity: the number of ones among the low `n` bits of `w` is even. -/
def evenOnes : Nat → Nat → Bool
  | 0, _ => true
  | n + 1, w => if w % 2 == 1 then !(evenOnes n (w / 2)) else evenOnes n (w / 2)

/-- `⌈a / b⌉`. -/
def ceilDiv (a b : Nat) : Nat := (a + b - 1) / b

/-- Put `x` before the first element that it is not above. -/
def insertBy {α : Type} (le : α → α → Bool) (x : α) : List α → List α
  | [] => [x]
  | y :: ys => if le x y then x :: y :: ys else y :: insertBy le x ys

/-- A list in rising order; equal elements keep their order. -/
def sortBy {α : Type} (le : α → α → Bool) : List α → List α
  | [] => []
  | x :: xs => insertBy le x (sortBy le xs)

/-- Replace the register bits selected by `mask` by those of `new` (R14: the other bits keep their value). -/
def putMasked (mask old new : Word) : Word := (old &&& ~~~mask) ||| (new &&& mask)

end Sys2Proof.Machine
end

