-- ==== Sys2Proof/Machine/Fp.lean ====
section
/-! DEFINITION. IEEE 754 arithmetic with round-to-nearest-even, the only rounding of the device (R82, R116, R138, R172):
values are exact (sign, magnitude, exponent), every operation computes exactly and rounds once. -/

namespace Sys2Proof.Machine

/-- A binary floating-point value: NaN, an infinity, or the exact number ±`m` × 2^`e`. -/
inductive FVal where
  | nan
  | inf (neg : Bool)
  | fin (neg : Bool) (m : Nat) (e : Int)
  deriving DecidableEq, Repr

/-- What an operation reports beside its result (R117, R118, R128, R140). -/
structure Flags where
  /-- A NaN result or a NaN read. -/
  invalid : Bool := false
  /-- An infinite operand or result. -/
  inf : Bool := false
  /-- A finite result saturated. -/
  ovf : Bool := false
  /-- A subnormal or zero result that differs from the exact one. -/
  underflow : Bool := false
  deriving DecidableEq, Repr

/-- Flags of two operations together. -/
def Flags.or (a b : Flags) : Flags :=
  { invalid := a.invalid || b.invalid, inf := a.inf || b.inf, ovf := a.ovf || b.ovf, underflow := a.underflow || b.underflow }

/-- A binary format: precision, exponent field width. binary32 is (24, 8), binary64 (53, 11), BF16 (8, 8). -/
structure FFmt where
  p : Nat
  ew : Nat
  deriving DecidableEq, Repr

def f32 : FFmt := ⟨24, 8⟩
def f64 : FFmt := ⟨53, 11⟩
def bf16 : FFmt := ⟨8, 8⟩

/-- The exponent bias. -/
def FFmt.bias (f : FFmt) : Nat := 2 ^ (f.ew - 1) - 1

/-- The weight exponent of the least significant bit of a subnormal. -/
def FFmt.minExp (f : FFmt) : Int := 2 - (f.bias : Int) - f.p

/-- Decode a pattern. -/
def FFmt.decode (f : FFmt) (w : Nat) : FVal :=
  let man := w % 2 ^ (f.p - 1)
  let ex := (w >>> (f.p - 1)) % 2 ^ f.ew
  let neg := bitOf w (f.p - 1 + f.ew)
  if ex == 2 ^ f.ew - 1 then (if man == 0 then .inf neg else .nan)
  else if ex == 0 then .fin neg man f.minExp
  else .fin neg (man + 2 ^ (f.p - 1)) (f.minExp + (ex : Int) - 1)

/-- The pattern of a sign and a magnitude field (exponent and mantissa together). -/
def FFmt.pack (f : FFmt) (neg : Bool) (body : Nat) : Nat := b2n neg * 2 ^ (f.p - 1 + f.ew) + body

/-- The pattern of an infinity. -/
def FFmt.infBits (f : FFmt) (neg : Bool) : Nat := f.pack neg ((2 ^ f.ew - 1) * 2 ^ (f.p - 1))

/-- The largest finite pattern. -/
def FFmt.maxBits (f : FFmt) (neg : Bool) : Nat := f.pack neg ((2 ^ f.ew - 1) * 2 ^ (f.p - 1) - 1)

/-- The one NaN the device writes: 0x7FC0_0000 in binary32, 0x7FC0 in BF16 (R82). -/
def FFmt.nanBits (f : FFmt) : Nat := (2 ^ f.ew - 1) * 2 ^ (f.p - 1) + 2 ^ (f.p - 2)

/-- A magnitude rounded to an integer multiple of 2^`shift`, nearest even; `sticky` says that more lies below bit 0. -/
def rneShift (m shift : Nat) (sticky : Bool) : Nat × Bool :=
  if shift == 0 then (m, sticky)
  else
    let hi := m / 2 ^ shift
    let lo := m % 2 ^ shift
    let half := 2 ^ (shift - 1)
    let up := decide (half < lo) || (lo == half && (sticky || hi % 2 == 1))
    (if up then hi + 1 else hi, lo != 0 || sticky)

/-- The rounded body field of ±`m` × 2^`e`, unbounded above, and whether it is inexact. -/
def FFmt.roundBody (f : FFmt) (m : Nat) (e : Int) (sticky : Bool) : Nat × Bool :=
  if m == 0 then (0, sticky)
  else
    let q := max (e + (m.log2 : Int) + 1 - f.p) f.minExp
    let r := if q ≤ e then (m * 2 ^ (e - q).toNat, sticky) else rneShift m (q - e).toNat sticky
    if q == f.minExp then (r.1, r.2)
    else (r.1 + (q - f.minExp).toNat * 2 ^ (f.p - 1), r.2)

/-- What happens to a finite value beyond the largest one: saturation (R117, R140) or IEEE infinity (binary64, R172). -/
inductive Beyond where
  | saturate
  | infinity
  deriving DecidableEq, Repr

/-- Round an exact nonzero magnitude into format `f`. -/
def FFmt.roundTo (f : FFmt) (b : Beyond) (neg : Bool) (m : Nat) (e : Int) (sticky : Bool) : Nat × Flags :=
  let r := f.roundBody m e sticky
  if (2 ^ f.ew - 1) * 2 ^ (f.p - 1) ≤ r.1 then
    match b with
    | .saturate => (f.maxBits neg, { ovf := true })
    | .infinity => (f.infBits neg, { ovf := true })
  else (f.pack neg r.1, { underflow := r.2 && decide (r.1 < 2 ^ (f.p - 1)) })

/-- The pattern of any value, rounded into format `f`. -/
def FFmt.encode (f : FFmt) (b : Beyond) : FVal → Nat × Flags
  | .nan => (f.nanBits, { invalid := true })
  | .inf neg => (f.infBits neg, { inf := true })
  | .fin neg m e => f.roundTo b neg m e false

/-- Is the value an infinity? -/
def FVal.isInf : FVal → Bool
  | .inf _ => true
  | _ => false

/-- Is the value a NaN? -/
def FVal.isNan : FVal → Bool
  | .nan => true
  | _ => false

/-- Is the value finite? -/
def FVal.isFin : FVal → Bool
  | .fin _ _ _ => true
  | _ => false

/-- Is the value a zero? -/
def FVal.isZero : FVal → Bool
  | .fin _ m _ => m == 0
  | _ => false

/-- The sign bit. -/
def FVal.neg : FVal → Bool
  | .nan => false
  | .inf n => n
  | .fin n _ _ => n

/-- The value with its sign changed. -/
def FVal.negate : FVal → FVal
  | .nan => .nan
  | .inf n => .inf (!n)
  | .fin n m e => .fin (!n) m e

/-- The signed integer `±m` of a finite value at exponent `e0 ≤ e`. -/
def signedAt (neg : Bool) (m : Nat) (e e0 : Int) : Int :=
  let v : Int := ((m * 2 ^ (e - e0).toNat : Nat) : Int)
  if neg then -v else v

/-- The exact sum of two finite values as a value; an exact zero is +0 unless both are negative (R119). -/
def addFin (n1 : Bool) (m1 : Nat) (e1 : Int) (n2 : Bool) (m2 : Nat) (e2 : Int) : FVal :=
  let e0 := min e1 e2
  let v := signedAt n1 m1 e1 e0 + signedAt n2 m2 e2 e0
  if v == 0 then .fin (n1 && n2) 0 e0 else .fin (decide (v < 0)) v.natAbs e0

/-- The exact sum (R127: opposite infinities give NaN). -/
def FVal.add : FVal → FVal → FVal
  | .nan, _ => .nan
  | _, .nan => .nan
  | .inf a, .inf b => if a == b then .inf a else .nan
  | .inf a, .fin _ _ _ => .inf a
  | .fin _ _ _, .inf b => .inf b
  | .fin n1 m1 e1, .fin n2 m2 e2 => addFin n1 m1 e1 n2 m2 e2

/-- The exact product (R126: infinity times zero is NaN). -/
def FVal.mul : FVal → FVal → FVal
  | .nan, _ => .nan
  | _, .nan => .nan
  | .inf a, .inf b => .inf (a != b)
  | .inf a, .fin n m _ => if m == 0 then .nan else .inf (a != n)
  | .fin n m _, .inf b => if m == 0 then .nan else .inf (n != b)
  | .fin n1 m1 e1, .fin n2 m2 e2 => .fin (n1 != n2) (m1 * m2) (e1 + e2)

/-- An operation's result with its flags: INF when any operand or the result is infinite, INVALID when the result is NaN
or a NaN was read (R128, R140). -/
structure FRes where
  bits : Word
  flags : Flags
  deriving DecidableEq, Repr

/-- Finish an operation of exact result `v` on operands of which `anyInf` says whether one is infinite. -/
def finish (anyInf : Bool) (v : FVal) : FRes :=
  let r := f32.encode .saturate v
  ⟨w32 r.1, r.2.or { inf := anyInf }⟩

/-- Decode a binary32 pattern. -/
def dec32 (w : Word) : FVal := f32.decode w.toNat

/-- A value as a unit writes it: every NaN is 0x7FC0_0000 (R82, R127). -/
def quiet (w : Word) : Word := if (dec32 w).isNan then 0x7FC00000 else w

/-- Is the pattern infinite or NaN? -/
def nonfinite32 (w : Word) : Bool := !(dec32 w).isFin

def fadd (a b : Word) : FRes := finish ((dec32 a).isInf || (dec32 b).isInf) ((dec32 a).add (dec32 b))

/-- The pattern with its sign bit changed. -/
def fneg (a : Word) : Word := a ^^^ 0x80000000

def fsub (a b : Word) : FRes := fadd a (fneg b)

def fmul (a b : Word) : FRes := finish ((dec32 a).isInf || (dec32 b).isInf) ((dec32 a).mul (dec32 b))

/-- Fused multiply-add `a × b + c`, one rounding (R138). -/
def ffma (a b c : Word) : FRes :=
  finish ((dec32 a).isInf || (dec32 b).isInf || (dec32 c).isInf) (((dec32 a).mul (dec32 b)).add (dec32 c))

/-- Correctly rounded quotient of two finite nonzero magnitudes. -/
def divRound (f : FFmt) (neg : Bool) (m1 : Nat) (e1 : Int) (m2 : Nat) (e2 : Int) : Nat × Flags :=
  let k := f.p + 3 + m2.log2 + 1
  let num := m1 * 2 ^ k
  f.roundTo .saturate neg (num / m2) (e1 - e2 - k) (num % m2 != 0)

/-- Division (R138, R140: a finite nonzero value divided by zero saturates with OVF). -/
def fdiv (a b : Word) : FRes :=
  match dec32 a, dec32 b with
  | .nan, y => finish y.isInf .nan
  | x, .nan => finish x.isInf .nan
  | .inf _, .inf _ => finish true .nan
  | .inf n, .fin n2 _ _ => finish true (.inf (n != n2))
  | .fin n _ _, .inf n2 => ⟨w32 (f32.pack (n != n2) 0), { inf := true }⟩
  | .fin n1 m1 e1, .fin n2 m2 e2 =>
    if m2 == 0 then
      if m1 == 0 then finish false .nan else ⟨w32 (f32.maxBits (n1 != n2)), { ovf := true }⟩
    else if m1 == 0 then ⟨w32 (f32.pack (n1 != n2) 0), {}⟩
    else
      let r := divRound f32 (n1 != n2) m1 e1 m2 e2
      ⟨w32 r.1, r.2⟩

/-- The largest `r` with `r × r ≤ n`, by bisection over `k` result bits. -/
def isqrtBits : Nat → Nat → Nat → Nat
  | 0, _, r => r
  | k + 1, n, r => let c := r + 2 ^ k; isqrtBits k n (if c * c ≤ n then c else r)

/-- Square root, correctly rounded (R138); of a negative value NaN (R140). -/
def fsqrt (a : Word) : FRes :=
  match dec32 a with
  | .nan => finish false .nan
  | .inf n => if n then finish true .nan else finish true (.inf false)
  | .fin n m e =>
    if m == 0 then ⟨w32 (f32.pack n 0), {}⟩
    else if n then finish false .nan
    else
      let k : Nat := 60
      let sh : Nat := if (e - (k : Int)) % 2 == 0 then k else k + 1
      let mm := m * 2 ^ sh
      let r := isqrtBits 60 mm 0
      let q := f32.roundTo .saturate false r ((e - sh) / 2) (r * r != mm)
      ⟨w32 q.1, q.2⟩

/-- The reciprocal square root: square root, then division (R138). -/
def frsqrt (a : Word) : FRes :=
  let s := fsqrt a
  let d := fdiv 0x3F800000 s.bits
  ⟨d.bits, s.flags.or d.flags⟩

/-- Exact comparison `a < b` of two finite values. -/
def FVal.lt : FVal → FVal → Bool
  | .nan, _ => false
  | _, .nan => false
  | .inf a, .inf b => a && !b
  | .inf a, .fin _ _ _ => a
  | .fin _ _ _, .inf b => !b
  | .fin n1 m1 e1, .fin n2 m2 e2 =>
    let e0 := min e1 e2
    decide (signedAt n1 m1 e1 e0 < signedAt n2 m2 e2 e0)

def flt (a b : Word) : Bool := (dec32 a).lt (dec32 b)

/-- `a ≤ b` on numbers (false when either is NaN). -/
def fle (a b : Word) : Bool := !(dec32 a).isNan && !(dec32 b).isNan && !(flt b a)

/-- The greater (or the lesser) of two values that are no NaN; of two zeros of different sign a free choice (log entry 152). -/
def pickOf (maxi : Bool) (a b : Word) : Word :=
  if a == b then a
  else if flt a b then (if maxi then b else a)
  else if flt b a then (if maxi then a else b)
  else if Config.zeroSecond maxi a b then b else a

/-- Maximum; NaN when either input is NaN (R138). -/
def fmax (a b : Word) : FRes :=
  let i := (dec32 a).isInf || (dec32 b).isInf
  if (dec32 a).isNan || (dec32 b).isNan then finish i .nan
  else ⟨pickOf true a b, { inf := i }⟩

/-- Minimum; NaN when either input is NaN (R138). -/
def fmin (a b : Word) : FRes :=
  let i := (dec32 a).isInf || (dec32 b).isInf
  if (dec32 a).isNan || (dec32 b).isNan then finish i .nan
  else ⟨pickOf false a b, { inf := i }⟩

/-- An integer rounded to binary32 (the `float(...)` of R246). -/
def ofNat32 (n : Nat) : Word := w32 (f32.roundTo .saturate false n 0 false).1

/-- The integer nearest to ±`m` × 2^`e`, ties to even. -/
def rneInt (neg : Bool) (m : Nat) (e : Int) : Int :=
  let k := if 0 ≤ e then m * 2 ^ e.toNat else (rneShift m (-e).toNat false).1
  if neg then -(k : Int) else k

/-- ±`v` × 2^`e` as a binary32, one rounding (R245). -/
def scaleInt32 (v : Int) (e : Int) : FRes :=
  if v == 0 then ⟨0, {}⟩
  else
    let r := f32.roundTo .saturate (decide (v < 0)) v.natAbs e false
    ⟨w32 r.1, r.2⟩

/-- A binary32 multiplied by 2^`e`, one rounding (R165, R136 `scale_by_power_of_two`). -/
def scalePow2 (a : Word) (e : Int) : FRes :=
  match dec32 a with
  | .nan => finish false .nan
  | .inf n => finish true (.inf n)
  | .fin n m ex =>
    if m == 0 then ⟨a, {}⟩
    else
      let r := f32.roundTo .saturate n m (ex + e) false
      ⟨w32 r.1, r.2⟩

/-- The exact difference of two binary32 values squared and rounded once to binary64 (R172). -/
def sqDiff64 (a b : Word) : Nat :=
  match (dec32 a).add (dec32 b).negate with
  | .fin _ m e => (f64.roundTo .infinity false (m * m) (e + e) false).1
  | v => (f64.encode .infinity (v.mul v)).1

/-- binary64 addition, nearest even (R172, R198). -/
def add64 (a b : Nat) : Nat := (f64.encode .infinity ((f64.decode a).add (f64.decode b))).1

/-- A binary32 pattern widened to binary64 (exact). -/
def widen64 (a : Word) : Nat := (f64.encode .infinity (dec32 a)).1

end Sys2Proof.Machine
end

