-- ==== Sys2Proof/Machine/Operands.lean ====
section
/-! DEFINITION. Operand forms (chapter 3): element codes, tex headers, side lists, how a reader decodes a staple and a row, and the
conversions into narrow, wide and wire formats. -/

namespace Sys2Proof.Machine

/-- The narrow formats (R75). -/
inductive NFmt where
  | k4 | k8a | k8g
  deriving DecidableEq, Repr

/-- The narrow format of a format code of R57; codes 3 and 4 are wide. -/
def NFmt.ofCode : Nat → Option NFmt
  | 0 => some .k4
  | 1 => some .k8a
  | 2 => some .k8g
  | _ => none

def NFmt.manBits : NFmt → Nat
  | .k4 => 1
  | .k8a => 3
  | .k8g => 2

def NFmt.expBits : NFmt → Nat
  | .k4 => 2
  | .k8a => 4
  | .k8g => 5

/-- Width of an element in memory (R75). -/
def NFmt.bits : NFmt → Nat
  | .k4 => 4
  | _ => 8

/-- The offset of X in the integer form (R81). -/
def NFmt.xOff : NFmt → Int
  | .k4 => 2
  | .k8a => 10
  | .k8g => 17

/-- Code of the largest finite magnitude (R76, R78). -/
def NFmt.maxCode : NFmt → Nat
  | .k4 => 7
  | .k8a => 0x7E
  | .k8g => 0x7B

/-- Largest finite magnitude q_max (R147). -/
def NFmt.qMax : NFmt → Nat
  | .k4 => 6
  | .k8a => 448
  | .k8g => 57344

def NFmt.man (f : NFmt) (c : Nat) : Nat := c % 2 ^ f.manBits
def NFmt.exp (f : NFmt) (c : Nat) : Nat := c / 2 ^ f.manBits % 2 ^ f.expBits
def NFmt.sign (f : NFmt) (c : Nat) : Bool := bitOf c (f.manBits + f.expBits)

/-- S of the integer form (R81). -/
def NFmt.s (f : NFmt) (c : Nat) : Nat := if f.exp c == 0 then f.man c else 2 ^ f.manBits + f.man c

/-- X of the integer form (R81). -/
def NFmt.x (f : NFmt) (c : Nat) : Int := (max (f.exp c) 1 : Nat) - f.xOff

/-- An infinity or NaN code of the format (R78): K4 has none. -/
def NFmt.special (f : NFmt) (c : Nat) : Bool :=
  match f with
  | .k4 => false
  | .k8a => f.exp c == 15 && f.man c == 7
  | .k8g => f.exp c == 31

/-- Staple sizes and twist sizes of the codes of R57. -/
def stapleSize (code : Nat) : Nat := 16 * 2 ^ code
def twistSize (code : Nat) : Nat := if code == 0 then 1 else 8 * 2 ^ code

-- Tex header (R86).

def texExp (h : Half) : Nat := field h.toNat 15 8
def texFrac (h : Half) : Nat := field h.toNat 7 6
def slubN (h : Half) : Nat := field h.toNat 5 4
def texTwist (h : Half) : Nat := field h.toNat 3 2
def texSat (h : Half) : Bool := bitOf h.toNat 1

/-- Even parity over the whole header (R88). -/
def texParOk (h : Half) : Bool := evenOnes 16 h.toNat

/-- A header from its fields, PAR set for even parity (R88). -/
def mkHeader (exp frac n twist : Nat) (sat : Bool) : Half :=
  let h := exp * 256 + frac * 64 + n * 16 + twist * 4 + b2n sat * 2
  BitVec.ofNat 16 (h + b2n (!evenOnes 16 h))

/-- A slub entry, SLUB_PAR set for even parity (R93). -/
def mkSlub (value index : Nat) : Half :=
  let h := value * 256 + index
  BitVec.ofNat 16 (h + 128 * b2n (!evenOnes 16 h))

def slubValue (e : Half) : Nat := field e.toNat 15 8
def slubIndex (e : Half) : Nat := field e.toNat 6 0

/-- The side list is invalid (R96): parity, index out of the staple, or not ascending above `last`. -/
def slubBad (size : Nat) : Option Nat → List Half → Bool
  | _, [] => false
  | last, e :: es =>
    !evenOnes 16 e.toNat || decide (size ≤ slubIndex e) ||
    (match last with | none => false | some l => decide (slubIndex e ≤ l)) || slubBad size (some (slubIndex e)) es

-- Decoding a staple.

/-- One position of an operand as the units take it: the value the lane sees (zero under an outlier, R94), the full value, whether
the position holds an outlier, and whether its staple is non-finite (R92). -/
structure Pos where
  lane : FVal
  full : FVal
  outlier : Bool
  poison : Bool
  deriving DecidableEq, Repr

def FVal.zero : FVal := .fin false 0 0

def Pos.zero : Pos := ⟨FVal.zero, FVal.zero, false, false⟩
def Pos.poisoned : Pos := ⟨.nan, .nan, false, true⟩

/-- An element's exact value under a header (R81): S·T × 2^(X + TEX_EXP − 129). DESIGN CHOICE: the codes 0x8 and 0x80, which R77 has read as
zero, keep their sign and read as minus zero (log entry 183). -/
def NFmt.value (f : NFmt) (h : Half) (c : Nat) : FVal :=
  .fin (f.sign c) (f.s c * (4 + texFrac h)) (f.x c + texExp h - 129)

/-- A slub entry's value (R80, R94): K8g infinities and NaNs keep their meaning. -/
def slubFVal (h : Half) (v : Nat) : FVal :=
  if NFmt.k8g.special v then (if NFmt.k8g.man v == 0 then .inf (NFmt.k8g.sign v) else .nan) else NFmt.k8g.value h v

/-- The positions of a finite staple from index `i` on. -/
def finitePos (f : NFmt) (h : Half) (used : List Half) : Nat → List Byte → List Pos
  | _, [] => []
  | i, b :: bs =>
    (match used.find? fun e => slubIndex e == i with
      | some e => ⟨FVal.zero, slubFVal h (slubValue e), true, false⟩
      | none => let v := f.value h b.toNat; ⟨v, v, false, false⟩) :: finitePos f h used (i + 1) bs

/-- Some element position without an outlier holds an infinity or NaN code (R79). -/
def hasSpecial (f : NFmt) (used : List Half) : Nat → List Byte → Bool
  | _, [] => false
  | i, b :: bs => (f.special b.toNat && !(used.any fun e => slubIndex e == i)) || hasSpecial f used (i + 1) bs

/-- What a reader makes of a staple: its positions, and the event it raises, 0 for none (R108). -/
structure StapleRead where
  pos : List Pos
  event : Nat
  deriving DecidableEq, Repr

/-- Decode a staple of `size` positions of a tensor with the given twist code (R79, R87 to R96). The side list of a non-finite staple is
ignored (log entry 147). DESIGN CHOICE: an invalid side list goes before a special element code (log entry 184). -/
def readStaple (f : NFmt) (size twist : Nat) (st : Staple) : StapleRead :=
  let h := st.header
  let zeros := List.replicate size Pos.zero
  if !texParOk h then ⟨zeros, 0x1010⟩
  else if texTwist h != twist then ⟨zeros, 0x1012⟩
  else if texExp h == 0xFF then ⟨List.replicate size Pos.poisoned, 0⟩
  else if texExp h == 0 && texFrac h == 0 then ⟨zeros, 0⟩
  else
    let used := st.slots.take (slubN h)
    if slubBad size none used then ⟨zeros, 0x1011⟩
    else if hasSpecial f used 0 st.elems then ⟨List.replicate size Pos.poisoned, 0x1013⟩
    else ⟨finitePos f h used 0 st.elems, 0⟩

/-- A staple has the form of its size: one element code per position, three slots. -/
def stapleShaped (size : Nat) (st : Staple) : Bool := st.elems.length == size && st.slots.length == 3

/-- A wide value as a position. -/
def widePos (w : Word) : Pos := let v := dec32 w; ⟨v, v, false, false⟩

/-- The positions of a row and the events of its staples, each with the staple number. -/
structure RowRead where
  pos : List Pos
  events : List (Nat × Nat)
  deriving DecidableEq, Repr

def readStaples (f : NFmt) (size twist : Nat) : Nat → List Staple → RowRead
  | _, [] => ⟨[], []⟩
  | j, st :: sts =>
    let r := readStaple f size twist st
    let q := readStaples f size twist (j + 1) sts
    ⟨r.pos ++ q.pos, if r.event == 0 then q.events else (j, r.event) :: q.events⟩

/-- Read an operand row in the given format, staple and twist code. -/
def readRow (fmt staple twist : Nat) : ORow → RowRead
  | .narrow sts =>
    match NFmt.ofCode fmt with
    | some f => readStaples f (stapleSize staple) twist 0 sts
    | none => ⟨[], []⟩
  | .wide vals => ⟨vals.map widePos, []⟩

/-- A row has the form of its format: staples of the right size, or wide values. -/
def rowShaped (fmt staple : Nat) : ORow → Bool
  | .narrow sts => (NFmt.ofCode fmt).isSome && sts.all fun st => stapleShaped (stapleSize staple) st
  | .wide _ => (NFmt.ofCode fmt).isNone

/-- The exact value of a full position as binary32 (R107): beyond the range it is clipped and sets OVF. -/
def Pos.to32 (p : Pos) : FRes := finish false p.full

-- Rounding into a narrow format (R105, R149).

/-- A magnitude `m × 2^e` as an integer at exponent `e0 ≤ e`. -/
def magAt (e0 : Int) (m : Nat) (e : Int) : Nat := m * 2 ^ (e - e0).toNat

/-- A tex scale: exponent and multiplier fields; its value is (4 + frac) × 2^(exp − 129). -/
structure Scale where
  exp : Nat
  frac : Nat
  deriving DecidableEq, Repr

/-- The magnitude of code `c` times the scale, at exponent `e0`. -/
def NFmt.gridAt (f : NFmt) (g : Scale) (e0 : Int) (c : Nat) : Nat :=
  magAt e0 (f.s c * (4 + g.frac)) (f.x c + g.exp - 129)

/-- The largest of the first `n + 1` codes whose magnitude is at most `a` (magnitudes rise with the code). -/
def NFmt.floorCode (f : NFmt) (g : Scale) (e0 : Int) (a : Nat) : Nat → Nat
  | 0 => 0
  | n + 1 => if f.gridAt g e0 (n + 1) ≤ a then n + 1 else NFmt.floorCode f g e0 a n

/-- How an element is rounded: to nearest even, or with a 16-bit draw (R149). -/
inductive Rounding where
  | nearest
  | draw (u : Nat)
  deriving DecidableEq, Repr

/-- The code of a finite value relative to a scale, and whether it was clipped. -/
def NFmt.code (f : NFmt) (r : Rounding) (g : Scale) (neg : Bool) (m : Nat) (e : Int) : Nat × Bool :=
  let e0 := min e ((g.exp : Int) - 129 - 16)
  let a := magAt e0 m e
  let c := f.floorCode g e0 a f.maxCode
  let lo := f.gridAt g e0 c
  let mag :=
    if c == f.maxCode || a == lo then c
    else
      let hi := f.gridAt g e0 (c + 1)
      match r with
      | .nearest => if 2 * a < lo + hi || (2 * a == lo + hi && c % 2 == 0) then c else c + 1
      | .draw u => if u * (hi - lo) < (a - lo) * 65536 then c + 1 else c
  (if neg && mag != 0 then mag + 2 ^ (f.manBits + f.expBits) else mag, c == f.maxCode && decide (lo < a))

-- Wide and wire conversions (R104, R105).

/-- binary32 to BF16, in the upper half of a word, with its flags. -/
def toBf16 (w : Word) : FRes :=
  let r := bf16.encode .saturate (dec32 w)
  ⟨w32 (r.1 * 65536), r.2⟩

/-- A wire value and whether it was clipped: W16 counts in 2^HS, W32 in 2^(HS − 16); none is the marker. -/
def toWire (exact : Bool) (hs : Int) (w : Word) : Option Int × Bool :=
  let top : Int := if exact then 2147483647 else 32767
  match dec32 w with
  | .fin n m e =>
    let v := rneInt n m (e - hs + if exact then 16 else 0)
    if top < v then (some top, true) else if v < -top then (some (-top), true) else (some v, false)
  | _ => (none, false)

/-- The code of a wire value (R103). -/
def wireCode (exact : Bool) : Option Int → Nat
  | none => if exact then 0x80000000 else 0x8000
  | some v => unsigned (if exact then 32 else 16) v

/-- The value of a wire code. -/
def ofWireCode (exact : Bool) (c : Nat) : Option Int :=
  let n := if exact then 32 else 16
  if c % 2 ^ n == 2 ^ (n - 1) then none else some (signed n c)

-- Multipass slices (R131).

/-- A BF16 value split into its two slices. -/
def slices : FVal → FVal × FVal
  | .fin n m e =>
    if m < 16 then (.fin n m e, FVal.zero)
    else
      let sh := m.log2 - 3
      let hi := (rneShift m sh false).1
      let d : Int := (m : Int) - (hi * 2 ^ sh : Nat)
      (.fin n hi (e + sh), .fin (n != decide (d < 0)) d.natAbs e)
  | v => (v, FVal.zero)

/-- A wide operand rounded to BF16 by the unpack (R131), and the flags of that conversion (R105, R107). -/
def unpackWide (p : Pos) : Pos × Flags :=
  match p.full with
  | .fin n m e =>
    let r := bf16.roundTo .saturate n m e false
    let v := if m == 0 then p.full else bf16.decode r.1
    (⟨v, v, false, false⟩, if m == 0 then {} else r.2)
  | _ => (p, {})

end Sys2Proof.Machine
end

