-- ==== Sys2Proof/Machine/Lane.lean ====
section
/-! DEFINITION. Lane, engine and whorl arithmetic (R109 to R140): chunk sums, accumulation, the slub pass, multipass, the epilogue,
exp2 and the whorl's reductions. Pure functions on positions and binary32 patterns. -/

namespace Sys2Proof.Machine

-- Causes of INVALID (the map of SPD_FIRST_INVALID_0).
def causeZeroInf : Nat := 1
def causeInfInf : Nat := 2
def causeNan : Nat := 3
def causePoison : Nat := 4
def causeEpilogue : Nat := 5
def causeWhorl : Nat := 6

/-- Class of a product position (R126). -/
inductive PCls where
  | fin
  | inf (neg : Bool)
  | nan (cause : Nat)
  deriving DecidableEq, Repr

/-- Class of a product of two values. -/
def valueClass (x y : FVal) : PCls :=
  match x, y with
  | .nan, _ => .nan causeNan
  | _, .nan => .nan causeNan
  | .inf a, .inf b => .inf (a != b)
  | .inf a, .fin n m _ => if m == 0 then .nan causeZeroInf else .inf (a != n)
  | .fin n m _, .inf b => if m == 0 then .nan causeZeroInf else .inf (n != b)
  | .fin _ _ _, .fin _ _ _ => .fin

/-- One position of a chunk, a slub term or a pass: its class, whether an operand or the class is infinite, its exact product. -/
structure Term where
  cls : PCls
  inf : Bool
  val : FVal
  deriving DecidableEq, Repr

/-- The term of two values whose staples may be poisoned. -/
def mkTerm (poison : Bool) (x y : FVal) : Term :=
  if poison then ⟨.nan causePoison, x.isInf || y.isInf, FVal.zero⟩
  else match valueClass x y with
    | .fin => ⟨.fin, false, x.mul y⟩
    | c => ⟨c, x.isInf || y.isInf, FVal.zero⟩

/-- The position as the lane takes it (R111): an outlier of either operand makes the product zero. -/
def laneTerm (a b : Pos) : Term :=
  if a.outlier || b.outlier then mkTerm (a.poison || b.poison) FVal.zero FVal.zero
  else mkTerm (a.poison || b.poison) a.lane b.lane

/-- Leading-bit exponent of a nonzero product (R112). -/
def leading : FVal → Option Int
  | .fin _ m e => if m == 0 then none else some (e + m.log2)
  | _ => none

/-- The larger of two optional exponents. -/
def maxLead : Option Int → Option Int → Option Int
  | none, b => b
  | a, none => a
  | some a, some b => some (max a b)

/-- A product shifted into the window whose bit 0 weighs 2^(m − 26): a right shift drops bits (R113). -/
def aligned (m : Int) : FVal → Int
  | .fin n p x =>
    let sh := x - (m - 26)
    let q : Nat := if 0 ≤ sh then p * 2 ^ sh.toNat else p / 2 ^ (-sh).toNat
    if n then -(q : Int) else q
  | _ => 0

/-- The chunk sum of finite products (R113, R115). -/
def chunkSum (ps : List FVal) : FVal :=
  match ps.foldl (fun m p => maxLead m (leading p)) none with
  | none => FVal.zero
  | some m =>
    let v := ps.foldl (fun a p => a + aligned m p) 0
    if v == 0 then FVal.zero else .fin (decide (v < 0)) v.natAbs (m - 26)

/-- A resolved chunk, term or pass (R127): its value, the causes of NaN it shows, whether an infinity was seen, and poison. -/
structure Resolved where
  val : FVal
  causes : List Nat
  inf : Bool
  poison : Bool
  deriving DecidableEq, Repr

def PCls.cause : PCls → Option Nat
  | .nan c => some c
  | _ => none

/-- Resolve the classes of a chunk, else sum it (R127). -/
def resolve (ts : List Term) : Resolved :=
  let causes := ts.filterMap fun t => t.cls.cause
  let p := ts.any fun t => t.cls == .inf false
  let n := ts.any fun t => t.cls == .inf true
  let inf := ts.any fun t => t.inf
  let poison := causes.contains causePoison
  if !causes.isEmpty then ⟨.nan, causes, inf, poison⟩
  else if p && n then ⟨.nan, [causeInfInf], inf, false⟩
  else if p || n then ⟨.inf n, [], inf, false⟩
  else ⟨chunkSum (ts.map (·.val)), [], inf, false⟩

/-- One accumulator element with the sticky conditions it has met: every setting of INVALID with its cause and chunk. -/
structure ElemAcc where
  bits : Word
  flags : Flags
  poison : Bool
  settings : List (Nat × Option Nat)
  deriving DecidableEq, Repr

def ElemAcc.start (w : Word) : ElemAcc := ⟨w, {}, false, []⟩

/-- Convert a resolved value to binary32 and add it (R116 to R119, R127, R128). An addition that reads a NaN in the accumulator records it as
NAN_OPERAND in the present chunk (log entry 140). -/
def ElemAcc.add (chunk : Nat) (r : Resolved) (a : ElemAcc) : ElemAcc :=
  let c := f32.encode .saturate r.val
  let s := fadd a.bits (w32 c.1)
  let accNan := (dec32 a.bits).isNan
  let own := r.causes.map fun x => (x, some chunk)
  let more : List (Nat × Option Nat) :=
    if accNan then [(causeNan, some chunk)]
    else if s.flags.invalid && r.causes.isEmpty then [(causeInfInf, some chunk)] else []
  { bits := s.bits
    flags := a.flags.or ((c.2.or s.flags).or { inf := r.inf })
    poison := a.poison || r.poison
    settings := a.settings ++ own ++ more }

/-- The positions of chunk `c` of a row, up to K_EXTENT (R109). -/
def chunkOf (k c : Nat) (row : List Pos) : List Pos := ((row.take k).drop (32 * c)).take 32

/-- Pass `i` of a multipass position (R132 to R134): 0 hi·hi, 1 hi·lo, 2 lo·hi. The class is decided in the first pass. -/
def passTerm (i : Nat) (a b : Pos) : Term :=
  match valueClass a.full b.full with
  | .fin =>
    let x := slices a.full
    let y := slices b.full
    let p := if i == 0 then x.1.mul y.1 else if i == 1 then x.1.mul y.2 else x.2.mul y.1
    ⟨.fin, false, p⟩
  | c => if i == 0 then ⟨c, a.full.isInf || b.full.isInf, FVal.zero⟩ else ⟨.fin, false, FVal.zero⟩

/-- One chunk of one element: one sum of a narrow product, `ply` sums of a multipass one (R116, R132). -/
def elemChunk (ply k : Nat) (a b : List Pos) (acc : ElemAcc) (c : Nat) : ElemAcc :=
  let pairs := (chunkOf k c a).zip (chunkOf k c b)
  if ply == 0 then acc.add c (resolve (pairs.map fun p => laneTerm p.1 p.2))
  else (List.range ply).foldl (fun x i => x.add c (resolve (pairs.map fun p => passTerm i p.1 p.2))) acc

/-- The chunks `lo` to `hi − 1` of one element, in ascending order (R116, R120). -/
def elemChunks (ply k lo hi : Nat) (a b : List Pos) (acc : ElemAcc) : ElemAcc :=
  ((List.range hi).drop lo).foldl (elemChunk ply k a b) acc

/-- The slub term of one position (R121): added unless its product is zero, examined all the same. -/
def slubTerm (acc : ElemAcc) (p : (Pos × Pos) × Nat) : ElemAcc :=
  let a := p.1.1
  let b := p.1.2
  if a.outlier || b.outlier then
    let t := mkTerm (a.poison || b.poison) a.full b.full
    if t.cls == .fin && t.val.isZero then acc
    else
      let v : FVal := match t.cls with | .fin => t.val | .inf n => .inf n | .nan _ => .nan
      acc.add (p.2 / 32) ⟨v, t.cls.cause.toList, t.inf, t.cls == .nan causePoison⟩
  else acc

/-- The slub pass of one element (R121, R122). -/
def elemSlub (k : Nat) (a b : List Pos) (acc : ElemAcc) : ElemAcc :=
  (((a.take k).zip (b.take k)).zipIdx).foldl slubTerm acc

-- Activations (R136).

/-- Two operations in a row, flags together. -/
def FRes.then (r : FRes) (k : Word → FRes) : FRes := let q := k r.bits; ⟨q.bits, r.flags.or q.flags⟩

def one32 : Word := 0x3F800000
/-- log₂ e as the spec rounds it. -/
def log2e : Word := 0x3FB8AA3B

/-- t minus its nearest integer, exact. -/
def fracPart (t : Word) (n : Int) : Word := (fsub t (scaleInt32 n 0).bits).bits

/-- The integer nearest to a finite value, ties to even. -/
def nearInt (t : Word) : Int :=
  match dec32 t with
  | .fin n m e => rneInt n m e
  | _ => 0

/-- exp2 (R136). -/
def exp2 (t : Word) : FRes :=
  match dec32 t with
  | .nan => ⟨quiet t, { invalid := true }⟩
  | .inf neg => if neg then ⟨0, { inf := true }⟩ else ⟨0x7F7FFFFF, { inf := true, ovf := true }⟩
  | .fin _ _ _ =>
    if fle 0x43000000 t then ⟨0x7F7FFFFF, { ovf := true }⟩
    else if flt t 0xC3160000 then ⟨0, { underflow := true }⟩
    else
      let n := nearInt t
      let f := fracPart t n
      let step (c : Word) (p : Word) : FRes := (fmul p f).then fun q => fadd q c
      (((((step 0x3C1D955B 0x3AAEC3FF).then (step 0x3D635847)).then (step 0x3E75FDF0)).then (step 0x3F317218)).then
        (step one32)).then fun p => scalePow2 p n

/-- sigmoid (R136). -/
def sigmoid (u : Word) : FRes :=
  (((fmul (fneg u) log2e).then exp2).then (fadd one32)).then (fdiv one32)

/-- Flags of reading one value. -/
def readFlags (y : Word) : Flags := { invalid := (dec32 y).isNan, inf := (dec32 y).isInf }

def relu (y : Word) : FRes := ⟨if flt 0 y then y else if (dec32 y).isNan then quiet y else 0, readFlags y⟩

/-- The activations of R57's codes (R136). -/
def activation (code : Nat) (y : Word) : FRes :=
  match code with
  | 0 => ⟨quiet y, {}⟩
  | 1 => relu y
  | 2 =>
    let cube := (fmul y y).then (fmul y)
    let u := ((cube.then (fmul 0x3D372713)).then (fadd y)).then (fmul 0x3FCC422A)
    (u.then sigmoid).then (fmul y)
  | 3 => (sigmoid y).then (fmul y)
  | _ => (relu y).then fun r => fmul r r

-- The epilogue (R135).

/-- An element through steps 1 to 3: its value, flags, and the number of settings of INVALID (cause EPILOGUE). -/
structure EpiRes where
  bits : Word
  flags : Flags
  settings : Nat
  deriving DecidableEq, Repr

def EpiRes.step (r : EpiRes) (f : Word → FRes) : EpiRes :=
  let q := f r.bits
  ⟨q.bits, r.flags.or q.flags, r.settings + b2n q.flags.invalid⟩

/-- Steps 1 to 3; the read of the accumulator itself reports NaN and infinity. -/
def epilogue (sigma beta : Option Word) (act : Nat) (acc : Word) : EpiRes :=
  let r0 : EpiRes := ⟨quiet acc, readFlags acc, b2n (dec32 acc).isNan⟩
  let r1 := match sigma with | some w => r0.step (fmul w) | none => r0
  let r2 := match beta with | some w => r1.step (fun y => fadd y w) | none => r1
  if act == 0 then r2 else r2.step (activation act)

/-- The output of step 2 (R188: pre-activation values). -/
def preActivation (sigma beta : Option Word) (acc : Word) : EpiRes := epilogue sigma beta 0 acc

-- Whorl (R138 to R140).

/-- Several results with their flags together. -/
structure VRes where
  vals : List Word
  flags : Flags
  deriving DecidableEq, Repr

def VRes.of (rs : List FRes) : VRes := ⟨rs.map (·.bits), rs.foldl (fun f r => f.or r.flags) {}⟩

def VRes.with (r : VRes) (f : Flags) : VRes := ⟨r.vals, r.flags.or f⟩

def map1 (f : Word → FRes) (a : List Word) : VRes := VRes.of (a.map f)
def map2 (f : Word → Word → FRes) (a b : List Word) : VRes := VRes.of ((a.zip b).map fun p => f p.1 p.2)
def map3 (f : Word → Word → Word → FRes) (a b c : List Word) : VRes :=
  VRes.of ((a.zip (b.zip c)).map fun p => f p.1 p.2.1 p.2.2)

/-- One level of the balanced tree: position 2i with 2i + 1. -/
def pairSums : List Word → List FRes
  | [] => []
  | [a] => [fadd a 0]
  | a :: b :: r => fadd a b :: pairSums r

/-- The balanced tree over a block of 64 (R139). -/
def blockTree : Nat → VRes → FRes
  | 0, v => ⟨v.vals.getD 0 0, v.flags⟩
  | n + 1, v => blockTree n ((VRes.of (pairSums v.vals)).with v.flags)

/-- A block of 64 positions, filled with +0. -/
def blockSum (xs : List Word) : FRes := blockTree 6 ⟨xs ++ List.replicate (64 - xs.length) 0, {}⟩

/-- The blocks added one after another to +0 (R139). -/
def reduceBlocks : Nat → List Word → FRes → FRes
  | 0, _, r => r
  | n + 1, xs, r =>
    let b := blockSum (xs.take 64)
    let t := fadd r.bits b.bits
    reduceBlocks n (xs.drop 64) ⟨t.bits, (r.flags.or b.flags).or t.flags⟩

/-- A whorl reduction (R139), from +0 or from a running value handed over at a block boundary. -/
def reduceFrom (start : Word) (xs : List Word) : FRes := reduceBlocks (ceilDiv xs.length 64) xs ⟨start, {}⟩
def reduce (xs : List Word) : FRes := reduceFrom 0 xs

/-- The maximum of a list; +0 of an empty one. -/
def maxOf : List Word → FRes
  | [] => ⟨0, {}⟩
  | x :: xs => xs.foldl (fun r y => r.then fun m => fmax m y) ⟨x, readFlags x⟩

/-- exp2((x − m) × log₂ e), one rounding per operation. -/
def expDiff (m x : Word) : FRes := ((fsub x m).then fun d => fmul d log2e).then exp2

/-- Softmax in three passes (R140). -/
def softmax (xs : List Word) : VRes :=
  let m := maxOf xs
  let es := map1 (expDiff m.bits) xs
  let t := reduce es.vals
  (map1 (fun e => fdiv e t.bits) es.vals).with ((m.flags.or es.flags).or t.flags)

-- Attention (R211, R212).

/-- The score scale 2^shift / √head_dim as a binary32 (R57). -/
def scoreScale (shift : Int) (headDim : Nat) : Word :=
  let r := isqrtBits 41 (2 ^ 80 / headDim) 0
  w32 (f32.roundTo .saturate false r (shift - 40) (r * r * headDim != 2 ^ 80)).1

/-- The running state of a query row: m, ℓ, o; none while empty. -/
abbrev AttnState := Option (Word × Word × List Word)

/-- What a block leaves: the state, the probabilities, the flags. -/
structure AttnRes where
  state : AttnState
  probs : List Word
  flags : Flags
  deriving DecidableEq, Repr

/-- Values at unmasked positions. -/
def unmasked (mask : List Bool) (xs : List Word) : List Word := ((xs.zip mask).filter (·.2)).map (·.1)

/-- Apply `f` at unmasked positions, +0 at the others. -/
def masked (f : Word → FRes) (mask : List Bool) (xs : List Word) : VRes :=
  VRes.of ((xs.zip mask).map fun p => if p.2 then f p.1 else ⟨0, {}⟩)

/-- Steps 1 to 4 of R211 for one key block, query row and head: o is scaled, and p·V not yet added. A block that is masked whole changes
nothing. The o of a row that has met no p·V is the empty list, which stands for zeros. -/
def attnBlock (scale : Word) (scores : List Word) (mask : List Bool) (st : AttnState) : AttnRes :=
  if !(mask.any id) then ⟨st, scores.map fun _ => 0, {}⟩
  else
    let s := map1 (fmul scale) scores
    let bm := maxOf (unmasked mask s.vals)
    match st with
    | none =>
      let p := masked (expDiff bm.bits) mask s.vals
      let b := reduce p.vals
      ⟨some (bm.bits, b.bits, []), p.vals, ((s.flags.or bm.flags).or p.flags).or b.flags⟩
    | some (m, l, ov) =>
      let m' := fmax m bm.bits
      let al := expDiff m'.bits m
      let p := masked (expDiff m'.bits) mask s.vals
      let b := reduce p.vals
      let l' := (fmul l al.bits).then fun x => fadd x b.bits
      let o := map1 (fun x => fmul x al.bits) ov
      ⟨some (m'.bits, l'.bits, o.vals), p.vals,
       ((((((s.flags.or bm.flags).or m'.flags).or al.flags).or p.flags).or b.flags).or l'.flags).or o.flags⟩

/-- Step 5 of R211: p·V of the block is added into o. -/
def attnValue (st : AttnState) (pv : List Word) : AttnRes :=
  match st with
  | none => ⟨none, [], {}⟩
  | some (m, l, ov) =>
    let o := if ov.isEmpty then map1 (fadd 0) pv else map2 fadd ov pv
    ⟨some (m, l, o.vals), [], o.flags⟩

/-- o divided by ℓ after the last block; zero for an empty state (R211). -/
def attnFinish (st : AttnState) (width : Nat) : VRes :=
  match st with
  | none => ⟨List.replicate width 0, {}⟩
  | some (_, l, o) => map1 (fun x => fdiv x l) o

/-- The probabilities recomputed in B (R212). -/
def attnProbs (scale : Word) (scores : List Word) (mask : List Bool) (m l : Word) (empty : Bool) : VRes :=
  if empty then ⟨scores.map fun _ => 0, {}⟩
  else
    let s := map1 (fmul scale) scores
    (masked (fun x => (expDiff m x).then fun e => fdiv e l) mask s.vals).with s.flags

end Sys2Proof.Machine
end

