-- ==== Sys2Proof/Machine/Hash.lean ====
section
/-! DEFINITION. The hash functions the spec names (SHAKE256 in R10, R52, R287, R391, R451; SHA-512 in R52, R60, R436, R439)
and the frame check CRC-32C (R326). SHAKE256 and SHA-512 follow their public standards (PRESUMED, log entry 6). -/

namespace Sys2Proof.Machine

/-- Four 64-bit words written as one number, the first in its top quarter. -/
def fourWords (n : Nat) : List DWord := [n / 2 ^ 192, n / 2 ^ 128, n / 2 ^ 64, n].map (BitVec.ofNat 64)

/-- The round constants of Keccak-f[1600], four to a number. -/
def keccakRC : List DWord :=
  ([0x00000000000000010000000000008082800000000000808a8000000080008000,
   0x000000000000808b000000008000000180000000800080818000000000008009,
   0x000000000000008a00000000000000880000000080008009000000008000000a,
   0x000000008000808b800000000000008b80000000000080898000000000008003,
   0x80000000000080028000000000000080000000000000800a800000008000000a,
   0x8000000080008081800000000000808000000000800000018000000080008008]).flatMap fourWords

/-- The rotation of each lane `x + 5y`. -/
def keccakRot : List Nat := [0, 1, 62, 28, 27, 36, 44, 6, 55, 20, 3, 10, 43, 25, 39, 41, 45, 15, 21, 8, 18, 2, 61, 56, 14]

/-- Lane `i` of a Keccak state. -/
def lane (a : List DWord) (i : Nat) : DWord := a.getD i 0

/-- One round of Keccak-f[1600]. -/
def keccakRound (a : List DWord) (rc : DWord) : List DWord :=
  let c := (List.range 5).map fun x => lane a x ^^^ lane a (x + 5) ^^^ lane a (x + 10) ^^^ lane a (x + 15) ^^^ lane a (x + 20)
  let d := (List.range 5).map fun x => lane c ((x + 4) % 5) ^^^ (lane c ((x + 1) % 5)).rotateLeft 1
  let t := (List.range 25).map fun i => lane a i ^^^ lane d (i % 5)
  -- b[y, 2x + 3y] = rot(t[x, y]); the source of target (u, v) is x = u + 3v, y = u (mod 5)
  let b := (List.range 25).map fun i =>
    let u := i % 5
    let v := i / 5
    let src := (u + 3 * v) % 5 + 5 * u
    (lane t src).rotateLeft (keccakRot.getD src 0)
  let e := (List.range 25).map fun i =>
    let x := i % 5
    let y := i / 5 * 5
    lane b i ^^^ (~~~(lane b ((x + 1) % 5 + y)) &&& lane b ((x + 2) % 5 + y))
  match e with
  | [] => []
  | h :: r => (h ^^^ rc) :: r

/-- The permutation Keccak-f[1600]. -/
def keccakF (a : List DWord) : List DWord := keccakRC.foldl keccakRound a

/-- `n` little-endian lanes of a byte string. -/
def bytesLanes : Nat → List Byte → List DWord
  | 0, _ => []
  | n + 1, bs => BitVec.ofNat 64 (leNat (bs.take 8)) :: bytesLanes n (bs.drop 8)

/-- Absorb one block of 136 bytes. -/
def absorb (a : List DWord) (blk : List Byte) : List DWord :=
  keccakF ((a.zip (bytesLanes 17 blk ++ List.replicate 8 0)).map fun p => p.1 ^^^ p.2)

/-- The message with the SHAKE padding up to a whole number of blocks. -/
def shakePad (m : List Byte) : List Byte :=
  let k := 136 - m.length % 136
  if k == 1 then m ++ [0x9F] else m ++ 0x1F :: (List.replicate (k - 2) 0 ++ [0x80])

/-- Absorb `n` blocks. -/
def absorbBlocks : Nat → List Byte → List DWord → List DWord
  | 0, _, a => a
  | n + 1, m, a => absorbBlocks n (m.drop 136) (absorb a (m.take 136))

/-- The first `n` bytes of SHAKE256 over `m`, for `n` up to 136 (no digest of the spec is longer). -/
def shake256 (n : Nat) (m : List Byte) : List Byte :=
  let p := shakePad m
  let a := absorbBlocks (p.length / 136) p (List.replicate 25 0)
  ((a.take 17).flatMap fun w => leBytes 8 w.toNat).take n

/-- The initial hash value of SHA-512, four words to a number. -/
def sha512Init : List DWord :=
  ([0x6a09e667f3bcc908bb67ae8584caa73b3c6ef372fe94f82ba54ff53a5f1d36f1,
   0x510e527fade682d19b05688c2b3e6c1f1f83d9abfb41bd6b5be0cd19137e2179]).flatMap fourWords

/-- The round constants of SHA-512, four to a number. -/
def sha512K : List DWord :=
  ([0x428a2f98d728ae227137449123ef65cdb5c0fbcfec4d3b2fe9b5dba58189dbbc,
   0x3956c25bf348b53859f111f1b605d019923f82a4af194f9bab1c5ed5da6d8118,
   0xd807aa98a303024212835b0145706fbe243185be4ee4b28c550c7dc3d5ffb4e2,
   0x72be5d74f27b896f80deb1fe3b1696b19bdc06a725c71235c19bf174cf692694,
   0xe49b69c19ef14ad2efbe4786384f25e30fc19dc68b8cd5b5240ca1cc77ac9c65,
   0x2de92c6f592b02754a7484aa6ea6e4835cb0a9dcbd41fbd476f988da831153b5,
   0x983e5152ee66dfaba831c66d2db43210b00327c898fb213fbf597fc7beef0ee4,
   0xc6e00bf33da88fc2d5a79147930aa72506ca6351e003826f142929670a0e6e70,
   0x27b70a8546d22ffc2e1b21385c26c9264d2c6dfc5ac42aed53380d139d95b3df,
   0x650a73548baf63de766a0abb3c77b2a881c2c92e47edaee692722c851482353b] ++
  [0xa2bfe8a14cf10364a81a664bbc423001c24b8b70d0f89791c76c51a30654be30,
   0xd192e819d6ef5218d69906245565a910f40e35855771202a106aa07032bbd1b8,
   0x19a4c116b8d2d0c81e376c085141ab532748774cdf8eeb9934b0bcb5e19b48a8,
   0x391c0cb3c5c95a634ed8aa4ae3418acb5b9cca4f7763e373682e6ff3d6b2b8a3,
   0x748f82ee5defb2fc78a5636f43172f6084c87814a1f0ab728cc702081a6439ec,
   0x90befffa23631e28a4506cebde82bde9bef9a3f7b2c67915c67178f2e372532b,
   0xca273eceea26619cd186b8c721c0c207eada7dd6cde0eb1ef57d4f7fee6ed178,
   0x06f067aa72176fba0a637dc5a2c898a6113f9804bef90dae1b710b35131c471b,
   0x28db77f523047d8432caab7b40c724933c9ebe0a15c9bebc431d67c49c100d4c,
   0x4cc5d4becb3e42b6597f299cfc657e2a5fcb6fab3ad6faec6c44198c4a475817]).flatMap fourWords

/-- `n` bytes of a number, most significant first. -/
def beBytes (n v : Nat) : List Byte := (leBytes n v).reverse

/-- Extend the message schedule by `n` words; the newest word stands first. -/
def sha512Schedule : Nat → List DWord → List DWord
  | 0, w => w
  | n + 1, w =>
    let s0 := let x := lane w 14; x.rotateRight 1 ^^^ x.rotateRight 8 ^^^ (x >>> 7)
    let s1 := let x := lane w 1; x.rotateRight 19 ^^^ x.rotateRight 61 ^^^ (x >>> 6)
    sha512Schedule n ((lane w 15 + s0 + lane w 6 + s1) :: w)

/-- One round of SHA-512 on the eight working variables. -/
def sha512Round (v : List DWord) (kw : DWord × DWord) : List DWord :=
  let a := lane v 0
  let b := lane v 1
  let c := lane v 2
  let e := lane v 4
  let s1 := e.rotateRight 14 ^^^ e.rotateRight 18 ^^^ e.rotateRight 41
  let ch := (e &&& lane v 5) ^^^ (~~~e &&& lane v 6)
  let t1 := lane v 7 + s1 + ch + kw.1 + kw.2
  let s0 := a.rotateRight 28 ^^^ a.rotateRight 34 ^^^ a.rotateRight 39
  let mj := (a &&& b) ^^^ (a &&& c) ^^^ (b &&& c)
  [t1 + (s0 + mj), a, b, c, lane v 3 + t1, e, lane v 5, lane v 6]

/-- Big-endian 64-bit words of a byte string. -/
def bytesBE64 : Nat → List Byte → List DWord
  | 0, _ => []
  | n + 1, bs => BitVec.ofNat 64 (leNat (bs.take 8).reverse) :: bytesBE64 n (bs.drop 8)

/-- Compress `n` blocks of 128 bytes. -/
def sha512Blocks : Nat → List Byte → List DWord → List DWord
  | 0, _, h => h
  | n + 1, m, h =>
    let w := (sha512Schedule 64 (bytesBE64 16 (m.take 128)).reverse).reverse
    let v := (sha512K.zip w).foldl sha512Round h
    sha512Blocks n (m.drop 128) ((h.zip v).map fun p => p.1 + p.2)

/-- SHA-512. -/
def sha512 (m : List Byte) : List Byte :=
  let k := (240 - (m.length + 1) % 128) % 128
  let p := m ++ 0x80 :: (List.replicate k 0 ++ beBytes 16 (8 * m.length))
  (sha512Blocks (p.length / 128) p sha512Init).flatMap fun w => beBytes 8 w.toNat

/-- One bit of the reflected CRC-32C (R326). -/
def crcBit (c : Word) : Word := if c.getLsbD 0 then (c >>> 1) ^^^ 0x82F63B78 else c >>> 1

/-- One byte of the reflected CRC-32C. -/
def crcByte (c : Word) (b : Byte) : Word :=
  let x := c ^^^ b.zeroExtend 32
  crcBit (crcBit (crcBit (crcBit (crcBit (crcBit (crcBit (crcBit x)))))))

/-- CRC-32C: Castagnoli polynomial 0x1EDC_6F41 reflected, initial value and final XOR 0xFFFF_FFFF (R326). -/
def crc32c (bs : List Byte) : Word := bs.foldl crcByte 0xFFFFFFFF ^^^ 0xFFFFFFFF

end Sys2Proof.Machine
end

