-- ==== Sys2Proof/Machine/Ident.lean ====
section
/-! DEFINITION. The device identity that the PUF secret yields (R435, R436). -/

namespace Sys2Proof.Machine

/-- The Ed25519 seed, the ML-DSA-65 seed ξ and the store key (R435). -/
def secretBytes : List Byte := leBytes 32 Config.pufSecret.toNat
def edSeed : List Byte := shake256 32 (ascii "DVK-ID-ED" ++ secretBytes)
def mlSeed : List Byte := shake256 32 (ascii "DVK-ID-MLDSA" ++ secretBytes)
def storeKey : List Byte := shake256 32 (ascii "DVK-STORE" ++ secretBytes)

/-- The public identity keys. -/
def deviceEd : List Byte := Config.edPublic edSeed
def deviceMl : List Byte := Config.mlPublic mlSeed

/-- The module serial number (R436): the first 8 bytes of SHA-512 over both public keys, little-endian. -/
def moduleSerial : Nat := leNat ((sha512 (deviceEd ++ deviceMl)).take 8)

/-- Both signatures of this device over a region with a context (R439). -/
def deviceSigs (ctx : String) (region : List Byte) : List Byte × List Byte :=
  let d := sha512 region
  (Config.edSign edSeed d, Config.mlSign mlSeed d (ascii ctx))

end Sys2Proof.Machine
end

