-- ==== Sys2Proof/Machine/BlkCore.lean ====
section
/-! DEFINITION. State of the cores and their engines (chapter 4): status words, step flags, the FIRST_INVALID latch, the window
page and the per-lane counters of free-running streams (R267). Tile elements and spool bytes are in State's memories. -/

namespace Sys2Proof.Machine

/-- STATE of a tile's status word (R141). -/
inductive TileState where
  | idle | accumulating | slub | draining
  deriving DecidableEq, Repr

/-- Bits [7:1] of a tile's status word (R141). -/
structure TileFlags where
  swWritten : Bool
  fault : Bool
  poison : Bool
  invalid : Bool
  inf : Bool
  ovf : Bool
  underflow : Bool
  deriving DecidableEq, Repr

def TileFlags.clear : TileFlags := ⟨false, false, false, false, false, false, false⟩

/-- A place and cause that FIRST_INVALID can latch (R129). -/
structure InvalidAt where
  cause : Nat
  eng : Bool
  layer : Nat
  phase : Phase
  tileRow : Nat
  elemRow : Nat
  tileCol : Nat
  elemCol : Nat
  /-- None: NO_CHUNK. -/
  chunk : Option Nat
  deriving DecidableEq, Repr

/-- One accumulator tile (R24, R141): its status word, the parts of work that have entered it, and the cores that ran a part of its
unit (R378). -/
structure AccTile where
  st : TileState
  flags : TileFlags
  parts : List TileWork
  ranBy : List CoreIx
  deriving DecidableEq, Repr

def AccTile.reset : AccTile := ⟨.idle, TileFlags.clear, [], []⟩

/-- The last part that entered a tile. -/
def AccTile.work (t : AccTile) : Option TileWork := t.parts.getLast?

/-- What a creel hand-over slot holds beside the 16,384 elements (R120): the status word and the work behind them. -/
structure SlotRt where
  ref : SlotRef
  flags : TileFlags
  parts : List TileWork
  ranBy : List CoreIx
  deriving DecidableEq, Repr

/-- Bytes of spools and creels that this job's work has brought there, as rising ranges (R183: what is resident), and the hand-over
slots in use. -/
structure ResBlk where
  spool : List (Nat × Nat)
  creel : List (Nat × Nat)
  slots : List SlotRt
  deriving DecidableEq, Repr

def ResBlk.reset : ResBlk := ⟨[], [], []⟩

/-- A lane of the free-running draws (R266): the stream of its present evaluation, its evaluations since the first F issue of the
execution, and the draws taken of the present one. -/
structure LaneRun where
  stream : Word
  evals : Nat
  taken : Nat
  deriving DecidableEq, Repr

def LaneRun.reset : LaneRun := ⟨0, 0, 8⟩

/-- One core's arithmetic state. -/
structure CoreState where
  pageRefused : Bool
  accessRefused : Bool
  page : Nat
  /-- SPD_STEP_FLAGS bits [6:1] (R142). -/
  stepFlags : TileFlags
  /-- The latched record and the low batch bits and replay mark that go with it; none: VALID is 0 (R129). -/
  firstInvalid : Option (InvalidAt × Bool × Word)
  /-- Events 0x1020 to 0x1023 already raised in this batch. -/
  raisedInvalid : Bool
  raisedInf : Bool
  raisedOvf : Bool
  raisedUnderflow : Bool
  e0t0 : AccTile
  e0t1 : AccTile
  e1t0 : AccTile
  e1t1 : AccTile
  /-- Lanes (0 to 63) that have drawn free-running in this execution (R266). -/
  lanes : List (Nat × LaneRun)
  /-- The descriptor queue of bank 47: the descriptors that the prefetcher has fetched ahead, at most 16 (R26, R290, R291's latency
  table). -/
  queue : List TileWork
  deriving DecidableEq, Repr

def CoreState.reset : CoreState :=
  { pageRefused := false, accessRefused := false, page := 0, stepFlags := TileFlags.clear, firstInvalid := none,
    raisedInvalid := false, raisedInf := false, raisedOvf := false, raisedUnderflow := false, e0t0 := AccTile.reset,
    e0t1 := AccTile.reset, e1t0 := AccTile.reset, e1t1 := AccTile.reset, lanes := [], queue := [] }

end Sys2Proof.Machine
end

