-- ==== Sys2Proof/Machine/BlkHost.lean ====
section
/-! DEFINITION. State of the host site: events and counters (R17, R371, R406, R461), the MSI-X table, the HUB_ registers of the
host link and the weft queues (chapter 11). Every field is plain data, with its value after a module reset in `….reset`. -/

namespace Sys2Proof.Machine

/-- The distaff's two reporting paths (R460, R461). -/
structure Paths where
  pldm : Bool
  redfish : Bool
  deriving DecidableEq, Repr

/-- One event (R16, R17): its 16-bit code, its payload items in order, the reference-timer value and the batch index, and the paths that
were up and took it (R461). -/
structure Event where
  code : Half
  payload : List Nat
  time : Nat
  batch : Nat
  sent : Paths
  deriving DecidableEq, Repr

/-- A saturating counter of R406 with its sticky SAT bit. -/
structure Ctr where
  n : Nat
  sat : Bool
  deriving DecidableEq, Repr

/-- A write of the device into host memory (ItoMWr, R347). -/
structure HostWrite where
  addr : Nat
  data : List Byte
  deriving DecidableEq, Repr

/-- A ring the device writes in host memory: the event ring (R371). SIZE_LOG2 zero names no size. -/
structure EvRing where
  baseLo : Word
  baseHi : Word
  enable : Bool
  evInt : Bool
  sizeLog2 : Nat
  tail : Nat
  head : Nat
  /-- Records written since the ring was enabled: its pass gives PHASE (R359, R371). -/
  written : Nat
  deriving DecidableEq, Repr

def EvRing.reset : EvRing := ⟨0, 0, false, false, 0, 0, 0, 0⟩

/-- The MSI-X table of four entries of four words, the pending bits and the messages sent (R350, R370). -/
structure Msix where
  table : List Word
  pending : List Bool
  /-- Vectors signalled, newest first. -/
  sent : List Nat
  deriving DecidableEq, Repr

def Msix.reset : Msix := ⟨List.replicate 16 0, List.replicate 4 false, []⟩

/-- Telemetry: what an event or a counter can change. -/
structure TelBlk where
  /-- The last 8,192 events, newest first (R461). -/
  mem : List Event
  /-- The flash ring of the last 65,536 events, newest first; kept over a reset (R461). -/
  flash : List Event
  /-- Every counter of R406 under the BAR0 offset of its low register; an absent one is zero. -/
  ctrs : List (Nat × Ctr)
  ring : EvRing
  msix : Msix
  /-- What the device has written to host memory, newest first. -/
  hostWrites : List HostWrite
  deriving DecidableEq, Repr

def TelBlk.reset : TelBlk := ⟨[], [], [], EvRing.reset, Msix.reset, []⟩

/-- The two timers that run by themselves (R41): the 100 MHz reference timer, and arithmetic cycles scaled by 100,000 (each
reference tick adds the arithmetic clock in kHz, so the quotient by 100,000 counts cycles). -/
structure ClkBlk where
  refTimer : Nat
  arithScaled : Nat
  deriving DecidableEq, Repr

def ClkBlk.reset : ClkBlk := ⟨0, 0⟩

/-- The result of the last host read, as the bus returns it: the value and, for CXL.mem, whether it is marked poisoned. -/
structure BusData where
  data : List Byte
  poisoned : Bool
  deriving DecidableEq, Repr

/-- A reply of the distaff on the management interface (R417, R458, R459). Fixed texts of the SPDM standard stand as their
constructor; what the spec gives stands in its arguments. -/
inductive MgmtReply where
  | notReady
  | capResult (cause : Nat)
  | version
  | capabilities (ctExponent : Nat)
  | algorithms (asym hash dhe aead : String)
  | digests (d : List Byte)
  | certificate (part : List Byte)
  | challengeAuth (digest signature : List Byte)
  | measurements (block signature : List Byte)
  | keyExchange (exchange signature : List Byte)
  | finish (ok : Bool)
  | heartbeat
  | endSession
  | unsupported
  | report (bytes : List Byte)
  | pqCert (part : List Byte)
  | quarantineMap (map : List Byte) (generation : Nat)
  | ownerStatus (cause : Nat)
  deriving DecidableEq, Repr

/-- What leaves the device other than events and host-memory writes. -/
structure OutBlk where
  lastRead : Option BusData
  /-- Replies of the distaff, newest first. -/
  mgmt : List MgmtReply
  /-- What the selected test data register shifts out (R476), bit 0 first. -/
  tdo : List Bool
  /-- Snoops answered as a miss (R346). -/
  snoopMisses : Nat
  deriving DecidableEq, Repr

def OutBlk.reset : OutBlk := ⟨none, [], [], 0⟩

/-- The configuration space of the one function (R346, R350), and its HDM decoder (R353). -/
structure CfgBlk where
  vendorId : BitVec 16
  deviceId : BitVec 16
  classCode : BitVec 24
  /-- CXL Device DVSEC. -/
  cacheCapable : Bool
  memCapable : Bool
  hdmCount : Nat
  /-- BAR0: its size, its width in bits and its type; no other BAR is implemented. -/
  bar0Bytes : Nat
  bar0Bits : Nat
  bar0Prefetchable : Bool
  /-- MSI-X capability: vectors, and the places of the table and the pending-bit array in BAR0. -/
  msixVectors : Nat
  msixTable : Nat
  msixPending : Nat
  aer : Bool
  /-- The HDM decoder as the host driver programs it: base, size, interleave ways. -/
  hdmBase : Nat
  hdmBytes : Nat
  hdmWays : Nat
  deriving DecidableEq, Repr

def CfgBlk.reset : CfgBlk :=
  { vendorId := Config.pciVendor, deviceId := 0xD4A1, classCode := 0x120000, cacheCapable := true, memCapable := true, hdmCount := 1,
    bar0Bytes := 2 ^ 28, bar0Bits := 64, bar0Prefetchable := false, msixVectors := 4, msixTable := 0x80, msixPending := 0xC0, aer := true,
    hdmBase := 0, hdmBytes := 0, hdmWays := 1 }

/-- HUB_ registers of the host link (R372) and the latched copies of every SNAP register (R406). -/
structure HubBlk where
  /-- The UCIe link carries flits (HOST_LINK_UP). -/
  linkUp : Bool
  lanesRepaired : BitVec 4
  modulesTrained : BitVec 4
  l1 : Bool
  retraining : Bool
  flitMode : Bool
  bootScratch : Word
  /-- Latched copies: BAR0 offset and value; an offset not listed reads its reset value. -/
  latched : List (Nat × Word)
  cfg : CfgBlk
  deriving DecidableEq, Repr

def HubBlk.reset : HubBlk := ⟨false, 0, 0, false, false, false, 0, [], CfgBlk.reset⟩

/-- The link is down: what its training gave is gone. -/
def HubBlk.down (h : HubBlk) : HubBlk :=
  { h with linkUp := false, lanesRepaired := 0, modulesTrained := 0, l1 := false, retraining := false, flitMode := false }

/-- The STATE field of WEFT_QUEUE_STATUS. -/
inductive QState where
  | disabled | enabled | error
  deriving DecidableEq, Repr

/-- A descriptor in the device: its slot, the PHASE its completion will carry, and its 32 words (R358, R359, R361). -/
structure Desc where
  slot : Nat
  phase : Bool
  words : List Word
  deriving DecidableEq, Repr

/-- One weft queue (R356 to R360, R373). -/
structure Queue where
  enable : Bool
  sizeLog2 : Nat
  st : QState
  cause : Nat
  errorSeen : Bool
  baseLo : Word
  baseHi : Word
  complLo : Word
  complHi : Word
  tail : Nat
  head : Nat
  complHead : Nat
  /-- Descriptors consumed and completion slots released since the queue was enabled (R358). -/
  consumed : Nat
  released : Nat
  /-- Descriptors copied into the device and not started, oldest first. -/
  fetched : List Desc
  /-- The descriptor that has started and not completed. -/
  running : Option Desc
  /-- Bytes that a running copy has moved (R348, R367). -/
  moved : Nat
  /-- The 0x5025 of the present wait has been raised (R360). -/
  blockedRaised : Bool
  deriving DecidableEq, Repr

def Queue.reset : Queue :=
  ⟨false, 0, .disabled, 0, false, 0, 0, 0, 0, 0, 0, 0, 0, 0, [], none, 0, false⟩

/-- The WEFT_ block. -/
structure WeftBlk where
  q0 : Queue
  q1 : Queue
  deriving DecidableEq, Repr

def WeftBlk.reset : WeftBlk := ⟨Queue.reset, Queue.reset⟩

end Sys2Proof.Machine
end

