-- ==== Sys2Proof/Machine/BlkLink.lean ====
section
/-! DEFINITION. State of the roving ports (chapter 10) and of the skein bases with their shuttle arbiters (chapter 9). -/

namespace Sys2Proof.Machine

/-- Port states (R321). -/
inductive PState where
  | deaf | disabled | training | up | joined | retraining | down
  deriving DecidableEq, Repr

/-- What a partner's HELLO said (R323). -/
structure HelloInfo where
  tagLo : Word
  tagHi : Word
  rank : Nat
  role : Nat
  parallel : Nat
  port : Nat
  deviceCount : Nat
  serial : Nat
  resume : Bool
  nextSeq : Nat
  deriving DecidableEq, Repr

/-- A frame that waits for a SEQ. One that is relayed came by the port `via`, and its credits go back when it is sent on (R327). -/
structure Queued where
  frame : Frame
  via : Option PortIx
  deriving DecidableEq, Repr

/-- One roving port. -/
structure Port where
  st : PState
  lanes : BitVec 8
  partnerNotReady : Bool
  partnerRank : Nat
  rtt : Word
  /-- Transmitter: next SEQ, frames sent and not acknowledged (oldest first), resends in a row of the oldest. -/
  txSeq : Nat
  retry : List Frame
  resends : Nat
  /-- Receiver: next SEQ expected; a NAK is outstanding. -/
  rxSeq : Nat
  nakSent : Bool
  /-- Frames waiting for a SEQ, per channel; reel restarts ahead of VC1 (R328). -/
  q0 : List Queued
  qRescale : List Queued
  q1 : List Queued
  q2 : List Queued
  q3 : List Queued
  /-- Which of VC1 to VC3 (0 to 2) has its turn (R328). -/
  turn : Fin 3
  /-- Credits held for transmission, per VC (R327). -/
  c0 : Nat
  c1 : Nat
  c2 : Nat
  c3 : Nat
  /-- Blocks to return in the next LINK_CTRL, per VC. -/
  r0 : Nat
  r1 : Nat
  r2 : Nat
  r3 : Nat
  /-- Frames refused with NOT_READY, while their back-off runs (R322). -/
  refused : List Frame
  /-- The sequence state is that of a link that was JOINED: HELLO carries RESUME (R323, R324). -/
  resume : Bool
  /-- Reference tick at which the present physical training attempt started (R343). -/
  attemptTick : Nat
  alignRx : Option Word
  alignTx : Word
  hello : Option HelloInfo
  /-- Ticks of recent uncorrectable codewords (event 0x4012). -/
  uncTicks : List Nat
  /-- Frames sent on the line, newest first. -/
  wire : List Frame
  deriving DecidableEq, Repr

/-- A deaf port after module reset (R321), with the full credits of R327. -/
def Port.reset : Port :=
  { st := .deaf, lanes := 0, partnerNotReady := false, partnerRank := 0, rtt := 0, txSeq := 0, retry := [], resends := 0,
    rxSeq := 0, nakSent := false, q0 := [], qRescale := [], q1 := [], q2 := [], q3 := [], turn := 0, c0 := 0, c1 := 0, c2 := 0,
    c3 := 0, r0 := 0, r1 := 0, r2 := 0, r3 := 0, refused := [], resume := false, attemptTick := 0, alignRx := none, alignTx := 0, hello := none,
    uncTicks := [], wire := [] }

/-- The roving block: the nine ports, the PORT_DISABLE mask, and the frames held under R332, oldest first. -/
structure RovBlk where
  ports : Vector Port 9
  disable : BitVec 9
  held : List Rx
  deriving DecidableEq, Repr

def RovBlk.reset : RovBlk := ⟨Vector.replicate 9 Port.reset, 0, []⟩

/-- One shuttle arbiter (R295 to R299). -/
structure Arbiter where
  credits : Vector Nat 5
  losses : Vector Nat 5
  backoff : Vector Bool 5
  owner : Option ClassIx
  /-- Beats of the present grant that have been charged. -/
  granted : Nat
  deriving DecidableEq, Repr

def Arbiter.reset : Arbiter := ⟨Vector.replicate 5 0, Vector.replicate 5 0, Vector.replicate 5 false, none, 0⟩

/-- One skein base (R37, R309). -/
structure Stack where
  trained : Bool
  firmwareOk : Bool
  stateLost : Bool
  scrubActive : Bool
  scrubPasses : Nat
  scrubProgress : Nat
  selClass : Nat
  selChannel : Nat
  lastAddr : Nat
  lastInfo : Word
  /-- Longest wait per channel and class (index channel × 5 + class). -/
  waitMax : Vector Nat 160
  /-- Outstanding read granules and their high water (R292). -/
  outstanding : Nat
  highWater : Nat
  /-- Ticks of recent corrected words (event 0x2401), newest first. -/
  corrTicks : List Nat
  /-- Beats granted per channel and class, not yet 1,024 (SKN_SHUTTLE_BEATS counts units of 1,024). -/
  beatRest : Vector Nat 160
  /-- Event 0x7201 has been raised in this batch (R300). -/
  starved : Bool
  channels : Vector Arbiter 32
  deriving DecidableEq, Repr

def Stack.reset : Stack :=
  { trained := false, firmwareOk := false, stateLost := false, scrubActive := false, scrubPasses := 0, scrubProgress := 0,
    selClass := 0, selChannel := 0, lastAddr := 0, lastInfo := 0, waitMax := Vector.replicate 160 0, outstanding := 0, highWater := 0,
    corrTicks := [], beatRest := Vector.replicate 160 0, starved := false, channels := Vector.replicate 32 Arbiter.reset }

/-- A request to a skein base: class, whether the loader sends it, address, what is asked, and what protection finds (R284). -/
structure SkeinReq where
  cls : Nat
  byLoader : Bool
  addr : Nat
  op : SkeinOp
  /-- How the words it reads decode, in order; beyond the list: good. -/
  ecc : List Ecc
  parity : Option (Fin 8)
  deriving DecidableEq, Repr

structure SknBlk where
  stk : Vector Stack 8
  /-- Ticks of recent corrected SRAM words per cluster (event 0x2401), newest first. -/
  sram : List (Nat × List Nat)
  /-- Words whose check bits are bad: uncorrectable until they are written (R302, R308). -/
  bad : List Nat
  /-- Reads that wait for a free granule of a stack, oldest first (R292). -/
  waiting : List SkeinReq
  deriving DecidableEq, Repr

def SknBlk.reset : SknBlk := ⟨Vector.replicate 8 Stack.reset, [], [], []⟩

end Sys2Proof.Machine
end

