-- ==== Sys2Proof/Machine/BlkPower.lean ====
section
/-! DEFINITION. State of the input stage, the pins, bring-up and the test access port (chapter 15), and of the treadle
(chapter 13). -/

namespace Sys2Proof.Machine

/-- Where bring-up stands (R464): no rails; held in reset with rails up or not yet raised; rails and ROM; then each stage that
has completed. -/
inductive Bring where
  /-- Turned off by the input stage, or no qualified input yet. -/
  | off
  /-- In module reset, waiting for time zero. -/
  | held
  /-- From time zero: the rails rise, the ROM and the root PLL start. -/
  | rails
  | distaff
  | flyer
  | skeinBase
  /-- SKEIN_TRAINED; the self-test runs (or is held under the emergency cap). -/
  | selfTest
  /-- Skein training failed: READY withheld. -/
  | noSkein
  | ready
  deriving DecidableEq, Repr

/-- The reference clock as the flyer sees it (R471). -/
inductive Refclk where
  | good | holdover | lost
  deriving DecidableEq, Repr

/-- The input stage controller's own non-volatile store (R470, R482). -/
structure InputStage where
  /-- Cause to report at the next boot, and cause and boots of this boot. -/
  nextCause : Nat
  cause : Nat
  boots : Nat
  deriving DecidableEq, Repr

/-- The module: pins, bring-up and clocks. -/
structure ModBlk where
  bring : Bring
  /-- MODULE_RESET_N is qualified as asserted (R473, R478). -/
  resetAsserted : Bool
  input : InputStage
  /-- Recovery (R443); FAULT_N is asserted for as long as it holds. -/
  recovery : Bool
  /-- Other holders of FAULT_N (R473): rail fault, READY withheld by R450 or R464, a failed signature test, R471. -/
  railFault : Bool
  mapFault : Bool
  trainFault : Bool
  signFault : Bool
  refFault : Bool
  /-- Reference-timer tick of time zero, and the two figures of HUB_BRINGUP_MS. -/
  zeroTick : Nat
  readyMs : Nat
  attestMs : Nat
  /-- Die numbers learnt from the package straps, per spindle die (R22), and SLOT_ID (R473). -/
  dieStraps : List (Fin 4)
  slot : BitVec 5
  /-- Cores that the self-test of this boot has quarantined (R483). -/
  selfTestQuar : Nat
  /-- The SGMII port is enabled (R464). -/
  sgmii : Bool
  /-- Event 0x4043 has been raised at this boot (R464). -/
  linkLateRaised : Bool
  refclk : Refclk
  /-- The external SPI path is connected to the flash (R475). -/
  spiExternal : Bool
  /-- An SPI_EXT_EN_N low that was ignored before the distaff ran: raised when it starts (R475). -/
  spiIgnoredEarly : Bool
  /-- Qualified emergency assertions before distaff firmware ran, raised when it starts (chapter 15). -/
  emEarly : List EmSource
  deriving DecidableEq, Repr

/-- The test access port (R476): the selected instruction, the preloaded boundary register and what it drives. -/
inductive TapInstr where
  | idcode | bypass | samplePreload | extest | clamp | highz | extestPulse | extestTrain
  deriving DecidableEq, Repr

structure JtagBlk where
  ir : TapInstr
  boundary : List Bool
  deriving DecidableEq, Repr

/-- IEEE 1149.1 selects IDCODE at test-logic reset. -/
def JtagBlk.reset : JtagBlk := ⟨.idcode, []⟩

/-- The I3C target (R474, R478): static address from SLOT_ID, dynamic address once assigned. -/
structure I3cBlk where
  enabled : Bool
  dynAddr : Option (BitVec 7)
  deriving DecidableEq, Repr

def I3cBlk.reset : I3cBlk := ⟨false, none⟩

/-- The ladder (R411). -/
inductive Ladder where
  | t0 | t1 | t2 | t3 | t4
  deriving DecidableEq, Repr

/-- Who asserts the emergency cap (R421). -/
structure Emergency where
  pin : Bool
  command : Bool
  thermal : Bool
  inputLow : Bool
  deriving DecidableEq, Repr

/-- The treadle. -/
structure TrdBlk where
  ladder : Ladder
  freeDraftEn : Bool
  target : Nat
  hostCap : Nat
  mgmtCap : Nat
  sensorCap : Option Nat
  /-- The effective cap in force: an accepted value enters it at the next control interval (R415, R417). -/
  inForce : Nat
  em : Emergency
  /-- The emergency cap has been qualified and units are still stopping (R422). -/
  stopping : Bool
  measGoverns : Bool
  deadlineVoid : Bool
  atFloor : Bool
  capRefused : Bool
  refuseCause : Nat
  tripped : Bool
  /-- Reading pairs (estimate, measurement) in watts of the last 100 intervals, newest first: 1 ms (R419). -/
  readings : List (Nat × Nat)
  /-- Consecutive intervals up to the last with a disagreement above 15 %, above 40 %, and at or below 5 % (R420). -/
  over15 : Nat
  over40 : Nat
  within5 : Nat
  /-- Paired readings of the recalibration that runs, oldest first (10 ms), and the coefficients that the last one found; none: those of
the trim record (R420). -/
  pairs : Option (List (Nat × Nat))
  coeff : Option Nat
  /-- n of R414, and the accumulator every engine, whorl and twist unit holds: all start at 0 and see the same n. -/
  issueN : Nat
  issueAcc : Nat
  /-- The ramp of R423 after an exit from T1 is running. -/
  ramp : Bool
  /-- The root PLL in kHz (R39, R425) and the consecutive intervals with 5 % room. -/
  rootKhz : Nat
  /-- The rail voltage, as the root frequency in kHz that it stands for (R425): at 4.2 GHz the even-draft voltage. -/
  railKhz : Nat
  roomIntervals : Nat
  batchKhz : Nat
  /-- Active droop reserve in tenths of a per cent (R428) and the calibration in force (R430); the pending ones stand in the
  newest trim record of module flash. -/
  activeReserve : Nat
  calib : Nat
  /-- Hottest sensor reported and its reading in quarter degrees. -/
  hotSensor : Sensor
  hotQuarter : Nat
  /-- TRD_ENERGY in tens of microjoules (64 bits of millijoules wrap, R431). -/
  energy10uJ : Nat
  throttled : Nat
  /-- Reference tick of entry into the present ladder state. -/
  sinceTick : Nat
  /-- The emergency cap was asserted at some time during the running batch (R424). -/
  emDuringStep : Bool
  /-- DEADLINE_VOID was set at some time during the running batch (R418). -/
  voidDuringStep : Bool
  /-- A hardware trip has lost an execution: the exit from T3 enters HALTED (R427). -/
  lostStep : Bool
  deriving DecidableEq, Repr

def TrdBlk.reset : TrdBlk :=
  { ladder := .t0, freeDraftEn := false, target := 0, hostCap := 2600, mgmtCap := 2600, sensorCap := none, inForce := 2600,
    em := ⟨false, false, false, false⟩, stopping := false, measGoverns := false, deadlineVoid := false, atFloor := false,
    capRefused := false, refuseCause := 0, tripped := false, readings := [], over15 := 0, over40 := 0, within5 := 0, pairs := none, coeff := none,
     issueN := 256, issueAcc := 0, ramp := false,
    rootKhz := 4200000, railKhz := 4200000, roomIntervals := 0, batchKhz := 0, activeReserve := 80, calib := 0,
    hotSensor := .spindle 0 0, hotQuarter := 0, energy10uJ := 0, throttled := 0, sinceTick := 0,
    emDuringStep := false, voidDuringStep := false, lostStep := false }

end Sys2Proof.Machine
end

