-- ==== Sys2Proof/Machine/BlkReel.lean ====
section
/-! DEFINITION. State of the reel and of the update engines (chapter 7): one record per hank, one per shard this device owns,
one per low-rank layer, the parameter receivers and the leaves of chapter 14. -/

namespace Sys2Proof.Machine

/-- STATE of REEL_HANK_STATE (R255); an unknown tag has no record. -/
inductive HankSt where
  | idle | awaitScale | first | second | delivered | nonfinite | abandoned
  deriving DecidableEq, Repr

/-- A retained contribution (R223): execution, tile, group. Its 16,384 binary32 sources stand in the retention region of the skein. -/
structure Contribution where
  exec : Nat
  tile : Nat
  group : Nat
  deriving DecidableEq, Repr

/-- A wire value: an integer in units of the wire LSB, or none for the non-finite marker (R103, R226). -/
abbrev WireVal := Option Int

/-- One operand that has arrived for a segment: who sent it, whether a contribution in it was clipped, and its values. -/
structure Operand where
  source : Nat
  clipped : Bool
  contributors : Nat
  vals : List WireVal
  deriving DecidableEq, Repr

/-- The adder of one segment of one path (R224): operands so far, and whether it has been forwarded or delivered. -/
structure Adder where
  second : Bool
  tile : Nat
  segment : Nat
  operands : List Operand
  done : Bool
  deriving DecidableEq, Repr

/-- A delivered segment at the owner: values of the sum (R224, R241). -/
structure Delivered where
  second : Bool
  tile : Nat
  segment : Nat
  vals : List WireVal
  deriving DecidableEq, Repr

/-- One hank on this device. -/
structure HankRt where
  tag : Nat
  /-- ρ for the current batch (R227), and whether the agreed ρ is held (R228). -/
  rho : Int
  agreed : Bool
  hs : Int
  attempt : Nat
  st : HankSt
  sampled : Bool
  clippedSeen : Bool
  clipRaised : Bool
  contribs : List Contribution
  adders : List Adder
  delivered : List Delivered
  finalMax : Nat
  /-- Owner: attempts for which a RESCALE has been accepted (R233). -/
  rescaled : List Nat
  /-- Segments of a higher attempt, held (R235). -/
  held : List Rx
  /-- Proposals gathered for the next batch: source and ρ (R228). -/
  proposals : List (Nat × Int)
  /-- Two-path comparison made (R241). -/
  compared : Bool
  /-- A saturation has been found in the current attempt and no RESCALE has gone out for it yet; attempts for which this device has
  asked (R232, R233). -/
  sat : Bool
  asked : List Nat
  /-- A marker has come to this device, or this device has made one (R226). -/
  marker : Bool
  deriving DecidableEq, Repr

/-- One shard this device owns (R218, R288). Its master and shadow buffers, with their state headers and the buffer selector, stand in
skein (R204, R249). -/
structure Shard where
  tag : Nat
  shadowReady : Bool
  abandoned : Bool
  shadowLeaf : List Byte
  leaf : List Byte
  /-- ΣΔ² and Σw_old² of the last update, binary64 (R172). -/
  d2 : Nat
  w2 : Nat
  deriving DecidableEq, Repr

/-- Low-rank state of one layer (R242 to R244): Q in force, P as delivered, P̂, and the reduced Q for the next batch, all row-major;
the tiles and segments of P and of Q′ that have come in this batch; P is whole, so that P̂ is this batch's. -/
structure LowRankRt where
  layer : Nat
  q : List Word
  p : List Word
  phat : List Word
  qNext : List Word
  gotP : List (Nat × Nat)
  gotQ : List (Nat × Nat)
  pDone : Bool
  deriving DecidableEq, Repr

/-- The receiver of one shard's parameters in P (R250, R251). -/
structure ParamRt where
  tag : Nat
  bytes : List Byte
  /-- PARAM_END has come and agreed. -/
  ended : Bool
  /-- A first segment has come and PARAM_END is awaited (R254). -/
  waiting : Bool
  deriving DecidableEq, Repr

/-- A leaf of some step (R452). -/
structure LeafAt where
  step : Nat
  tag : Nat
  leaf : List Byte
  deriving DecidableEq, Repr

/-- A key or value block being received (R213, R342). -/
structure KvBlockRt where
  part : Nat
  layer : Nat
  shard : Nat
  block : Nat
  ringStep : Nat
  /-- Bytes received: offset and content. -/
  pieces : List (Nat × List Byte)
  delivered : Bool
  deriving DecidableEq, Repr

structure ReelBlk where
  sel : Nat
  hanks : List HankRt
  shards : List Shard
  lowRank : List LowRankRt
  params : List ParamRt
  /-- Leaves held of steps whose pair is not yet formed, and this device's own recent leaves. -/
  leaves : List LeafAt
  own : List LeafAt
  /-- The step whose pair is formed next, and the leaves (step, tag) this device has asked for (R452, R453). -/
  leafStep : Nat
  leafAsked : List (Nat × Nat)
  /-- Leaves that have been passed on along their route (R452). -/
  leafPassed : List (Nat × Nat)
  kv : List KvBlockRt
  /-- Initialisation under R270 has run for this job, or a restore has taken its place. -/
  initialised : Bool
  deriving DecidableEq, Repr

def ReelBlk.reset : ReelBlk :=
  { sel := 0, hanks := [], shards := [], lowRank := [], params := [], leaves := [], own := [], leafStep := 0, leafAsked := [], leafPassed := [],
    kv := [],
    initialised := false }

end Sys2Proof.Machine
end

