-- ==== Sys2Proof/Machine/BlkSec.lean ====
section
/-! DEFINITION. State of the security block and the distaff's flash (chapter 14): what survives a reset in `SecFlash`, what a boot
forms in `SecBlk`, and the SPDM responder. -/

namespace Sys2Proof.Machine

/-- The two slots of one firmware stage (R443): images, which slot was last activated and which one the stage last booted from (true:
B), and whether an update waits for the next boot to become active (R444). -/
structure FwSlots where
  a : List Byte
  b : List Byte
  activeB : Bool
  bootedB : Bool
  staged : Bool
  deriving DecidableEq, Repr

/-- The owner of R446. -/
structure Owner where
  ed : List Byte
  ml : List Byte
  sequence : Nat
  deriving DecidableEq, Repr

/-- An enrolled warp-signing key pair (R447). -/
structure WarpKey where
  id : Word
  ed : List Byte
  ml : List Byte
  deriving DecidableEq, Repr

/-- A device-signed record (R449): its header (1 quarantine map, 2 trim record, 3 key store; module serial; generation), its body, and the
signature pair of its DVK-REC block. -/
structure DevRec where
  kind : Nat
  serial : Nat
  generation : Nat
  body : List Byte
  ed : List Byte
  ml : List Byte
  deriving DecidableEq, Repr

/-- What is signed of a record of a kind and generation of this or another module. -/
def recRegion (kind serial generation : Nat) (body : List Byte) : List Byte :=
  Config.signedBytes 5 [leBytes 4 kind, leBytes 8 serial, leBytes 4 generation, body]

/-- A record that this module writes. -/
def DevRec.make (kind generation : Nat) (body : List Byte) : DevRec :=
  let g := deviceSigs "DVK-REC" (recRegion kind moduleSerial generation body)
  ⟨kind, moduleSerial, generation, body, g.1, g.2⟩

/-- Module flash with its replay-protected region (R443 to R450): kept over every reset. What the records in force say stands beside them
as plain fields; `…Gen` is the replay-protected counter of each type, the current generation. -/
structure SecFlash where
  /-- PUF helper data (R435), and the two certificate chains in DER (R437). -/
  pufHelper : List Byte
  edChain : List Byte
  mlChain : List Byte
  /-- The replay-protected region's monotonic counter, and the tag of the message that wrote it last (R445). -/
  rpCounter : Nat
  rpTag : List Byte
  distaffFw : FwSlots
  flyerFw : FwSlots
  skeinFw : FwSlots
  /-- Floors of distaff, flyer, skein base and warp (R445). -/
  floorDistaff : Nat
  floorFlyer : Nat
  floorSkein : Nat
  floorWarp : Nat
  /-- Revocation list: sequence and the identifiers it names (R438). -/
  rvkSeq : Nat
  rvkNames : List Word
  owner : Option Owner
  /-- The owner command counter (R447). -/
  cmdCounter : Nat
  warpKeys : List WarpKey
  revokedKeys : List Word
  sealKeys : List (Word × BitVec 256)
  /-- The quarantine map (R390): one bit per core, and its two copies (R450). -/
  map : BitVec 576
  mapGen : Nat
  mapA : Option DevRec
  mapB : Option DevRec
  /-- The newest trim record, and what it holds (R429): reserve in tenths of a per cent, and its calibration. -/
  trimGen : Nat
  trimRec : Option DevRec
  trimReserve : Nat
  trimCalib : Nat
  /-- The key store's record: the enrolled keys and revoked identifiers above, encrypted (R448). -/
  storeGen : Nat
  storeRec : Option DevRec
  deriving DecidableEq, Repr

-- Records and the replay-protected region.

def mapBody (m : BitVec 576) : List Byte := leBytes 72 m.toNat
def trimBody (reserve calib : Nat) : List Byte := Config.signedBytes 7 [leBytes 4 reserve, leBytes 4 calib]

/-- The key store as it is encrypted under the store key (R435, R448). -/
def storeBody (generation : Nat) (warpKeys : List WarpKey) (revoked : List Word) (sealKeys : List (Word × BitVec 256)) : List Byte :=
  Config.gcmSeal storeKey (Config.storeIv generation) (leBytes 4 3 ++ leBytes 8 moduleSerial ++ leBytes 4 generation) <|
    Config.signedBytes 6 <| (warpKeys.flatMap fun k => [leBytes 4 k.id.toNat, k.ed, k.ml]) ++ (revoked.map fun i => leBytes 4 i.toNat) ++
      sealKeys.flatMap fun k => [leBytes 4 k.1.toNat, leBytes 32 k.2.toNat]

/-- What the replay-protected region holds: floors, the command counter, the generation of each type of record (R445, R447, R449). -/
def SecFlash.region (f : SecFlash) : List Byte :=
  Config.signedBytes 8 <| [f.floorDistaff, f.floorFlyer, f.floorSkein, f.floorWarp, f.cmdCounter, f.mapGen, f.trimGen, f.storeGen].map (leBytes 4)

/-- The replay-protected region is written: one authenticated message, with the counter one higher (R445). -/
def SecFlash.protect (f : SecFlash) : SecFlash :=
  { f with rpCounter := f.rpCounter + 1, rpTag := Config.replayTag (f.rpCounter + 1) f.region }

/-- Write the next generation of the quarantine map in both copies (R450), of the trim record (R429), of the key store (R448). -/
def SecFlash.putMap (m : BitVec 576) (f : SecFlash) : SecFlash :=
  let r := some (DevRec.make 1 (f.mapGen + 1) (mapBody m))
  SecFlash.protect { f with map := m, mapGen := f.mapGen + 1, mapA := r, mapB := r }
def SecFlash.putTrim (reserve calib : Nat) (f : SecFlash) : SecFlash :=
  SecFlash.protect { f with trimGen := f.trimGen + 1, trimRec := some (DevRec.make 2 (f.trimGen + 1) (trimBody reserve calib)),
                            trimReserve := reserve, trimCalib := calib }
def SecFlash.putStore (f : SecFlash) : SecFlash :=
  SecFlash.protect { f with storeGen := f.storeGen + 1
                            storeRec := some (DevRec.make 3 (f.storeGen + 1) (storeBody (f.storeGen + 1) f.warpKeys f.revokedKeys f.sealKeys)) }

/-- Factory contents: helper data, certificates, the factory firmware in both slots, floors and counters zero, the owner of the delivery
voucher (R446), empty signed records (R450). -/
def SecFlash.factory : SecFlash :=
  { pufHelper := Config.pufHelper, edChain := Config.edChain, mlChain := Config.mlChain, rpCounter := 0, rpTag := []
    distaffFw := ⟨Config.factoryFirmware 0, Config.factoryFirmware 0, false, false, false⟩
    flyerFw := ⟨Config.factoryFirmware 1, Config.factoryFirmware 1, false, false, false⟩
    skeinFw := ⟨Config.factoryFirmware 2, Config.factoryFirmware 2, false, false, false⟩
    floorDistaff := 0, floorFlyer := 0, floorSkein := 0, floorWarp := 0, rvkSeq := 0, rvkNames := []
    owner := some ⟨Config.factoryOwner.1, Config.factoryOwner.2.1, Config.factoryOwner.2.2⟩
    cmdCounter := 0, warpKeys := [], revokedKeys := [], sealKeys := [], map := 0, mapGen := 0,
    mapA := some (DevRec.make 1 0 (mapBody 0)), mapB := some (DevRec.make 1 0 (mapBody 0))
    trimGen := 0, trimRec := some (DevRec.make 2 0 (trimBody 80 0)), trimReserve := 80, trimCalib := 0
    storeGen := 0, storeRec := some (DevRec.make 3 0 (storeBody 0 [] [] [])) }

/-- The SPDM responder: what has been negotiated, and the secured session (R458, R459). -/
structure SpdmBlk where
  version : Bool
  capabilities : Bool
  algorithms : Bool
  /-- KEY_EXCHANGE done, FINISH outstanding. -/
  handshake : Bool
  session : Bool
  deriving DecidableEq, Repr

def SpdmBlk.reset : SpdmBlk := ⟨false, false, false, false, false⟩

/-- The security block. -/
structure SecBlk where
  /-- BOOT_STAGE of SEC_STATUS. -/
  bootStage : Nat
  identityOk : Bool
  attestReady : Bool
  mapOk : Bool
  slotFallback : Bool
  /-- Measurements of distaff, flyer and skein base firmware; empty: not measured at this boot (R441). -/
  measDistaff : List Byte
  measFlyer : List Byte
  measSkein : List Byte
  /-- SECURITY_VERSION of the images that run (R445), and the flyer's RELEASE (R442). -/
  verDistaff : Nat
  verFlyer : Nat
  verSkein : Nat
  flyerRelease : Word
  /-- The pair of R452: step index and ply digest. -/
  pairStep : Nat
  pairDigest : List Byte
  /-- SEC_REPORT_ and SEC_MEAS_SEL registers. -/
  nonce : List Word
  addrLo : Word
  addrHi : Word
  done : Bool
  refused : Bool
  /-- A host report in progress: where it goes and its bytes (R456, R462). -/
  reporting : Option (Nat × List Byte)
  measSel : Nat
  /-- Bits of SKEIN_TRAINED, FIRMWARE_OK for HUB_READY_STATUS are those of bring-up. -/
  selfTestSignOk : Bool
  deriving DecidableEq, Repr

def SecBlk.reset : SecBlk :=
  { bootStage := 0, identityOk := false, attestReady := false, mapOk := false, slotFallback := false, measDistaff := [],
    measFlyer := [], measSkein := [], verDistaff := 0, verFlyer := 0, verSkein := 0, flyerRelease := 0, pairStep := 0,
    pairDigest := [], nonce := List.replicate 8 0, addrLo := 0, addrHi := 0, done := false, refused := false, reporting := none, measSel := 0,
    selfTestSignOk := false }

end Sys2Proof.Machine
end

