-- ==== Sys2Proof/Machine/BlkStep.lean ====
section
/-! DEFINITION. State of the step controller, the numeric controller, the bobbin, the commit unit and the integrity logic
(chapters 5, 6, 10 and 12). -/

namespace Sys2Proof.Machine

/-- Start and end of one phase, in arithmetic cycles from the first F issue (R181); none: not yet. -/
structure Span where
  start : Option Nat
  stop : Option Nat
  deriving DecidableEq, Repr

/-- The six phases of one batch. -/
structure Phases where
  f : Span
  b : Span
  g : Span
  u : Span
  c : Span
  p : Span
  deriving DecidableEq, Repr

def Phases.none : Phases :=
  let unused : Span := { start := .none, stop := .none }
  { f := unused, b := unused, g := unused, u := unused, c := unused, p := unused }

/-- An entry of an accepted sequence table (R361). -/
structure SeqEntry where
  seq : Nat
  length : Nat
  offset : Nat
  deriving DecidableEq, Repr

/-- An accepted STEP descriptor (R179, R364). -/
structure StepDesc where
  batch : Nat
  seqs : List SeqEntry
  /-- Which half of the token-data region holds the batch (R364). -/
  half : Bool
  settledReq : Bool
  deriving DecidableEq, Repr

/-- The loss of one micro-batch (R198). -/
structure MbLoss where
  microBatch : Nat
  sum : Word
  tokens : Nat
  deriving DecidableEq, Repr

/-- A ready tile that has waited 65,536 cycles (R184). -/
structure AgedTile where
  cluster : Nat
  layer : Nat
  tileRow : Nat
  tileCol : Nat
  microBatch : Nat
  phase : Phase
  deriving DecidableEq, Repr

/-- The execution digest of one execution (R391, R392). -/
structure ExecRecord where
  batch : Nat
  exec : Nat
  digest : List Byte
  complete : Bool
  clean : Bool
  deriving DecidableEq, Repr

/-- The seven staple counts of one layer (R152). -/
structure Counts where
  staples : Nat
  zero : Nat
  sat : Nat
  slub : Nat
  nonzero : Nat
  underflow : Nat
  nonfinite : Nat
  deriving DecidableEq, Repr

def Counts.zeros : Counts := ⟨0, 0, 0, 0, 0, 0, 0⟩

/-- MODE codes of HUB_NUM_LAYER_STATE (R174). -/
inductive NMode where
  | k4 | fallback | storm | notCandidate
  deriving DecidableEq, Repr

/-- Fallback state of one layer (R160). -/
structure LayerNum where
  mode : NMode
  run : Nat
  requested : Bool
  deriving DecidableEq, Repr

/-- The numeric state that a decision brings for the next batch (R168, R169). -/
structure NumNext where
  e : Int
  clean : Nat
  modes : List LayerNum
  deriving DecidableEq, Repr

/-- The numeric controller (R160 to R174). Lists run over LAYER_ID. -/
structure NumBlk where
  e : Int
  clean : Nat
  layers : List LayerNum
  next : Option NumNext
  degraded : Bool
  lastSkipped : Bool
  sel : Nat
  jobView : Bool
  /-- Counts of the running execution, of the last complete batch, and the job-wide sums on the manager. -/
  counts : List Counts
  lastCounts : List Counts
  jobCounts : List Counts
  /-- Counts of weights written by update engines (R152): telemetry only. -/
  weightCounts : List Counts
  /-- Last reported ratio per layer, as the 16-bit pattern of its Q8.8 value (R173). -/
  ratios : List (Nat × Nat)
  deriving DecidableEq, Repr

def NumBlk.reset : NumBlk :=
  { e := 0, clean := 0, layers := [], next := none, degraded := false, lastSkipped := false, sel := 0, jobView := false,
    counts := [], lastCounts := [], jobCounts := [], weightCounts := [], ratios := [] }

/-- The running state of one query row and head (R211), or the progress of its probabilities in B (R212): how many key blocks of the
row's order it has met, m, ℓ and o (none while empty), and whether p of a block has been written and p·V not yet added. -/
structure AttnRow where
  layer : Nat
  phase : Phase
  microBatch : Nat
  head : Nat
  row : Nat
  met : Nat
  state : Option (Word × Word × List Word)
  owesValue : Bool
  deriving DecidableEq, Repr

/-- The step controller. -/
structure StpBlk where
  stepIndex : Nat
  batch : Nat
  /-- IN_STEP (R182): from the first F issue to the end of P. -/
  inStep : Bool
  /-- A first F issue has been made for the undecided batch `batch`, in execution `exec`. -/
  running : Bool
  exec : Nat
  desc : Option StepDesc
  /-- Half of the token region that the next STEP fetch uses (R364). -/
  nextHalf : Bool
  settled : Bool
  settledReason : Nat
  /-- Mode of the next execution, as the last decision names it. -/
  nextSettled : Bool
  nextReason : Nat
  nonfinite : Bool
  noticeSent : Bool
  fault : Bool
  /-- FAULT_CAUSE of the verdict (R336): 0 none, 1 fault, 2 committed state lost, 3 core quarantined. -/
  faultCause : Nat
  plyFail : Bool
  twoPathFail : Bool
  skipHeld : Bool
  verdictSent : Bool
  phases : Phases
  lastPhases : Phases
  /-- Arithmetic cycle count and reference tick of the first F issue; ticks of the C message. -/
  firstFCycle : Nat
  firstFTick : Nat
  /-- The scaled arithmetic count of the clock there, and that of the batch whose P runs (R432). -/
  firstFScaled : Nat
  pOriginScaled : Nat
  cTick : Nat
  /-- P of the last committed batch is running, with the cycle and tick origin and the mode of that batch. -/
  pActive : Bool
  pOriginCycle : Nat
  pOriginTick : Nat
  pSettled : Bool
  pLate : Bool
  pFaulty : Bool
  /-- Emergency cap or a cap below MIN_CAP_W during the step whose P runs, up to the next first F issue (R207). -/
  pEm : Bool
  pVoid : Bool
  losses : List MbLoss
  outcome : Nat
  missed : Bool
  missCause : Nat
  outDegraded : Bool
  outSettled : Bool
  outReduced : Nat
  outBatch : Nat
  loss : Word
  lossTokens : Word
  jobLoss : DWord
  phaseSel : Nat
  phaseView : Bool
  /-- The executions of the current or last decided batch (R391, R407), oldest first. -/
  execRecords : List ExecRecord
  /-- The first F of this batch has been issued, in this execution or an earlier one. -/
  begun : Bool
  /-- A fault that a DOWN port leaves until the job is reloaded (R324). -/
  portFault : Bool
  /-- Event 0x2350 has been raised in this batch (R248). -/
  updateOvfRaised : Bool
  /-- First STEP since the load has been accepted (R366). -/
  stepSeen : Bool
  aged : List AgedTile
  /-- The last activation-gradient work of B has drained; clusters whose remaining tiles event 0x1305 has abandoned (R487). -/
  actDone : Bool
  dead : List Nat
  /-- F can no longer finish, and the activation gradients of layers below the bound (0: none is lost): an input they wait for has timed
  out (R487). -/
  lostF : Bool
  lostB : Nat
  attn : List AttnRow
  /-- Present ring step of an attention layer; step 0 where none is listed (R213). -/
  ring : List (Nat × Nat)
  /-- What this device has sent at the present ring step of a layer: part, layer, block (R213). -/
  ringSent : List (Nat × Nat × Nat)
  /-- Layers whose ring runs in B. -/
  ringBack : List Nat
  deriving DecidableEq, Repr

def StpBlk.reset : StpBlk :=
  { stepIndex := 0, batch := 0, inStep := false, running := false, exec := 0, desc := none, nextHalf := false,
    settled := false, settledReason := 0, nextSettled := false, nextReason := 0, nonfinite := false, noticeSent := false,
    fault := false, faultCause := 0, plyFail := false, twoPathFail := false, skipHeld := false, verdictSent := false,
    phases := Phases.none, lastPhases := Phases.none, firstFCycle := 0, firstFTick := 0, firstFScaled := 0, pOriginScaled := 0, cTick := 0,
    pActive := false,
    pOriginCycle := 0, pOriginTick := 0, pSettled := false, pLate := false, pFaulty := false, pEm := false, pVoid := false, losses := [],
    outcome := 0, missed := false, missCause := 0, outDegraded := false,
    outSettled := false, outReduced := 0, outBatch := 0, loss := 0, lossTokens := 0, jobLoss := 0, phaseSel := 0,
    phaseView := false, execRecords := [], begun := false, portFault := false, updateOvfRaised := false, stepSeen := false, aged := [],
    actDone := false, dead := [], lostF := false, lostB := 0, attn := [], ring := [], ringSent := [], ringBack := [] }

/-- One granule of 256 bytes of a record: where it stands in the stage's bobbin region and in its creel allocation (R194). -/
structure Grain where
  skein : Option Nat
  creel : Option Nat
  deriving DecidableEq, Repr

/-- One bobbin record (R188, R189): its layer, its form, its number in the stage's push order, and its granules in order. -/
structure BobRecord where
  layer : Nat
  reduced : Bool
  number : Nat
  grains : List Grain
  deriving DecidableEq, Repr

/-- One frame of a stage's bobbin (R187, R190): records in push order, newest first. -/
structure BobFrame where
  microBatch : Nat
  reserved : Nat
  records : List BobRecord
  /-- A full-form record of this frame did not fit (R192). -/
  reducedOnly : Bool
  deriving DecidableEq, Repr

/-- A record that B has popped, and whether its layer has been recomputed since (R193). -/
structure Popped where
  layer : Nat
  microBatch : Nat
  reduced : Bool
  recomputed : Bool
  deriving DecidableEq, Repr

/-- The bobbin of one stage. -/
structure BobStage where
  stage : Nat
  frames : List BobFrame
  /-- Records pushed since the frames were last closed. -/
  pushes : Nat
  popped : List Popped
  highWater : Nat
  maxFrames : Nat
  lastHighWater : Nat
  lastMaxFrames : Nat
  /-- Reduced records pushed in the running batch. -/
  reduced : Nat
  /-- Event 0x1302 has been raised in this batch (R192). -/
  told : Bool
  deriving DecidableEq, Repr

structure BobBlk where
  sel : Nat
  stages : List BobStage
  deriving DecidableEq, Repr

def BobBlk.reset : BobBlk := ⟨0, []⟩

/-- One layer's record of a verdict set: layer and counts (R336). -/
structure LayerCount where
  layer : Nat
  counts : Counts
  deriving DecidableEq, Repr

/-- One ratio record (R172, R336): shard, layer, ΣΔ² and Σw_old² as binary64. -/
structure RatioRec where
  tag : Nat
  layer : Nat
  d2 : Nat
  w2 : Nat
  deriving DecidableEq, Repr

/-- A verdict set as the manager gathers it (R336). -/
structure VerdictSet where
  rank : Nat
  nonfinite : Bool
  fault : Bool
  plyFail : Bool
  twoPathFail : Bool
  cause : Nat
  countFrames : Nat
  ratioFrames : Nat
  gotCounts : Nat
  gotRatios : Nat
  loss : Word
  tokens : Nat
  counts : List LayerCount
  ratios : List RatioRec
  deriving DecidableEq, Repr

/-- A decision as sent or acted on: batch, execution and payload words (R338, R339). -/
structure Decision where
  batch : Nat
  exec : Nat
  payload : List Word
  deriving DecidableEq, Repr

/-- The commit unit (R72, R334 to R341, R485). -/
structure JobBlk where
  /-- This device has been admitted; START has been received. -/
  admitted : Bool
  /-- An ADMIT_REPLY has come since the last load. -/
  answered : Bool
  formed : Bool
  /-- Manager: ranks admitted with the module serial of each. -/
  admittedRanks : List (Nat × Nat)
  /-- Manager: ranks known to the job with their serials, kept when an admission is withdrawn (R72, R485). -/
  knownSerials : List (Nat × Nat)
  /-- Manager: verdict sets of the execution being gathered; SKIP_NOTICE has been broadcast. -/
  sets : List VerdictSet
  gathering : Bool
  skipNoticeSent : Bool
  /-- Manager: decisions kept (R339), newest first. -/
  kept : List Decision
  /-- Decisions acted on, newest first (R339). -/
  acted : List Decision
  lastKind : Nat
  lastExec : Nat
  lastNextSettled : Bool
  lastHalt : Nat
  lastBatch : Nat
  /-- Event 0x4031 has been raised for this execution. -/
  timeoutRaised : Bool
  /-- Manager: settled mode asked for by the STEP descriptor of the running batch (R197). -/
  settledReq : Bool
  /-- Manager: the job is halted, with the batch to resume (R485). -/
  haltedJob : Bool
  /-- The START that ends HALTED has come; the end of a load, or a distributed structure, is awaited (R66, R485). -/
  resumed : Bool
  deriving DecidableEq, Repr

def JobBlk.reset : JobBlk :=
  { admitted := false, answered := false, formed := false, admittedRanks := [], knownSerials := [], sets := [], gathering := false,
    skipNoticeSent := false, kept := [], acted := [], lastKind := 0, lastExec := 0, lastNextSettled := false, lastHalt := 0,
    lastBatch := 0, timeoutRaised := false, settledReq := false, haltedJob := false, resumed := false }

/-- What the comparator captured (R385). -/
structure Capture where
  identity : List Byte
  element : Nat
  original : Word
  checker : Word
  /-- Row of A, column of B with their staples, or the segment's inputs, as words. -/
  a : List ORow
  b : List ORow
  start : Word
  suspects : List CardUnit
  deriving DecidableEq, Repr

/-- A sampled update segment waiting for the neighbour's recomputation (R381): its inputs as sent (HS, E, β powers, then sums, master values
and optimiser state) and the owner's shadow values. -/
structure SegWait where
  tag : Nat
  segment : Nat
  inputs : List Word
  expected : List Word
  deriving DecidableEq, Repr

/-- The integrity logic (chapter 12). -/
structure PlyBlk where
  suspects : List CoreIx
  /-- Suspects that the running execution leaves out (R394). -/
  excluded : List CoreIx
  /-- Cores that the last REPLAY order lets the execution use (R338, R394). -/
  mask : BitVec 576
  /-- Detections: core and batch (R389), newest first. -/
  detections : List (CoreIx × Nat)
  capture : Option Capture
  /-- Comparators that have met their first mismatch in this batch (R385): 0 to 47 of a cluster, 48 to 55 of an update engine, from 56
on of a reel engine. -/
  captured : List Nat
  /-- Identities of the units that have differed in this execution (R380). -/
  differed : List (List Byte)
  lastMismatch : List Word
  ctrlRefused : Bool
  ctrlUnit : Nat
  ctrlTarget : Nat
  /-- RESULT, UNIT, PART and TARGET of PLY_CARDING_STATUS. -/
  cardResult : Nat
  cardUnit : Nat
  cardPart : Nat
  cardTarget : Nat
  /-- Units under test now. -/
  carding : List CardUnit
  /-- The unit among them whose test the host asked for (R407). -/
  cardHost : Option CardUnit
  /-- Cores and creels to test while the next execution runs, engines to test after the decision (R387). -/
  cardReplay : List CardUnit
  cardLater : List CardUnit
  unitUnfit : Bool
  quarantineHalt : Bool
  execSel : Nat
  ckptOp : Nat
  ckptAccepted : Bool
  ckptCause : Nat
  segWaits : List SegWait
  deriving DecidableEq, Repr

def PlyBlk.reset : PlyBlk :=
  { suspects := [], excluded := [], mask := BitVec.allOnes 576, detections := [], capture := none, captured := [], differed := [],
    lastMismatch := List.replicate 8 0,
    ctrlRefused := false, ctrlUnit := 0, ctrlTarget := 0, cardResult := 0, cardUnit := 0, cardPart := 0, cardTarget := 0,
    carding := [], cardHost := none, cardReplay := [], cardLater := [], unitUnfit := false, quarantineHalt := false, execSel := 0, ckptOp := 0,
    ckptAccepted := false, ckptCause := 0, segWaits := [] }

end Sys2Proof.Machine
end

