-- ==== Sys2Proof/Machine/Image.lean ====
section
/-! DEFINITION. A warp image as the device holds it: its bytes, and the twelve sections read field by field (R52 to R60, R156,
R219, R258, R293, R375). Codes stay the numbers of the spec's maps. -/

namespace Sys2Proof.Machine

/-- JOB (R55). -/
structure Job where
  deviceCount : Nat
  topology : Nat
  managerRank : Nat
  torusX : Nat
  torusY : Nat
  nonreproAck : Bool
  exactReel : Bool
  seedCommitment : List Byte
  layerCount : Nat
  deriving DecidableEq, Repr

/-- One LAYERS entry (R57). -/
structure Layer where
  id : Nat
  kind : Nat
  stage : Nat
  scaleShift : Int
  kExtent : Nat
  nExtent : Nat
  actFmt : Nat
  weightFmt : Nat
  gradFmt : Nat
  actStaple : Nat
  weightStaple : Nat
  gradStaple : Nat
  actTwist : Nat
  weightTwist : Nat
  gradTwist : Nat
  ply : Nat
  wide : Bool
  narrowOverride : Bool
  stochastic : Bool
  lowRank : Bool
  priority : Nat
  activation : Nat
  bias : Bool
  colScale : Bool
  heads : Nat
  headDim : Nat
  satLimit : Nat
  underflowLimit : Nat
  slubLimit : Nat
  ratioHi : Int
  ratioLo : Int
  deriving DecidableEq, Repr

/-- NUMERIC (R156). -/
structure Numeric where
  budget : Nat
  hysteresis : Nat
  k : Nat
  g : Nat
  initE : Int
  slubCap : Nat
  outlierLog2 : Nat
  deriving DecidableEq, Repr

/-- One HANKS entry (R219): kind 0 gradient, 1 low-rank P factor, 2 low-rank Q factor. -/
structure Hank where
  tag : Nat
  owner : Nat
  kind : Nat
  layer : Nat
  firstTile : Nat
  tileCount : Nat
  initRel : Int
  decay : Bool
  rank : Nat
  deriving DecidableEq, Repr

/-- HANKS (R219). -/
structure Hanks where
  ctxGroup : Nat
  twoPathLog2 : Nat
  exactGroupSeqs : Nat
  exactGroupsLog2 : Nat
  /-- true: AdamW; false: SGD with momentum. -/
  adamw : Bool
  nesterov : Bool
  beta1 : Word
  beta2 : Word
  epsilon : Word
  weightDecay : Word
  gradNorm : Word
  /-- Breakpoints in use: step and learning rate. -/
  lr : List (Nat × Word)
  entries : List Hank
  deriving DecidableEq, Repr

/-- One NEP entry (R257, R258). -/
structure Stream where
  id : Word
  mode : Nat
  initConstant : Bool
  dropRate : Nat
  initScale : Word
  deriving DecidableEq, Repr

/-- One PLACE entry (R59). -/
structure Placed where
  core : Nat
  stage : Nat
  spoolKib : Nat
  deriving DecidableEq, Repr

/-- PLACE (R59): `ports` holds one byte per port. -/
structure Place where
  rank : Nat
  stageCount : Nat
  microBatchSeqs : Nat
  ports : List Nat
  cores : List Placed
  deriving DecidableEq, Repr

/-- One ROUTES entry (R59): the hop codes in use. -/
structure Route where
  srcKind : Nat
  srcIndex : Nat
  dstKind : Nat
  dstIndex : Nat
  bandwidth : Nat
  hops : List Nat
  deriving DecidableEq, Repr

/-- One MEMORY entry (R59). -/
structure Region where
  kind : Nat
  stage : Nat
  layer : Nat
  tag : Nat
  stack : Nat
  cluster : Nat
  offset : Nat
  size : Nat
  deriving DecidableEq, Repr

/-- One SHUTTLE entry (R293): weights and burst limits of the five classes. -/
structure ShuttleCfg where
  stack : Nat
  channel : Nat
  weights : List Nat
  bursts : List Nat
  deriving DecidableEq, Repr

/-- DEADLINE (R58). -/
structure Deadline where
  us : Nat
  freeDraft : Bool
  minCap : Nat
  fbCycles : Nat
  gtailUs : Nat
  uUs : Nat
  cUs : Nat
  pUs : Nat
  deriving DecidableEq, Repr

/-- A whole image. -/
structure Image where
  bytes : List Byte
  job : Job
  layers : List Layer
  numeric : Numeric
  hanks : Hanks
  nep : List Stream
  place : Place
  routes : List Route
  memory : List Region
  shuttle : List ShuttleCfg
  plyLog2 : Nat
  updateLog2 : Nat
  deadline : Deadline
  deriving DecidableEq, Repr

end Sys2Proof.Machine
end

