-- ==== Sys2Proof/Machine/BlkWarp.lean ====
section
/-! DEFINITION. State of the warp loader (chapter 2) and of the nep generators (chapter 8). -/

namespace Sys2Proof.Machine

/-- STATE of HUB_WARP_STATUS (R62). -/
inductive Loader where
  | empty | verify | validate | feasibility | distribute | loaded | refused | halted
  deriving DecidableEq, Repr

/-- A key pair as the snapshot of R67 holds it. -/
structure SnapKey where
  id : Word
  ed : List Byte
  ml : List Byte
  revoked : Bool
  deriving DecidableEq, Repr

/-- The snapshot taken when Verify begins (R67). -/
structure LoadSnap where
  keys : List SnapKey
  quarantine : BitVec 576
  cap : Nat
  deriving DecidableEq, Repr

/-- The warp loader. -/
structure WarpBlk where
  state : Loader
  /-- The state in which the running load began (R64). -/
  began : Loader
  cont : Bool
  /-- The running load is a continuation load. -/
  loadCont : Bool
  refusal : Half
  busyReject : Bool
  detail : Word
  length : Word
  srcLo : Word
  srcHi : Word
  /-- Values latched when LOAD was written (R62). -/
  latSrc : Nat
  latLength : Nat
  deadlineUs : Word
  worstUs : Word
  fraction : Word
  loadUs : Word
  imageHash : List Byte
  logicalHash : List Byte
  loadTick : Nat
  snap : LoadSnap
  /-- Bytes and sections of the image being loaded, once Verify and Validate have read them. -/
  pendingBytes : List Byte
  pending : Option Image
  /-- The accepted image, and whether its structure is distributed (R64, R65, R73). -/
  image : Option Image
  dist : Bool
  /-- The descriptor templates in the clusters' creels, each with its cluster (R63, R183, R291). -/
  templates : List (Nat × Work)
  deriving DecidableEq, Repr

def LoadSnap.reset : LoadSnap := ⟨[], 0, 0⟩

def WarpBlk.reset : WarpBlk :=
  { state := .empty, began := .empty, cont := false, loadCont := false, refusal := 0, busyReject := false, detail := 0,
    length := 0, srcLo := 0, srcHi := 0, latSrc := 0, latLength := 0, deadlineUs := 0, worstUs := 0, fraction := 0,
    loadUs := 0, imageHash := [], logicalHash := [], loadTick := 0, snap := LoadSnap.reset, pendingBytes := [],
    pending := none, image := none, dist := false, templates := [] }

/-- The nep generators: the job's seed with its derived keys, and the test registers of R276. -/
structure NepBlk where
  /-- The accepted seed (R56); the stream keys of R260 and K_ply of R377 are functions of it. -/
  seed : Option (List Byte)
  testGenerator : Nat
  testTarget : Nat
  testDone : Bool
  testRefused : Bool
  /-- The outputs of an accepted test until they are written (R276). -/
  testPending : Option (List Word)
  key0 : Word
  key1 : Word
  ctr : List Word
  out : List Word
  deriving DecidableEq, Repr

def NepBlk.reset : NepBlk :=
  ⟨none, 0, 0, false, false, none, 0, 0, List.replicate 4 0, List.replicate 4 0⟩

end Sys2Proof.Machine
end

