-- ==== Sys2Proof/Machine/Mem.lean ====
section
/-! DEFINITION. A byte memory as plain data: a list of `Host.Cell` in canonical form, addresses strictly rising and no entry
equal to what an unlisted address reads as. Used for the skein, the spools and the accumulator tiles. -/

namespace Sys2Proof.Machine

/-- A memory in canonical form (see `Memory.wf`). -/
abbrev Memory := List Host.Cell

/-- What a byte that nothing has written reads as: zero. DESIGN CHOICE (log entry 1): the spec gives no contents. -/
def unwritten : Byte := 0

/-- The cells rise strictly from above `a`, and none holds the unwritten byte. -/
def Memory.wfAbove : Nat → Memory → Bool
  | _, [] => true
  | a, c :: cs => decide (a ≤ c.1) && decide (c.2 ≠ unwritten) && Memory.wfAbove (c.1 + 1) cs

/-- The canonical form. -/
def Memory.wf (m : Memory) : Bool := Memory.wfAbove 0 m

/-- The byte at an address. -/
def Memory.readByte : Memory → Nat → Byte
  | [], _ => unwritten
  | c :: cs, a => if c.1 = a then c.2 else Memory.readByte cs a

/-- `n` bytes from `a`, of a memory whose cells all lie at or above `a`. -/
def Memory.walk : Nat → Memory → Nat → List Byte
  | 0, _, _ => []
  | n + 1, [], a => unwritten :: Memory.walk n [] (a + 1)
  | n + 1, c :: cs, a =>
    if c.1 = a then c.2 :: Memory.walk n cs (a + 1) else unwritten :: Memory.walk n (c :: cs) (a + 1)

/-- `n` bytes from `a`. -/
def Memory.readBytes (m : Memory) (a n : Nat) : List Byte := Memory.walk n (m.filter fun c => decide (a ≤ c.1)) a

/-- The cells that a byte string at `a` makes: the bytes that differ from the unwritten one. -/
def Memory.cells : List Byte → Nat → Memory
  | [], _ => []
  | b :: bs, a => if b = unwritten then Memory.cells bs (a + 1) else (a, b) :: Memory.cells bs (a + 1)

/-- Write a byte string at `a`. -/
def Memory.writeBytes (m : Memory) (a : Nat) (bs : List Byte) : Memory :=
  (m.filter fun c => decide (c.1 < a)) ++ (Memory.cells bs a ++ m.filter fun c => decide (a + bs.length ≤ c.1))

/-- Bring `n` bytes from `a` back to the unwritten byte. -/
def Memory.clearRange (m : Memory) (a n : Nat) : Memory :=
  m.filter fun c => decide (c.1 < a) || decide (a + n ≤ c.1)

/-- The little-endian word at `a` (R13). -/
def Memory.readWord (m : Memory) (a : Nat) : Word := w32 (leNat (m.readBytes a 4))

/-- `n` little-endian words from `a`. -/
def Memory.readWords (m : Memory) (a n : Nat) : List Word := bytesWords n (m.readBytes a (4 * n))

/-- Write little-endian words at `a`. -/
def Memory.writeWords (m : Memory) (a : Nat) (ws : List Word) : Memory := m.writeBytes a (wordsBytes ws)

end Sys2Proof.Machine
end

