-- ==== Sys2Proof/Machine/State.lean ====
section
/-! DEFINITION. The state of the block: every register, buffer, queue, counter and mode the spec gives the device, in the blocks
of the files imported here, the four memories, and the queue of waiting commands. Plain data throughout. -/

namespace Sys2Proof.Machine

/-- Why a run stops. -/
inductive Fault where
  /-- A command whose operand data has not the form of its row (a staple with a missing element, a tile of the wrong size).
  Raised by `Sys2Proof.Machine.checked`. Safe: no such command can be sent. -/
  | commandMalformed
  deriving DecidableEq, Repr

/-- Why a command has no meaning here. -/
inductive Refusal where
  /-- An arm of `exec` without a meaning. Safe. -/
  | notModelled (mnemonic : String)
  deriving DecidableEq, Repr

/-- The state. -/
structure State where
  /-- Commands waiting, first in, first out. -/
  pending : List Instr
  clk : ClkBlk
  /-- Events, counters, MSI-X and what the device wrote to host memory. -/
  tel : TelBlk
  out : OutBlk
  hub : HubBlk
  weft : WeftBlk
  mod : ModBlk
  jtag : JtagBlk
  i3c : I3cBlk
  trd : TrdBlk
  flash : SecFlash
  sec : SecBlk
  spdm : SpdmBlk
  warp : WarpBlk
  nep : NepBlk
  num : NumBlk
  stp : StpBlk
  bob : BobBlk
  job : JobBlk
  ply : PlyBlk
  reel : ReelBlk
  rov : RovBlk
  skn : SknBlk
  /-- Core states that differ from the reset value, under the core's number. -/
  cores : List (Nat × CoreState)
  /-- Accumulator elements: byte offset within tile ((core × 2 + engine) × 2 + tile), tiles 65,536 bytes apart (R24). -/
  acc : Memory
  /-- Spools, 1,572,864 bytes apart (R26). -/
  spool : Memory
  /-- Creels, 16 MiB apart (R28, R291). -/
  creel : Memory
  /-- What is resident in spools and creels, and the hand-over slots. -/
  res : ResBlk
  /-- The eight skein stacks under the 40-bit skein address (R281). -/
  skein : Memory
  /-- The model's own counter of free values drawn. -/
  freeCtr : Nat
  deriving DecidableEq, Repr

/-- The module as the input stage and the straps present it at first power: in module reset, nothing sampled yet. The cause of
the first boot is "input applied" (R482). -/
def ModBlk.reset : ModBlk :=
  { bring := .held, resetAsserted := true, input := ⟨0, 0, Config.inputStageBoots.toNat⟩, recovery := false,
    railFault := false, mapFault := false, trainFault := false, signFault := false, refFault := false, zeroTick := 0,
    readyMs := 0, attestMs := 0, dieStraps := [0, 0, 0, 0], slot := 0, selfTestQuar := 0, sgmii := false, linkLateRaised := false, refclk := .good,
    spiExternal := false, spiIgnoredEarly := false, emEarly := [] }

/-- The device right after reset. -/
def State.reset : State :=
  { pending := [], clk := ClkBlk.reset, tel := TelBlk.reset, out := OutBlk.reset, hub := HubBlk.reset, weft := WeftBlk.reset,
    mod := ModBlk.reset, jtag := JtagBlk.reset, i3c := I3cBlk.reset, trd := TrdBlk.reset, flash := SecFlash.factory,
    sec := SecBlk.reset, spdm := SpdmBlk.reset, warp := WarpBlk.reset, nep := NepBlk.reset, num := NumBlk.reset,
    stp := StpBlk.reset, bob := BobBlk.reset, job := JobBlk.reset, ply := PlyBlk.reset, reel := ReelBlk.reset,
    rov := RovBlk.reset, skn := SknBlk.reset, cores := [], acc := [], spool := [], creel := [], res := ResBlk.reset, skein := [], freeCtr := 0 }

end Sys2Proof.Machine
end

