-- ==== Sys2Proof/Machine/Ops.lean ====
section
/-! DEFINITION. The operations every family shares: updates of one block, events and counters (R17, R371, R406, R461), MSI-X
(R370), latches (R406), the tables of cores and records, and the modes that other rules test. -/

namespace Sys2Proof.Machine

/-- The outcome of a command. -/
abbrev Out := Host.Outcome State Fault Refusal

/-- Go on, where the command's operands have their form; stop otherwise. -/
def checked (ok : Bool) (s : State) : Out := if ok then .next s else .fault .commandMalformed

-- Updates of one block.
def State.onClk (s : State) (f : ClkBlk → ClkBlk) : State := { s with clk := f s.clk }
def State.onTel (s : State) (f : TelBlk → TelBlk) : State := { s with tel := f s.tel }
def State.onOut (s : State) (f : OutBlk → OutBlk) : State := { s with out := f s.out }
def State.onHub (s : State) (f : HubBlk → HubBlk) : State := { s with hub := f s.hub }
def State.onWeft (s : State) (f : WeftBlk → WeftBlk) : State := { s with weft := f s.weft }
def State.onMod (s : State) (f : ModBlk → ModBlk) : State := { s with mod := f s.mod }
def State.onJtag (s : State) (f : JtagBlk → JtagBlk) : State := { s with jtag := f s.jtag }
def State.onI3c (s : State) (f : I3cBlk → I3cBlk) : State := { s with i3c := f s.i3c }
def State.onTrd (s : State) (f : TrdBlk → TrdBlk) : State := { s with trd := f s.trd }
def State.onFlash (s : State) (f : SecFlash → SecFlash) : State := { s with flash := f s.flash }
def State.onSec (s : State) (f : SecBlk → SecBlk) : State := { s with sec := f s.sec }
def State.onSpdm (s : State) (f : SpdmBlk → SpdmBlk) : State := { s with spdm := f s.spdm }
def State.onWarp (s : State) (f : WarpBlk → WarpBlk) : State := { s with warp := f s.warp }
def State.onNep (s : State) (f : NepBlk → NepBlk) : State := { s with nep := f s.nep }
def State.onNum (s : State) (f : NumBlk → NumBlk) : State := { s with num := f s.num }
def State.onStp (s : State) (f : StpBlk → StpBlk) : State := { s with stp := f s.stp }
def State.onBob (s : State) (f : BobBlk → BobBlk) : State := { s with bob := f s.bob }
def State.onJob (s : State) (f : JobBlk → JobBlk) : State := { s with job := f s.job }
def State.onPly (s : State) (f : PlyBlk → PlyBlk) : State := { s with ply := f s.ply }
def State.onReel (s : State) (f : ReelBlk → ReelBlk) : State := { s with reel := f s.reel }
def State.onRov (s : State) (f : RovBlk → RovBlk) : State := { s with rov := f s.rov }
def State.onSkn (s : State) (f : SknBlk → SknBlk) : State := { s with skn := f s.skn }
def State.onRes (s : State) (f : ResBlk → ResBlk) : State := { s with res := f s.res }

-- Keyed lists.

/-- The value under a key, `d` where there is none. -/
def assocGet {α : Type} (d : α) (k : Nat) : List (Nat × α) → α
  | [] => d
  | c :: cs => if c.1 = k then c.2 else assocGet d k cs

/-- Put a value under a key. -/
def assocPut {α : Type} (k : Nat) (v : α) : List (Nat × α) → List (Nat × α)
  | [] => [(k, v)]
  | c :: cs => if c.1 = k then (k, v) :: cs else c :: assocPut k v cs

/-- Change the records that `p` names. -/
def updWhere {α : Type} (p : α → Bool) (f : α → α) (l : List α) : List α := l.map fun x => if p x then f x else x

-- Readiness.

/-- READY (R464). -/
def isReady (s : State) : Bool := s.mod.bring == .ready

-- Counters.

/-- The largest value of a counter of `bits` bits. -/
def ctrTop (bits : Nat) : Nat := 2 ^ bits - 1

/-- A counter, zero where nothing has counted. -/
def ctrGet (t : List (Nat × Ctr)) (key : Nat) : Ctr := assocGet ⟨0, false⟩ key t

/-- Add `n` (R406): the counter holds its largest value and sets SAT; the second part says whether it did so now. -/
def Ctr.add (bits n : Nat) (c : Ctr) : Ctr × Bool :=
  if c.sat then (c, false)
  else if ctrTop bits ≤ c.n + n then (⟨ctrTop bits, true⟩, true) else (⟨c.n + n, false⟩, false)

/-- Count in the table; the keys that saturated now. -/
def TelBlk.count (bits key n : Nat) (t : TelBlk) : TelBlk × List Nat :=
  let r := (ctrGet t.ctrs key).add bits n
  ({ t with ctrs := assocPut key r.1 t.ctrs }, if r.2 then [key] else [])

/-- Offsets of the two counters that an event itself can move: WEFT_EVENTS_DROPPED (R371) and SEC_EVENTS_LOST (R461). -/
def kEventsDropped : Nat := 0x10001C
def kEventsLost : Nat := 0x6000E0

/-- Key of the counter at a SKN_ shuttle register for one channel and class (R309). -/
def shuttleKey (off chan cls : Nat) : Nat := off + 2 ^ 28 * (1 + chan * 5 + cls)

/-- Sizes of the distaff's rings (R461). -/
def memRing : Nat := 8192
def flashRing : Nat := 65536

-- MSI-X and the event ring.

/-- Signal a vector (R370): held pending while its table entry masks it, as PCIe defines. -/
def Msix.signal (v : Nat) (m : Msix) : Msix :=
  if wbit (wordAt m.table (4 * v + 3)) 0 then { m with pending := m.pending.set v true } else { m with sent := v :: m.sent }

/-- The payload item of an event that is wider than 32 bits: a skein address of 40 bits or a step index of 48. -/
def wideItem (code : Half) : Option Nat :=
  match code.toNat with
  | 0x2402 | 0x2403 | 0x2406 => some 0
  | 0x2360 | 0x2405 | 0x6010 => some 1
  | _ => none

/-- The payload of an event as words: each item whole, the wide one as its low word and then its high word. -/
def payloadWords (e : Event) : List Nat :=
  (List.zip (List.range e.payload.length) e.payload).flatMap fun x => if wideItem e.code == some x.1 then [x.2, x.2 / 2 ^ 32] else [x.2]

/-- The 64 bytes of an event record (R371). The words of a payload stand in order; their layout is not given (log entry 10). -/
def eventRecord (e : Event) (phase : Bool) : List Byte :=
  wordsBytes ([w32 (e.code.toNat * 65536 + b2n phase), 0, w32 e.time, w32 (e.time / 2 ^ 32), w32 e.batch,
    w32 (e.batch / 2 ^ 32 % 65536)] ++ (payloadWords e ++ List.replicate 10 0 |>.take 10).map w32)

/-- The number of slots of the event ring. -/
def EvRing.size (r : EvRing) : Nat := 2 ^ r.sizeLog2

/-- A ring takes records while it is enabled and not full: one slot stays free (log entry 11). -/
def EvRing.takes (r : EvRing) : Bool := r.enable && !((r.tail + 1) % r.size == r.head)

/-- A base register pair as an address. -/
def pairAddr (lo hi : Word) : Nat := lo.toNat + 2 ^ 32 * hi.toNat

/-- The host's copy of an event (R371). -/
def TelBlk.hostCopy (e : Event) (t : TelBlk) : TelBlk × List Nat :=
  if t.ring.takes then
    let r := t.ring
    let w : HostWrite := ⟨pairAddr r.baseLo r.baseHi + 64 * r.tail, eventRecord e (r.written / r.size % 2 == 0)⟩
    ({ t with hostWrites := w :: t.hostWrites
              ring := { r with tail := (r.tail + 1) % r.size, written := r.written + 1 }
              msix := if r.evInt then t.msix.signal 2 else t.msix }, [])
  else t.count 48 kEventsDropped 1

/-- One event into the distaff's rings (R461) and to the host. -/
def TelBlk.emit1 (e : Event) (t : TelBlk) : TelBlk × List Nat :=
  let lost := flashRing ≤ t.flash.length
  let t1 := { t with mem := (e :: t.mem).take memRing, flash := (e :: t.flash).take flashRing }
  let r2 := if lost then t1.count 48 kEventsLost 1 else (t1, [])
  let r3 := r2.1.hostCopy e
  (r3.1, r2.2 ++ r3.2)

/-- Event 0x7001 for a counter that saturated: it carries the BAR0 offset of the counter's low register (R406) and the execution (R408). -/
def satEvent (exec : Nat) (e : Event) (key : Nat) : Event := { e with code := 0x7001, payload := [key % 2 ^ 28, exec] }

/-- Emit events; a counter that one of them saturates raises its own event, at most twice over (`fuel`). -/
def TelBlk.emit (exec : Nat) : Nat → List Event → TelBlk → TelBlk
  | 0, _, t => t
  | _ + 1, [], t => t
  | fuel + 1, e :: es, t =>
    let r := t.emit1 e
    TelBlk.emit exec fuel (r.2.map (satEvent exec e) ++ es) r.1

/-- The reporting paths that are up (R460, R464, R474): I3C once the target has its dynamic address, Redfish once SGMII is enabled. -/
def pathsUp (s : State) : Paths := ⟨s.i3c.enabled && s.i3c.dynAddr.isSome, s.mod.sgmii⟩

/-- Raise an event that carries a given batch index. -/
def raiseAt (batch : Nat) (code : Half) (payload : List Nat) (s : State) : State :=
  s.onTel fun t => t.emit s.stp.exec 4 [⟨code, payload, s.clk.refTimer, batch, pathsUp s⟩]

/-- Raise an event (R17): it carries the device's batch index (in P the one that the decision has advanced, log entry 143). -/
def raise (code : Half) (payload : List Nat) (s : State) : State := raiseAt s.stp.batch code payload s

/-- Raise an event of the integrity units: it carries the execution as its last item (R408). -/
def raiseExec (code : Half) (payload : List Nat) (s : State) : State := raise code (payload ++ [s.stp.exec]) s

/-- Raise an event where a condition holds. -/
def raiseIf (c : Bool) (code : Half) (payload : List Nat) (s : State) : State := if c then raise code payload s else s

/-- Add `n` to the counter of `bits` bits at `key`, raising 0x7001 when it saturates now (R406). -/
def count (bits key n : Nat) (s : State) : State :=
  s.onTel fun t =>
    let r := t.count bits key n
    r.1.emit s.stp.exec 4 (r.2.map (satEvent s.stp.exec ⟨0x7001, [], s.clk.refTimer, s.stp.batch, pathsUp s⟩))

/-- A 48-bit event counter and a 16-bit error counter by one. -/
def countEvt (key : Nat) (s : State) : State := count 48 key 1 s
def countErr (key : Nat) (s : State) : State := count 16 key 1 s

/-- The low and high registers of a counter pair, and the register of a 16-bit error counter (R406). -/
def ctrLo (s : State) (key : Nat) : Word := w32 (ctrGet s.tel.ctrs key).n
def ctrHi (s : State) (key : Nat) : Word :=
  let c := ctrGet s.tel.ctrs key
  w32 (c.n / 2 ^ 32 % 65536 + 2 ^ 31 * b2n c.sat)
def ctrErr (s : State) (key : Nat) : Word :=
  let c := ctrGet s.tel.ctrs key
  w32 (c.n % 65536 + 2 ^ 31 * b2n c.sat)

/-- Clear counters (R406: at a load or at module reset). -/
def clearCtrs (keys : List Nat) (t : TelBlk) : TelBlk := { t with ctrs := t.ctrs.filter fun c => !(keys.contains c.1) }

/-- Write into host memory (R347). -/
def hostWrite (addr : Nat) (data : List Byte) (s : State) : State :=
  s.onTel fun t => { t with hostWrites := ⟨addr, data⟩ :: t.hostWrites }

/-- Signal an MSI-X vector. -/
def signal (v : Nat) (s : State) : State := s.onTel fun t => { t with msix := t.msix.signal v }

/-- Latch register values under their offsets (R406). -/
def latch (regs : List (Nat × Word)) (s : State) : State :=
  s.onHub fun h => { h with latched := regs.foldl (fun l r => assocPut r.1 r.2 l) h.latched }

/-- A reply of the distaff. -/
def reply (r : MgmtReply) (s : State) : State := s.onOut fun o => { o with mgmt := r :: o.mgmt }

/-- A BAR0 write that R352 refuses before READY: dropped, counted and reported. -/
def refuseWrite (off : Nat) (s : State) : State := raise 0x5020 [off] (countErr 0x18 s)

/-- A BAR0 write to a register outside the boot window (R352). -/
def gated (off : Nat) (f : State → State) (s : State) : State := if isReady s then f s else refuseWrite off s

-- Signatures (R439, R440).

/-- Count failed verifications in SEC_SIG_FAILURES. -/
def countSigFail (n : Nat) (s : State) : State := if n == 0 then s else count 16 0x6000D4 n s

/-- How many of the two signatures of an artefact fail, under one signer's keys and a context (R439): both are always verified (log
entry 161). -/
def sigFails (keys : List Byte × List Byte) (ctx : String) (region edSig mlSig : List Byte) : Nat :=
  let d := sha512 region
  b2n (!Config.edVerify keys.1 d edSig) + b2n (!Config.mlVerify keys.2 d (ascii ctx) mlSig)

-- Free values.

/-- Draw a free choice among `n` alternatives (`n` positive). -/
def freePick (n : Nat) (s : State) : Nat × State := (Config.freeChoice s.freeCtr % n, { s with freeCtr := s.freeCtr + 1 })

-- Cores.

/-- A core's state. -/
def State.core (s : State) (c : Nat) : CoreState := assocGet CoreState.reset c s.cores

def State.onCore (s : State) (c : Nat) (f : CoreState → CoreState) : State :=
  { s with cores := assocPut c (f (s.core c)) s.cores }

/-- The PLACE encoding of a core number: die [11:10], cluster [9:6], core [5:2] (R58). -/
def coreCode (c : Nat) : Nat := c / 144 * 1024 + c / 12 % 12 * 64 + c % 12 * 4

/-- The core number that a 16-bit code names: cluster and core at most 11, padding zero (R59, 0x5133). -/
def coreOf (code : Nat) : Option CoreIx :=
  let cl := field code 9 6
  let k := field code 5 2
  if cl ≤ 11 ∧ k ≤ 11 ∧ field code 15 12 = 0 ∧ field code 1 0 = 0 then
    let n := field code 11 10 * 144 + cl * 12 + k
    if h : n < 576 then some ⟨n, h⟩ else none
  else none

/-- The cluster of a core. -/
def clusterOf (c : CoreIx) : Nat := c.val / 12

/-- Unit and target codes of PLY_CARDING_CTRL (R407): a creel is tested through its cluster's cores and names the first. -/
def unitCode : CardUnit → Nat × Nat
  | .core c => (0, coreCode c.val)
  | .creel c => (0, coreCode (c.val * 12))
  | .update x => (1, x.val * 4096)
  | .reelEngine e => (2, e.val)

/-- A core is quarantined (R388, R390). -/
def quarantined (s : State) (c : Nat) : Bool := s.flash.map.getLsbD c

/-- The number of ones among the first `n` bits. -/
def popcount : Nat → Nat → Nat
  | 0, _ => 0
  | n + 1, w => w % 2 + popcount n (w / 2)

def quarantineCount (m : BitVec 576) : Nat := popcount 576 m.toNat

/-- The cores the loaded image places. -/
def placedCores (s : State) : List Placed :=
  match s.warp.image with
  | some im => im.place.cores
  | none => []

-- Modes.

/-- Distaff firmware runs (R441). -/
def distaffRuns (s : State) : Bool :=
  match s.mod.bring with
  | .distaff | .flyer | .skeinBase | .selfTest | .noSkein | .ready => !s.mod.recovery
  | _ => false

/-- Flyer firmware runs: from its stage on, outside recovery. -/
def flyerRuns (s : State) : Bool :=
  match s.mod.bring with
  | .flyer | .skeinBase | .selfTest | .noSkein | .ready => true
  | _ => false

/-- Reel, roving links, update engines and skein bases run in T0 and T1 only (R411). -/
def unitsRun (s : State) : Bool := s.trd.ladder == .t0 || s.trd.ladder == .t1

/-- Arithmetic issues only in T0 (R411). Once the emergency cap is qualified nothing new begins: a tile in work goes on to its end (R422; log
entry 171). -/
def tilesGoOn (s : State) : Bool := s.trd.ladder == .t0
def arithmeticOn (s : State) : Bool := tilesGoOn s && !s.trd.stopping

/-- The emergency cap is asserted (R421). -/
def Emergency.any (e : Emergency) : Bool := e.pin || e.command || e.thermal || e.inputLow

/-- Where the loader stands beside a load that runs: in the state where that load began, until Distribute discards the image (R66). -/
def standing (s : State) : Loader :=
  match s.warp.state with
  | .verify | .validate | .feasibility => s.warp.began
  | .distribute => if s.warp.loadCont then s.warp.began else .distribute
  | st => st

/-- The loader is busy with a load (R62). -/
def loadRunning (s : State) : Bool :=
  match s.warp.state with
  | .verify | .validate | .feasibility | .distribute => true
  | _ => false

/-- Arithmetic cycles so far. -/
def arithCycles (s : State) : Nat := s.clk.arithScaled / 100000

/-- The arithmetic clock in kHz: the root by four (R39). -/
def arithKhz (s : State) : Nat := s.trd.rootKhz / 4

/-- TRD_BATCH_KHZ of a decided batch (R432): the mean arithmetic frequency from its first F issue, at scaled count `scaled` and tick
`tick`, to the end of P. A skipped batch has no P, and ends with its decision (log entry 158). -/
def batchKhz (scaled tick : Nat) (s : State) : State :=
  let ticks := s.clk.refTimer - tick
  s.onTrd fun t => { t with batchKhz := if ticks = 0 then arithKhz s else (s.clk.arithScaled - scaled) / ticks }

/-- A fault outstanding in the running execution, with its cause (R43, R336): a graver cause already set stays. -/
def faultWith (cause : Nat) (s : State) : State :=
  s.onStp fun b => { b with fault := true, faultCause := if b.faultCause < 2 then max b.faultCause cause else b.faultCause }

def faultNow (s : State) : State := faultWith 1 s

/-- The loaded image, where the loader is LOADED or HALTED (R62). -/
def State.img (s : State) : Option Image := s.warp.image

/-- This device's rank, DEVICE_COUNT and the manager's rank; zero with no image. -/
def rankOf (s : State) : Nat := match s.warp.image with | some i => i.place.rank | none => 0
def deviceCount (s : State) : Nat := match s.warp.image with | some i => i.job.deviceCount | none => 0
def managerRank (s : State) : Nat := match s.warp.image with | some i => i.job.managerRank | none => 0
def isManager (s : State) : Bool := s.warp.image.isSome && rankOf s == managerRank s

end Sys2Proof.Machine
end

