-- ==== Sys2Proof/Machine/Link.lean ====
section
/-! DEFINITION. The link layer of the roving ports (chapter 10): frames with their CRC, credits, sequence numbers and retry,
port states, HELLO, and the fixed routes of R318 and R319. -/

namespace Sys2Proof.Machine

-- Frames (R325, R326).

def ftIdle : BitVec 8 := 0x00
def ftLinkCtrl : BitVec 8 := 0x01
def ftAlign : BitVec 8 := 0x02
def ftHello : BitVec 8 := 0x03
def ftNotReady : BitVec 8 := 0x04
def ftReel : BitVec 8 := 0x10
def ftKv : BitVec 8 := 0x11
def ftAdmitRequest : BitVec 8 := 0x20
def ftAdmitReply : BitVec 8 := 0x21
def ftNotice : BitVec 8 := 0x22
def ftVerdict : BitVec 8 := 0x23
def ftCounts : BitVec 8 := 0x24
def ftRatios : BitVec 8 := 0x25
def ftSkipNotice : BitVec 8 := 0x26
def ftDecision : BitVec 8 := 0x27
def ftQuery : BitVec 8 := 0x28

/-- The five header words (R325). -/
def frameHeader (f : Frame) : List Word :=
  [w32 (f.ftype.toNat * 2 ^ 24 + f.marker.toNat * 2 ^ 20 + f.tag.toNat),
   w32 (f.dest.toNat * 65536 + f.src.toNat),
   w32 (f.seq.toNat * 65536 + f.vc.toNat * 2 ^ 14 + f.exec.toNat * 2 ^ 12 + b2n f.rsv * 2 ^ 11 + f.len.toNat),
   w32 f.batch.toNat,
   w32 (f.hops.toNat * 65536 + f.batch.toNat / 2 ^ 32)]

/-- The CRC of header and payload (R326). -/
def frameSum (f : Frame) : Word := crc32c (wordsBytes ((frameHeader f) ++ f.payload))

/-- The frame with its CRC; IDLE and ALIGN frames have none (R316). -/
def sealFrame (f : Frame) : Frame := if f.ftype == ftIdle || f.ftype == ftAlign then f else { f with crc := (frameSum f) }

/-- Blocks of 32 bytes that a frame fills (R325): IDLE and ALIGN are single blocks (R316). -/
def blocksOf (f : Frame) : Nat :=
  if f.ftype == ftIdle || f.ftype == ftAlign then 1 else ceilDiv (24 + 4 * f.payload.length) 32

/-- A frame of this device: LENGTH follows the payload; SEQ, HOPS and the CRC are filled in later. -/
def mkFrame (ftype : BitVec 8) (marker : BitVec 4) (vc : BitVec 2) (tag dest src exec batch : Nat) (payload : List Word) : Frame :=
  { ftype := ftype, marker := marker, tag := BitVec.ofNat 20 tag, dest := BitVec.ofNat 16 dest, src := BitVec.ofNat 16 src,
    seq := 0, vc := vc, exec := BitVec.ofNat 2 exec, rsv := false, len := BitVec.ofNat 11 payload.length,
    batch := BitVec.ofNat 48 batch, hops := 0, payload := payload, crc := 0 }

/-- Marker and VC of a reel frame by its message type (R252, R325); a reserved message type has those of any reel frame. -/
def reelAllowed (msg m v : Nat) : Bool :=
  match msg with
  | 1 | 3 => m == 1 && v == 1
  | 2 => m == 5 && v == 1
  | 4 => (m == 1 && v == 1) || (m == 2 && v == 2)
  | 5 | 6 | 7 | 8 | 9 | 10 => m == 2 && v == 2
  | _ => ((m == 1 || m == 5) && v == 1) || (m == 2 && v == 2)

/-- The marker of a decision by its kind (R325, R338). -/
def decisionMarker (kind : Nat) : Nat := if kind == 5 then 0 else if kind == 1 then 3 else 4

/-- The marker codes and VCs that the frame-type table allows (R325); a dash in the table is read as zero (log entry 12). -/
def frameAllowed (f : Frame) : Bool :=
  let m := f.marker.toNat
  let v := f.vc.toNat
  match f.ftype.toNat with
  | 0x00 | 0x01 | 0x02 | 0x03 | 0x04 => m == 0 && v == 0
  | 0x10 => reelAllowed (wfield (wordAt f.payload 0) 31 24) m v
  | 0x11 => m == 1 && v == 3
  | 0x20 | 0x21 | 0x28 => m == 0 && v == 0
  | 0x22 | 0x23 | 0x24 | 0x25 => m == 1 && v == 0
  | 0x26 => m == 4 && v == 0
  | 0x27 => m == decisionMarker (wfield (wordAt f.payload 0) 31 28) && v == 0
  | _ => false

/-- A reserved bit or code in a frame (R18): header, LINK_CTRL, HELLO, NOT_READY, ADMIT_REPLY, VERDICT, LAYER_COUNTS and SHARD_RATIOS,
DECISION, KV_BLOCK. Reel messages have checks of their own (R253). -/
def reservedSet (f : Frame) : Bool :=
  let w (i : Nat) : Word := wordAt f.payload i
  f.rsv || f.exec == 3 || match f.ftype.toNat with
  | 0x01 => wfield (w 0) 31 17 != 0
  | 0x03 => wfield (w 2) 7 4 != 0 || wfield (w 3) 15 0 != 0 || wfield (w 6) 31 17 != 0 || w 7 != 0
  | 0x04 => wfield (w 0) 31 24 != 0
  | 0x21 => !([1, 2, 3].contains (wfield (w 0) 31 28)) || wfield (w 0) 27 0 != 0
  | 0x23 => decide (3 < wfield (w 0) 27 24) || wfield (w 0) 23 16 != 0 || wfield (w 1) 31 16 != 0
  | 0x24 => w 1 != 0
  | 0x25 => w 1 != 0 || (List.range (wfield (w 0) 15 0)).any fun i => wfield (w (2 + 6 * i)) 31 20 != 0 || wfield (w (3 + 6 * i)) 31 14 != 0
  | 0x27 =>
    let kind := wfield (w 0) 31 28
    decide (kind = 0 ∨ 5 < kind) || wfield (w 0) 27 26 == 3 || decide (4 < wfield (w 0) 24 22) || decide (3 < wfield (w 0) 21 18) ||
      wfield (w 0) 17 15 != 0 ||
      wfield (w 2) 31 16 != 0 || wfield (w 3) 31 29 != 0 || w 4 != 0 || w 5 != 0 || w 6 != 0 || w 7 != 0
  | 0x11 => wfield (w 0) 29 14 != 0
  | _ => false

/-- FTYPEs that only the manager, and only workers, receive (R326). -/
def managerOnly (t : BitVec 8) : Bool :=
  t == ftAdmitRequest || t == ftNotice || t == ftVerdict || t == ftCounts || t == ftRatios || t == ftQuery
def workerOnly (t : BitVec 8) : Bool := t == ftAdmitReply || t == ftSkipNotice || t == ftDecision

/-- A frame whose CRC passes is malformed (R18, R326). -/
def malformed (s : State) (r : Rx) : Bool :=
  let f := r.frame
  !(frameAllowed f) || reservedSet f || !(r.blocks == (blocksOf f)) || decide (1040 < f.len.toNat) ||
  (f.ftype == ftReel && !(f.tag.toNat == wfield (wordAt f.payload 0) 19 0)) ||
  (managerOnly f.ftype && !(f.dest.toNat == managerRank s)) ||
  (workerOnly f.ftype && f.dest.toNat == managerRank s)

-- Ports.

def State.port (s : State) (p : PortIx) : Port := s.rov.ports[p]

def State.onPort (s : State) (p : PortIx) (f : Port → Port) : State :=
  s.onRov fun r => { r with ports := r.ports.set p (f r.ports[p]) }

/-- BAR0 offset of a port's registers (R344). -/
def portBase (p : PortIx) : Nat := 0x501000 + p.val * 0x100

/-- Role and parallel index that the image gives a port (R59, R317). -/
def portRole (s : State) (p : PortIx) : Nat :=
  match s.warp.image with
  | some im => im.place.ports.getD p.val 0 % 16
  | none => 0
def portPar (s : State) (p : PortIx) : Nat :=
  match s.warp.image with
  | some im => im.place.ports.getD p.val 0 / 16
  | none => 0

/-- The receive buffers of R327, in credits. -/
def fullCredits : Nat × Nat × Nat × Nat := (2048, 12288, 8192, 10240)

/-- Put a frame on the line: it is counted (R344) and leaves with its CRC. -/
def putWire (p : PortIx) (f : Frame) (s : State) : State :=
  countEvt (portBase p + 0x14) (s.onPort p fun q => { q with wire := sealFrame f :: q.wire })

/-- Put several frames on the line, in order. -/
def putWires (p : PortIx) : List Frame → State → State
  | [], s => s
  | f :: fs, s => putWires p fs (putWire p f s)

/-- Bytes in a retry buffer (R329). -/
def retryBytes (l : List Frame) : Nat := (l.map fun f => 32 * (blocksOf f)).sum

/-- A frame fits: credits of its VC (R327) and room in the 1 MiB retry buffer (R329). -/
def Port.fits (q : Port) (credits : Nat) (f : Frame) : Bool :=
  decide ((blocksOf f) ≤ credits) && decide (retryBytes q.retry + 32 * (blocksOf f) ≤ 1048576)

/-- The first frame of a queue, with what is left of the queue and of the credits, where it fits. -/
def Port.takeFrom (q : Port) (l : List Queued) (c : Nat) (rest : List Queued → Nat → Port) : Option (Queued × Port) :=
  match l with
  | f :: r => if q.fits c f.frame then some (f, rest r (c - blocksOf f.frame)) else none
  | [] => none

def Port.takeVc0 (q : Port) : Option (Queued × Port) := q.takeFrom q.q0 q.c0 fun r c => { q with q0 := r, c0 := c }
def Port.takeRescale (q : Port) : Option (Queued × Port) := q.takeFrom q.qRescale q.c1 fun r c => { q with qRescale := r, c1 := c }

/-- One of VC1 to VC3; the turn goes to the one after it. -/
def Port.takeTurn (q : Port) (t : Fin 3) : Option (Queued × Port) :=
  match t with
  | 0 => q.takeFrom q.q1 q.c1 fun r c => { q with q1 := r, c1 := c, turn := 1 }
  | 1 => q.takeFrom q.q2 q.c2 fun r c => { q with q2 := r, c2 := c, turn := 2 }
  | 2 => q.takeFrom q.q3 q.c3 fun r c => { q with q3 := r, c3 := c, turn := 0 }

/-- The next frame that may be sent, with the port after it, in the order of R328; no VC waits on another's credits. -/
def Port.nextFrame (q : Port) : Option (Queued × Port) :=
  q.takeVc0.or (q.takeRescale.or ((q.takeTurn q.turn).or ((q.takeTurn (q.turn + 1)).or (q.takeTurn (q.turn + 2)))))

/-- Blocks of one VC become returnable (R327). -/
def giveBack (p : PortIx) (vc blocks : Nat) (s : State) : State :=
  s.onPort p fun q =>
    match vc with
    | 0 => { q with r0 := q.r0 + blocks }
    | 1 => { q with r1 := q.r1 + blocks }
    | 2 => { q with r2 := q.r2 + blocks }
    | _ => { q with r3 := q.r3 + blocks }

/-- A relayed frame leaves its queue: its credits go back to the port it came by. -/
def Queued.done (x : Queued) (s : State) : State :=
  match x.via with
  | some p => giveBack p x.frame.vc.toNat (blocksOf x.frame) s
  | none => s

/-- A frame of VC0 to VC3: it has a SEQ (R329). -/
def sequenced (f : Frame) : Bool := decide (0x10 ≤ f.ftype.toNat)

/-- A sequenced frame is refused and waits for its back-off: nothing is sent behind it (R322, R330). -/
def Port.blocked (q : Port) : Bool := q.refused.any sequenced

/-- Send up to `n` queued frames of a JOINED port: each takes the next SEQ and a copy stays in the retry buffer (R329). -/
def pumpN (p : PortIx) : Nat → State → State
  | 0, s => s
  | n + 1, s =>
    if (s.port p).st == .joined && !(s.port p).blocked then
      match (s.port p).nextFrame with
      | none => s
      | some (x, q) =>
        let g := { x.frame with seq := BitVec.ofNat 16 q.txSeq }
        pumpN p n <| x.done <|
          putWire p g (s.onPort p fun _ => { q with txSeq := (q.txSeq + 1) % 65536, retry := q.retry ++ [g] })
    else s

/-- Frames waiting for a SEQ at a port. -/
def Port.waiting (q : Port) : Nat := q.q0.length + q.qRescale.length + q.q1.length + q.q2.length + q.q3.length

/-- Send what may be sent at a port. -/
def pump (p : PortIx) (s : State) : State := pumpN p (s.port p).waiting s

/-- Put a frame into its queue at a port and send what may be sent. -/
def queueVia (via : Option PortIx) (p : PortIx) (f : Frame) (s : State) : State :=
  let x : Queued := ⟨f, via⟩
  pump p <| s.onPort p fun q =>
    if f.marker == 5 then { q with qRescale := q.qRescale ++ [x] }
    else match f.vc.toNat with
      | 0 => { q with q0 := q.q0 ++ [x] }
      | 1 => { q with q1 := q.q1 ++ [x] }
      | 2 => { q with q2 := q.q2 ++ [x] }
      | _ => { q with q3 := q.q3 ++ [x] }

def queueFrame (p : PortIx) (f : Frame) (s : State) : State := queueVia none p f s

-- Routes (R318, R319).

/-- The port of a role and parallel index. -/
def portOf (s : State) (role par : Nat) : Option PortIx :=
  (List.finRange 9).find? fun p => portRole s p == role && portPar s p == par

/-- The number of parallel ports of a role. -/
def portCount (s : State) (role : Nat) : Nat := ((List.finRange 9).filter fun p => portRole s p == role).length

def torusX (s : State) : Nat := match s.warp.image with | some i => i.job.torusX | none => 0
def torusY (s : State) : Nat := match s.warp.image with | some i => i.job.torusY | none => 0
def isTorus (s : State) : Bool := match s.warp.image with | some i => i.job.topology == 1 | none => false
def isFat (s : State) : Bool := match s.warp.image with | some i => i.job.topology == 2 | none => false

/-- The + direction is the shorter one from `a` to `b` round `n`, or the equal one. -/
def plusWay (a b n : Nat) : Bool := decide (2 * ((b + n - a % n) % n) ≤ n)

/-- The port on which this device sends a unicast frame on (R318). -/
def unicastPort (s : State) (src dest : Nat) : Option PortIx :=
  let n := deviceCount s
  if isTorus s then
    let tx := torusX s
    let me := rankOf s
    if me % tx != dest % tx then portOf s (if plusWay (me % tx) (dest % tx) tx then 3 else 4) 0
    else portOf s (if plusWay (me / tx) (dest / tx) (torusY s) then 5 else 6) 0
  else
    let par := if isFat s then (src + dest) % portCount s 1 else 0
    portOf s (if plusWay src dest n then 1 else 2) par

/-- Send a frame on by a port, where the plan names one. -/
def sendOn (p : Option PortIx) (f : Frame) (s : State) : State :=
  match p with
  | some q => queueFrame q f s
  | none => s

/-- A unicast frame to another rank. -/
def sendUnicast (f : Frame) (s : State) : State := sendOn (unicastPort s f.src.toNat f.dest.toNat) f s

/-- Does a broadcast copy that has come `d` steps in one direction of a ring of `n` go on? The + half serves ⌈(n − 1)/2⌉ devices,
the − half the rest (R319). -/
def goesOn (plus : Bool) (n d : Nat) : Bool := decide (d < if plus then n / 2 else n - 1 - n / 2)

/-- Send copies of a broadcast along one axis: `roleP` and `roleM` are the two port roles, `c` this device's coordinate, `o` the
origin's, and `only` the one direction of travel, if it arrived along this axis. -/
def spread (roleP roleM n o c : Nat) (only : Option Bool) (f : Frame) (s : State) : State :=
  let dPlus := (c + n - o % n) % n
  let dMinus := (o + n - c % n) % n
  let s1 := if only != some false && goesOn true n dPlus then sendOn (portOf s roleP 0) f s else s
  if only != some true && goesOn false n dMinus then sendOn (portOf s roleM 0) f s1 else s1

/-- Pass a broadcast on (R319); `arrival` is the role of the port it came in by, none at the manager. A frame that came in by a
−ring, −x or −y port travels in the + direction. -/
def passBroadcast (arrival : Option Nat) (f : Frame) (s : State) : State :=
  let n := deviceCount s
  let m := f.src.toNat
  let me := rankOf s
  let dir : Option Bool := arrival.map fun r => r % 2 == 0
  if isTorus s then
    let tx := torusX s
    match arrival with
    | some 3 | some 4 => spread 3 4 tx (m % tx) (me % tx) dir f s
    | _ => spread 3 4 tx (m % tx) (me % tx) none f (spread 5 6 (torusY s) (m / tx) (me / tx) dir f s)
  else spread 1 2 n m me dir f s

/-- The manager broadcasts (R319). -/
def broadcast (f : Frame) (s : State) : State := passBroadcast none f s

-- Link control (R329, R330).

/-- Send LINK_CTRL with the credits to return; `nak` asks for a resend from NEXT_SEQ. -/
def sendLinkCtrl (p : PortIx) (nak : Bool) (s : State) : State :=
  let q := s.port p
  putWire p (mkFrame ftLinkCtrl 0 0 0 0 (rankOf s) 0 0
      [w32 (b2n nak * 65536 + q.rxSeq), w32 (q.r1 % 65536 * 65536 + q.r0 % 65536), w32 (q.r3 % 65536 * 65536 + q.r2 % 65536)])
    (s.onPort p fun x => { x with r0 := 0, r1 := 0, r2 := 0, r3 := 0, nakSent := x.nakSent || nak })

/-- NAK the next frame expected: for a failed CRC or an uncorrectable codeword each time, for a gap in SEQ once until it arrives (R315,
R330). -/
def nakNow (p : PortIx) (s : State) : State := sendLinkCtrl p true s
def sendNak (p : PortIx) (s : State) : State := if (s.port p).nakSent then s else sendLinkCtrl p true s

/-- Enter RETRAINING from JOINED, or TRAINING from UP; retry buffer and sequence state stay (R321, R324). DESIGN CHOICE: a port UP again that has
not rejoined enters RETRAINING, counted and without event 0x4002 (log entry 191). -/
def retrainPort (p : PortIx) (cause : Nat) (s : State) : State :=
  match (s.port p).st with
  | .joined =>
    raise 0x4002 [p.val, cause] <| countErr (portBase p + 0x3C) <|
      s.onPort p fun q => { q with st := .retraining, resume := true, hello := none, alignRx := none, attemptTick := s.clk.refTimer }
  | .up =>
    (if (s.port p).resume then countErr (portBase p + 0x3C) s else s).onPort p fun q =>
      { q with st := if q.resume then .retraining else .training, hello := none, alignRx := none, attemptTick := s.clk.refTimer }
  | _ => s

/-- The codes of RetrainCause; a retrain that the host asks for carries 4 (log entry 10). -/
def causeCode : RetrainCause → Nat
  | .lock => 0
  | .alignGap => 1
  | .retryLimit => 2
  | .vc0Credit => 3

/-- The retry limit (R330). -/
def retryLimit (p : PortIx) (cause : RetrainCause) (s : State) : State :=
  retrainPort p (causeCode cause) (raise 0x4011 [p.val] s)

/-- Resend every unacknowledged frame in order (R330); after eight resends in a row the next is the limit. -/
def resendAll (p : PortIx) (s : State) : State :=
  let q := s.port p
  if q.retry.isEmpty then s
  else if 8 ≤ q.resends then retryLimit p .retryLimit s
  else putWires p q.retry (count 48 (portBase p + 0x34) q.retry.length (s.onPort p fun x => { x with resends := x.resends + 1 }))

-- HELLO (R323).

/-- The job tag: bytes 0 to 7 of the logical hash, zero with no image. -/
def jobTag (s : State) : List Byte := if s.warp.image.isSome then s.warp.logicalHash.take 8 else []

/-- This device's HELLO at a port. -/
def helloFrame (s : State) (p : PortIx) : Frame :=
  let q := s.port p
  mkFrame ftHello 0 0 0 0 (rankOf s) 0 0
    [w32 (leNat ((jobTag s).take 4)), w32 (leNat ((jobTag s).drop 4)),
     w32 (rankOf s * 65536 + portRole s p * 4096 + portPar s p % 16 * 256 + p.val), w32 (deviceCount s * 65536),
     w32 moduleSerial, w32 (moduleSerial / 2 ^ 32), w32 (b2n q.resume * 65536 + (if q.resume then q.rxSeq else 0)), 0]

def sendHello (p : PortIx) (s : State) : State := putWire p (helloFrame s p) s

/-- What a HELLO payload says. -/
def readHello (ws : List Word) : HelloInfo :=
  { tagLo := wordAt ws 0, tagHi := wordAt ws 1, rank := wfield (wordAt ws 2) 31 16, role := wfield (wordAt ws 2) 15 12,
    parallel := wfield (wordAt ws 2) 11 8, port := wfield (wordAt ws 2) 3 0, deviceCount := wfield (wordAt ws 3) 31 16,
    serial := (wordAt ws 4).toNat + 2 ^ 32 * (wordAt ws 5).toNat, resume := wbit (wordAt ws 6) 16,
    nextSeq := wfield (wordAt ws 6) 15 0 }

/-- The rank of the neighbour that a role faces (R317). -/
def neighbour (s : State) (role : Nat) : Option Nat :=
  let r := rankOf s
  let n := deviceCount s
  let tx := torusX s
  let ty := torusY s
  match role with
  | 1 => some ((r + 1) % n)
  | 2 => some ((r + n - 1) % n)
  | 3 => some (r / tx * tx + (r % tx + 1) % tx)
  | 4 => some (r / tx * tx + (r % tx + tx - 1) % tx)
  | 5 => some ((r / tx + 1) % ty * tx + r % tx)
  | 6 => some ((r / tx + ty - 1) % ty * tx + r % tx)
  | _ => none

/-- The opposite role: 1 and 2, 3 and 4, 5 and 6. -/
def opposite (role : Nat) : Nat := if role % 2 == 1 then role + 1 else role - 1

/-- A partner's HELLO with an image is accepted (R323). A partner without an image gives DEVICE_COUNT zero. -/
def helloMatches (s : State) (p : PortIx) (h : HelloInfo) : Bool :=
  s.warp.image.isSome && h.deviceCount == deviceCount s && h.tagLo == w32 (leNat ((jobTag s).take 4)) &&
  h.tagHi == w32 (leNat ((jobTag s).drop 4)) && neighbour s (portRole s p) == some h.rank &&
  h.role == opposite (portRole s p) && h.parallel == portPar s p

/-- The sequence state with which a port joins: resumed, the transmitter resends from the partner's NEXT_SEQ (R324); otherwise
both ends start afresh with every credit of R327 (log entry 14). -/
def joinPort (p : PortIx) (h : HelloInfo) (s : State) : State :=
  let q := s.port p
  if q.resume && h.resume then
    let done := (h.nextSeq + 65536 - (q.txSeq + 65536 - q.retry.length) % 65536) % 65536
    let left := q.retry.drop done
    pump p <| putWires p left <| count 48 (portBase p + 0x34) left.length <|
      s.onPort p fun x => { x with st := .joined, resume := false, retry := left, resends := 0, nakSent := false, refused := [] }
  else
    pump p <| s.onPort p fun x =>
      { x with st := .joined, resume := false, retry := [], resends := 0, nakSent := false, refused := [], txSeq := 0, rxSeq := 0
               c0 := fullCredits.1,
               c1 := fullCredits.2.1, c2 := fullCredits.2.2.1, c3 := fullCredits.2.2.2, r0 := 0, r1 := 0, r2 := 0, r3 := 0 }

/-- Judge a partner's HELLO at an UP or JOINED port (R323). -/
def takeHello (p : PortIx) (h : HelloInfo) (s : State) : State :=
  let s1 := s.onPort p fun q => { q with hello := some h, partnerRank := h.rank }
  if s.warp.image.isNone && h.deviceCount == 0 then s1.onPort p fun q => { q with st := .up }
  else if helloMatches s p h then
    if (s.port p).st == .joined then s1 else raise 0x4001 [p.val] (joinPort p h s1)
  else raise 0x4004 [p.val, h.rank, h.role, h.tagLo.toNat, h.tagHi.toNat] (s1.onPort p fun q => { q with st := .up })

/-- After a load or an unload each UP or JOINED port sends HELLO again and judges the one its partner sent last (R323). -/
def helloAgain (s : State) (p : PortIx) : State :=
  if (s.port p).st == .up || (s.port p).st == .joined then
    let s1 := sendHello p s
    match (s.port p).hello with
    | some h => takeHello p h s1
    | none => s1
  else s

def helloAll (s : State) : State := (List.finRange 9).foldl helloAgain s

/-- Enter UP and send HELLO (R321, R323). -/
def portUp (p : PortIx) (s : State) : State := sendHello p (s.onPort p fun q => { q with st := .up, hello := none })

/-- A port goes DOWN, or is disabled while it has a role (R324, R344): its retry buffer goes, and a port with a role leaves a fault
outstanding until the job is reloaded. -/
def portGone (st : PState) (p : PortIx) (s : State) : State :=
  let t := raise 0x4003 [p.val] <|
    s.onPort p fun q => { q with st := st, retry := [], resends := 0, resume := false, refused := [], hello := none, alignRx := none }
  if portRole s p != 0 then faultNow (t.onStp fun b => { b with portFault := true }) else t

-- Reception.

/-- Answer NOT_READY (R322): no state of the link changes. -/
def answerNotReady (p : PortIx) (f : Frame) (s : State) : State :=
  countEvt (portBase p + 0x40) <|
    putWire p (mkFrame ftNotReady 0 0 0 f.src.toNat (rankOf s) 0 0 [w32 (f.ftype.toNat * 65536 + f.seq.toNat)]) s

/-- Drop the queued frames without a SEQ, and the held ones, of a revoked execution: markers PROVISIONAL and RESCALE (R333). -/
def revoked (batch exec : Nat) (f : Frame) : Bool :=
  (f.marker == 1 || f.marker == 5) && f.batch.toNat == batch && f.exec.toNat == exec

/-- Frames that wait for a SEQ at a port, and the port with those that `keep` leaves. -/
def Port.queued (q : Port) : List Queued := q.q0 ++ q.qRescale ++ q.q1 ++ q.q2 ++ q.q3
def Port.keepQueued (keep : Frame → Bool) (q : Port) : Port :=
  let k (l : List Queued) := l.filter fun x => keep x.frame
  { q with q0 := k q.q0, qRescale := k q.qRescale, q1 := k q.q1, q2 := k q.q2, q3 := k q.q3 }

/-- Drop frames that wait for a SEQ or are held: their credits go back (R327). -/
def dropFrames (drop : Frame → Bool) (s : State) : State :=
  let gone := ((List.finRange 9).flatMap fun p => (s.port p).queued).filter fun x => drop x.frame
  let held := s.rov.held.filter fun r => drop r.frame
  let s1 := s.onRov fun r =>
    { r with ports := r.ports.map (Port.keepQueued fun f => !drop f), held := r.held.filter fun x => !drop x.frame }
  held.foldl (fun t r => giveBack r.port r.frame.vc.toNat r.blocks t) (gone.foldl (fun t x => x.done t) s1)

/-- A REVOKE-marked frame acts on the device that it passes or reaches (R333). -/
def dropRevoked (batch exec : Nat) (s : State) : State := dropFrames (revoked batch exec) s

/-- What R332 and R488 make of a frame addressed to this device. -/
inductive Fate where
  | deliver | hold | discard | outOfOrder
  deriving DecidableEq, Repr

/-- Fate by the batch alone (R488): `low` is the lowest batch delivered. -/
def fateVc0 (b low i : Nat) : Fate := if b < low then .discard else if b ≤ i then .deliver else .outOfOrder

/-- Fate of provisional data of batch `b` and execution `e`. -/
def fateProvisional (b e i x : Nat) : Fate :=
  if b == i then (if e == x then .deliver else if x < e then .hold else .discard)
  else if b == i + 1 then .hold
  else if b < i then .discard
  else .outOfOrder

/-- A key or value block waits for its ring step (R213, R332); so does one whose block this pass of the ring has already delivered. -/
def beforeRingStep (s : State) (f : Frame) : Bool :=
  let layer := wfield (wordAt f.payload 0) 13 0
  let part := wfield (wordAt f.payload 0) 31 30
  let shard := wfield (wordAt f.payload 1) 31 16
  let block := wfield (wordAt f.payload 1) 15 0
  wfield (wordAt f.payload 3) 31 16 != assocGet 0 layer s.stp.ring ||
    s.reel.kv.any fun x => x.part == part && x.layer == layer && x.shard == shard && x.block == block && x.delivered

/-- Fate of a frame at its endpoint. -/
def fate (s : State) (f : Frame) : Fate :=
  let i := s.stp.batch
  let b := f.batch.toNat
  let msg := wfield (wordAt f.payload 0) 31 24
  match f.ftype.toNat with
  | 0x20 | 0x21 => .deliver
  | 0x22 | 0x23 | 0x24 | 0x25 | 0x26 => fateVc0 b i i
  | 0x28 => fateVc0 b (i - 1) i
  | 0x27 => if wfield (wordAt f.payload 0) 31 28 == 5 then .deliver else if b < i then .deliver else fateVc0 b i i
  | _ =>
    if f.ftype == ftReel && (msg == 9 || msg == 10) then .deliver
    else if f.marker == 2 then (if (b + 1) % 2 ^ 48 == i then .deliver else if b == i then .hold else .outOfOrder)
    else
      match fateProvisional b f.exec.toNat i s.stp.exec with
      | .deliver => if f.ftype == ftKv && beforeRingStep s f then .hold else .deliver
      | y => y

/-- A frame whose content fails parity inside the device is not used (R304, R305; log entry 177 for the address of event 0x2405). -/
def frameParity (boundary : Fin 8) (s : State) : State := faultNow (raise 0x2405 [boundary.val, 0] s)

/-- Treat a frame addressed to this device by its fate; `k` takes a frame that is delivered. A held frame keeps its credits; `first`
is false for one that has been held before, which is not counted again (R344). -/
def endpoint (first : Bool) (k : Rx → State → State) (r : Rx) (s : State) : State :=
  let back := giveBack r.port r.frame.vc.toNat r.blocks
  match fate s r.frame with
  | .deliver => match r.parity with | some b => frameParity b (back s) | none => k r (back s)
  | .hold => (if first then countEvt 0x500028 s else s).onRov fun b => { b with held := b.held ++ [r] }
  | .discard => back s
  | .outOfOrder => faultNow (raise 0x4020 [r.port.val, r.frame.batch.toNat] (back s))

/-- The port by which a relay forwards a unicast frame (R318): in a ring in the direction in which it arrived, in a torus as from its own
position. -/
def relayPort (s : State) (r : Rx) : Option PortIx :=
  let src := r.frame.src.toNat
  let dest := r.frame.dest.toNat
  if isTorus s then unicastPort s src dest
  else portOf s (opposite (portRole s r.port)) (if isFat s then (src + dest) % portCount s 1 else 0)

/-- An accepted frame: relayed, delivered here, or both (R318, R319, R320, R333). -/
def accepted (k : Rx → State → State) (r : Rx) (s : State) : State :=
  let f := r.frame
  let back := giveBack r.port f.vc.toNat r.blocks
  if malformed s r || f.hops.toNat == deviceCount s then faultNow (raise 0x4010 [r.port.val, f.ftype.toNat] (back s))
  else
    let s1 := if f.marker == 4 then dropRevoked f.batch.toNat f.exec.toNat s else s
    let g := { f with hops := f.hops + 1 }
    if f.dest == 0xFFFF then
      let s2 := passBroadcast (some (portRole s r.port)) g s1
      endpoint true k r (if s2.rov.ports == s1.rov.ports then s2 else countEvt 0x500020 s2)
    else if f.dest.toNat == rankOf s then endpoint true k r s1
    else
      match relayPort s r with
      | some q => queueVia (some r.port) q g (countEvt 0x500020 s1)
      | none => back s1

/-- A sequenced frame arrives at a port (R321, R322, R326, R330). DESIGN CHOICE: a SEQ less than 32,768 ahead is a gap, any other a duplicate
(log entry 190). -/
def receive (k : Rx → State → State) (r : Rx) (s : State) : State :=
  let p := r.port
  let f := r.frame
  let q := s.port p
  let good := f.crc == (frameSum f)
  match q.st with
  | .deaf => if good then answerNotReady p f s else s
  | .up => if good then answerNotReady p f s else nakNow p (countErr (portBase p + 0x30) s)
  | .joined =>
    let s0 := s.onPort p fun x => { x with partnerNotReady := false }
    if !good then nakNow p (countErr (portBase p + 0x30) s0)
    else if f.seq.toNat == q.rxSeq then
      accepted k r <| countEvt (portBase p + 0x1C) <|
        s0.onPort p fun x => { x with rxSeq := (x.rxSeq + 1) % 65536, nakSent := false }
    else if (f.seq.toNat + 65536 - q.rxSeq) % 65536 < 32768 then sendNak p s0
    else s0
  | _ => s

/-- A link frame (HELLO, LINK_CTRL, NOT_READY) arrives: it has no sequence number (R321, R322). -/
def receiveLink (k : Rx → State → State) (r : Rx) (s : State) : State :=
  let p := r.port
  let f := r.frame
  let good := f.crc == (frameSum f)
  match (s.port p).st with
  | .deaf => if good then answerNotReady p f s else s
  | .up | .joined =>
    let s0 := s.onPort p fun x => { x with partnerNotReady := false }
    if !good then nakNow p (countErr (portBase p + 0x30) s0)
    else if !(frameAllowed f) || reservedSet f || !(r.blocks == (blocksOf f)) then faultNow (raise 0x4010 [p.val, f.ftype.toNat] s0)
    else k r (countEvt (portBase p + 0x1C) s0)
  | _ => s

end Sys2Proof.Machine
end

