-- ==== Sys2Proof/Machine/Flags.lean ====
section
/-! DEFINITION. Flags (R128 to R130, R141, R142): tile status, step flags, FIRST_INVALID, the core's events, and the non-finite
flag of the step with its notices (R205, R335). -/

namespace Sys2Proof.Machine

/-- BAR0 offset of a core's registers (R144's map). -/
def coreBase (c : Nat) : Nat := 0x1000000 + c / 144 * 0x1000000 + c / 12 % 12 * 0x100000 + c % 12 * 0x10000

/-- Sticky tile flags after an operation (R141). -/
def TileFlags.merge (fl : Flags) (poison : Bool) (t : TileFlags) : TileFlags :=
  { t with poison := t.poison || poison, invalid := t.invalid || fl.invalid, inf := t.inf || fl.inf, ovf := t.ovf || fl.ovf,
           underflow := t.underflow || fl.underflow }

/-- OR of bits [6:1] of two status words (R142). -/
def TileFlags.or (a b : TileFlags) : TileFlags :=
  { swWritten := a.swWritten, fault := a.fault || b.fault, poison := a.poison || b.poison, invalid := a.invalid || b.invalid,
    inf := a.inf || b.inf, ovf := a.ovf || b.ovf, underflow := a.underflow || b.underflow }

/-- Bits [7:1] of a status word (R141). -/
def TileFlags.bits (t : TileFlags) : Nat :=
  b2n t.swWritten * 128 + b2n t.fault * 64 + b2n t.poison * 32 + b2n t.invalid * 16 + b2n t.inf * 8 + b2n t.ovf * 4 +
    b2n t.underflow * 2

/-- Codes of the phase (map of SPD_FIRST_INVALID_0). -/
def phaseCode : Phase → Nat
  | .fwd => 0
  | .bAct => 1
  | .bWgt => 2
  | .bRecomp => 3
  | .lowRank => 4
  | .selfTest => 5

/-- The five words of FIRST_INVALID (R129). -/
def firstInvalidWords (f : InvalidAt × Bool × Word) : List Word :=
  let i := f.1
  let c := match i.chunk with | some n => n % 2 ^ 19 | none => 2 ^ 19
  [w32 (2 ^ 31 + b2n f.2.1 * 2 ^ 30 + phaseCode i.phase * 2 ^ 27 + i.cause * 2 ^ 23 + b2n i.eng * 2 ^ 22 + i.layer),
   w32 (i.elemRow * 2 ^ 17 + i.tileRow % 2 ^ 17), w32 (i.elemCol * 2 ^ 17 + i.tileCol % 2 ^ 17), w32 c, f.2.2]

-- The non-finite flag (R130, R205, R335).

/-- Abandon what a skip notice drops (R205, R487, R288): hanks not delivered, and every shadow leaf. -/
def ReelBlk.abandon (r : ReelBlk) : ReelBlk :=
  { r with
    hanks := r.hanks.map fun h =>
      if h.st == .delivered || h.st == .nonfinite then h else { h with st := .abandoned, held := [] }
    shards := r.shards.map fun x => { x with shadowReady := false, abandoned := true, shadowLeaf := [] } }

/-- Every chunk of a tile's K range has entered it. -/
def workComplete (w : TileWork) : Bool := decide (ceilDiv w.kExtent 32 ≤ w.chunkHi)

/-- Weight-gradient or low-rank work of one of these layers that has not entered its tile whole. -/
def partGradient (which : Nat → Bool) (parts : List TileWork) : Bool :=
  match parts.getLast? with
  | some w => (w.phase == .bWgt || w.phase == .lowRank) && which w.layer && !workComplete w
  | none => false

/-- A tile whose rest is dropped is free. -/
def AccTile.drop (t : AccTile) : AccTile := { t with st := .idle, parts := [], ranBy := [] }

/-- Change every tile of a core. -/
def CoreState.onTiles (f : AccTile → AccTile) (k : CoreState) : CoreState :=
  { k with e0t0 := f k.e0t0, e0t1 := f k.e0t1, e1t0 := f k.e1t0, e1t1 := f k.e1t1 }

/-- Gradient tiles of these layers that wait for work which is dropped or lost are given up, in their engines and in the hand-over slots
(R205, R487). -/
def dropPartGradients (which : Nat → Bool) (s : State) : State :=
  { s with
    cores := s.cores.map fun c => (c.1, c.2.onTiles fun t => if partGradient which t.parts then t.drop else t)
    res := { s.res with slots := s.res.slots.filter fun x => !partGradient which x.parts } }

/-- A device holds the skip notice of the running execution (R205). -/
def holdSkip (s : State) : State :=
  dropPartGradients (fun _ => true) ((s.onStp fun b => { b with skipHeld := true }).onReel ReelBlk.abandon)

/-- The manager's answer to the first notice of an undecided execution (R335): SKIP_NOTICE with REVOKE, held by itself too. -/
def managerNotice (s : State) : State :=
  if s.job.skipNoticeSent then s
  else
    holdSkip <| dropRevoked s.stp.batch s.stp.exec <|
      broadcast (mkFrame ftSkipNotice 4 0 0 0xFFFF (rankOf s) s.stp.exec s.stp.batch [])
        (s.onJob fun j => { j with skipNoticeSent := true })

/-- The device's non-finite flag sets (R130): once per execution it tells the manager (R335). -/
def noteNonfinite (s : State) : State :=
  if s.stp.nonfinite then s
  else
    let s1 := s.onStp fun b => { b with nonfinite := true, noticeSent := true }
    if isManager s then managerNotice s1
    else sendUnicast (mkFrame ftNotice 1 0 0 (managerRank s) (rankOf s) s.stp.exec s.stp.batch []) s1

/-- The non-finite flag where a condition holds. -/
def noteIf (c : Bool) (s : State) : State := if c then noteNonfinite s else s

-- INVALID in a core (R129).

/-- Settings of INVALID in a core: they count, one of them may be latched, and event 0x1020 goes out once per batch. Which setting
reaches the latch first is not defined: a free choice among those that occurred. The event carries it also where the latch still holds an
earlier batch's (log entry 141). -/
def coreInvalid (core : Nat) (sets : List InvalidAt) (s : State) : State :=
  match sets with
  | [] => s
  | x :: xs =>
    let pick := freePick (xs.length + 1) s
    let at' := (x :: xs).getD pick.1 x
    let rec' : InvalidAt × Bool × Word := (at', decide (0 < s.stp.exec), w32 s.stp.batch)
    let c := pick.2.core core
    let s1 := pick.2.onCore core fun k =>
      { k with firstInvalid := if k.firstInvalid.isNone then some rec' else k.firstInvalid, raisedInvalid := true }
    raiseIf (!c.raisedInvalid) 0x1020 (core :: (firstInvalidWords rec').map (·.toNat)) <|
      count 48 (coreBase core + 0x54) sets.length s1

/-- The first INF in a core in a batch (event 0x1021). -/
def coreInf (core : Nat) (inf : Bool) (s : State) : State :=
  if inf && !(s.core core).raisedInf then
    raise 0x1021 [core] (s.onCore core fun k => { k with raisedInf := true })
  else s

/-- What an operation's INVALID and INF settings do beyond the tile: latch, events, the step's non-finite flag (R130). -/
def coreReports (core : Nat) (fl : Flags) (sets : List InvalidAt) (s : State) : State :=
  noteIf (fl.inf || fl.invalid) (coreInf core fl.inf (coreInvalid core sets s))

-- Tiles.

/-- One of the four tiles of a core. -/
def CoreState.tile (k : CoreState) (eng tile : Bool) : AccTile :=
  match eng, tile with
  | false, false => k.e0t0
  | false, true => k.e0t1
  | true, false => k.e1t0
  | true, true => k.e1t1

def CoreState.setTile (k : CoreState) (eng tile : Bool) (t : AccTile) : CoreState :=
  match eng, tile with
  | false, false => { k with e0t0 := t }
  | false, true => { k with e0t1 := t }
  | true, false => { k with e1t0 := t }
  | true, true => { k with e1t1 := t }

def State.tile (s : State) (a : AccRef) : AccTile := (s.core a.core.val).tile a.eng a.tile

def State.onTile (s : State) (a : AccRef) (f : AccTile → AccTile) : State :=
  s.onCore a.core.val fun k => k.setTile a.eng a.tile (f (k.tile a.eng a.tile))

/-- Byte address of a tile's element (0, 0) in accumulator storage. -/
def accBase (a : AccRef) : Nat := ((a.core.val * 2 + b2n a.eng) * 2 + b2n a.tile) * 65536

/-- A tile's elements. -/
def accWords (s : State) (a : AccRef) : List Word := s.acc.readWords (accBase a) 16384

/-- The status word of a tile (R141). -/
def tileStatus (t : AccTile) : Word :=
  let st := match t.st with | .idle => 0 | .accumulating => 1 | .slub => 2 | .draining => 3
  w32 (st * 65536 + t.flags.bits)

/-- SPD_STEP_FLAGS of a core after flags are ORed in (R142); FAULT means a fault outstanding. -/
def stepFlags (core : Nat) (t : TileFlags) (s : State) : State :=
  let s1 := s.onCore core fun k => { k with stepFlags := k.stepFlags.or t }
  if t.fault then faultNow s1 else s1

/-- A tile counter of a drain, and the first event of its kind in the core and batch (events 0x1022, 0x1023). -/
def drainedWith (core off : Nat) (code : Half) (on already : Bool) (mark : CoreState → CoreState) (s : State) : State :=
  if on then raiseIf (!already) code [core] ((countEvt (coreBase core + off) s).onCore core mark) else s

/-- At a drain (R142): step flags, the OVF and UNDERFLOW tile counters and their events. -/
def drainFlags (a : AccRef) (t : TileFlags) (s : State) : State :=
  let c := a.core.val
  let k := s.core c
  drainedWith c 0x4C 0x1023 t.underflow k.raisedUnderflow (fun k => { k with raisedUnderflow := true }) <|
    drainedWith c 0x44 0x1022 t.ovf k.raisedOvf (fun k => { k with raisedOvf := true }) (stepFlags c t s)

end Sys2Proof.Machine
end

