-- ==== Sys2Proof/Machine/CoreRegs.lean ====
section
/-! DEFINITION. The registers and the spool window of a core (R141 to R144). -/

namespace Sys2Proof.Machine

/-- The window and the CLEAR bits are open to the host (R144): no step runs, and the core is in service. -/
def windowOpen (s : State) (core : Nat) : Bool := !s.stp.inStep && !quarantined s core

/-- Offset of a tile's status register. -/
def accStatusOff (a : AccRef) : Nat := coreBase a.core.val + 0x70 + 8 * b2n a.eng + 4 * b2n a.tile

/-- CLEAR of a tile's status word (R141): [7:1] go to zero. Outside the access rule it is not accepted. -/
def accClear (a : AccRef) (s : State) : State :=
  if windowOpen s a.core.val then s.onTile a fun t => { t with flags := TileFlags.clear } else s

def execAccClear (acc : AccRef) (s : State) : Out := .next (gated (accStatusOff acc) (accClear acc) s)

/-- A write of SPD_WINDOW_PAGE (R143). -/
def writePage (core : Nat) (val : Word) (s : State) : State :=
  let p := wfield val 7 0
  s.onCore core fun k => if p ≤ 55 then { k with page := p } else { k with pageRefused := true }

def execWindowPageWrite (core : CoreIx) (val : Word) (s : State) : Out :=
  .next (gated (coreBase core.val + 0x60) (writePage core.val val) s)

/-- What a page shows (R143): a byte address in the spools, or a tile and a byte offset in it. -/
inductive WindowPlace where
  | spool (addr : Nat)
  | tile (a : AccRef) (off : Nat)
  deriving DecidableEq, Repr

def windowPlace (core : CoreIx) (page word : Nat) : WindowPlace :=
  if page ≤ 47 then .spool (core.val * 1572864 + page * 32768 + word * 4)
  else
    let i := (page - 48) / 2
    .tile ⟨core, decide (2 ≤ i), i % 2 == 1⟩ ((page - 48) % 2 * 32768 + word * 4)

/-- The data of a read, as the bus returns it. -/
def busRead (data : List Byte) (poisoned : Bool) (s : State) : State :=
  s.onOut fun o => { o with lastRead := some ⟨data, poisoned⟩ }

/-- A word of the spool as the window shows it: page 47 shows the descriptor queue (R143, R290). -/
def windowWord (core : CoreIx) (page word a : Nat) (s : State) : List Byte :=
  let plain := s.spool.readBytes a 4
  if page == 47 then leBytes 4 (Config.bank47 (s.core core.val).queue word (w32 (leNat plain))).toNat else plain

/-- A window access that is open (R143). -/
def windowAccess (core : CoreIx) (word : Nat) (access : Access) (s : State) : State :=
  match windowPlace core (s.core core.val).page word, access with
  | .spool a, .read => busRead (windowWord core (s.core core.val).page word a s) false s
  | .spool a, .write v => { s with spool := s.spool.writeWords a [v] }
  | .tile a off, .read => busRead (s.acc.readBytes (accBase a + off) 4) false s
  | .tile a off, .write v =>
    ({ s with acc := s.acc.writeWords (accBase a + off) [v] } : State).onTile a fun t =>
      { t with flags := { t.flags with swWritten := true } }

/-- A window access at any other time (R144): it reads zero, writes nothing, and raises event 0x1025. -/
def windowRefused (core : CoreIx) (access : Access) (s : State) : State :=
  let s1 := raise 0x1025 [core.val] (s.onCore core.val fun k => { k with accessRefused := true })
  match access with
  | .read => busRead (leBytes 4 0) false s1
  | .write _ => s1

/-- An access to the spool window (R143, R144, R352). -/
def spoolWindow (core : CoreIx) (word : Nat) (access : Access) (s : State) : State :=
  if isReady s then
    if windowOpen s core.val then windowAccess core word access s else windowRefused core access s
  else
    match access with
    | .read => busRead (leBytes 4 0) false s
    | .write _ => refuseWrite (coreBase core.val + 0x8000 + 4 * word) s

def execSpoolWindowAccess (core : CoreIx) (word : Fin 8192) (access : Access) (s : State) : Out :=
  .next (spoolWindow core word.val access s)

/-- Writing 1 to VALID rearms the latch (R129); the five words then read zero (log entry 139). -/
def clearFirstInvalid (core : Nat) (s : State) : State := s.onCore core fun k => { k with firstInvalid := none }

def execFirstInvalidClear (core : CoreIx) (s : State) : Out :=
  .next (gated (coreBase core.val + 0x10) (clearFirstInvalid core.val) s)

/-- A write of SPD_CORE_STATUS: its two sticky bits are cleared by writing 1. -/
def writeCoreStatus (core : Nat) (val : Word) (s : State) : State :=
  s.onCore core fun k =>
    { k with accessRefused := k.accessRefused && !wbit val 1, pageRefused := k.pageRefused && !wbit val 0 }

end Sys2Proof.Machine
end

