-- ==== Sys2Proof/Machine/JobOps.lean ====
section
/-! DEFINITION. What happens to the loaded image and the job as a whole: discarding them (R65, R66, R307), aborting a load (R66),
the write guard of the staged image, and completion records (R359). -/

namespace Sys2Proof.Machine

-- Queues (R356 to R360).

def State.queue (s : State) (q : QueueIx) : Queue := if q == 0 then s.weft.q0 else s.weft.q1

def State.onQueue (s : State) (q : QueueIx) (f : Queue → Queue) : State :=
  s.onWeft fun w => if q == 0 then { w with q0 := f w.q0 } else { w with q1 := f w.q1 }

/-- BAR0 offset of a queue's registers (R373). -/
def queueBase (q : QueueIx) : Nat := 0x100100 + q.val * 0x100

/-- SIZE (R356). -/
def Queue.size (q : Queue) : Nat := 2 ^ q.sizeLog2

/-- The credits of R358. -/
def Queue.credits (q : Queue) : Nat := q.size + q.released - q.consumed

/-- A posted descriptor waits in the host's ring. -/
def Queue.hasPosted (q : Queue) : Bool := q.st == .enabled && !(q.head == q.tail)

/-- A queue enters ERROR (R373, R374). -/
def queueError (q : QueueIx) (cause : Nat) (s : State) : State :=
  signal 3 <| raise 0x5022 [q.val, (s.queue q).head, cause] <|
    s.onQueue q fun x => { x with st := .error, cause := cause, errorSeen := true }

/-- Fields of a descriptor's common header (R361). -/
def Desc.type (d : Desc) : Nat := wfield (wordAt d.words 0) 31 24
def Desc.interrupt (d : Desc) : Bool := wbit (wordAt d.words 0) 15

/-- Status, DETAIL, RESULT_BYTES, BATCH and OUTCOME of a completion (R359). -/
structure Compl where
  status : Nat
  detail : Nat := 0
  bytes : Nat := 0
  batch : Nat
  outcome : Nat := 0
  deriving DecidableEq, Repr

/-- The completion record (R359); STEP is the step index after the descriptor. -/
def complRecord (s : State) (d : Desc) (c : Compl) : List Word :=
  [w32 (d.type * 2 ^ 24 + c.status * 65536 + b2n d.phase), wordAt d.words 1, w32 c.detail, w32 c.bytes, w32 c.batch,
   w32 (c.batch / 2 ^ 32 % 65536), w32 s.stp.stepIndex, w32 (s.stp.stepIndex / 2 ^ 32 % 65536), w32 c.outcome] ++
    List.replicate 7 0

/-- Write a descriptor's completion record into its slot and signal the interrupt it asked for (R359, R370). -/
def complete (q : QueueIx) (d : Desc) (c : Compl) (s : State) : State :=
  let x := s.queue q
  let s1 := countEvt (queueBase q + 0x28) <|
    hostWrite (pairAddr x.complLo x.complHi + 64 * d.slot) (wordsBytes (complRecord s d c)) s
  if d.interrupt then signal q.val s1 else s1

/-- Complete the descriptor at the head of the fetched ones. -/
def completeHead (q : QueueIx) (c : Compl) (s : State) : State :=
  match (s.queue q).fetched with
  | [] => s
  | d :: _ => complete q d c (s.onQueue q fun x => { x with fetched := x.fetched.drop 1 })

/-- Refuse the descriptor at the head (R368): nothing outside the queue changes. -/
def refuseHead (q : QueueIx) (status detail : Nat) (s : State) : State :=
  match (s.queue q).fetched with
  | [] => s
  | d :: _ =>
    completeHead q { status := status, detail := detail, batch := s.stp.batch } <|
      raise 0x5021 [q.val, d.slot, status, detail] (countErr (queueBase q + 0x30) s)

/-- Complete the STEP that runs, if the queue still holds it (R348, R364). -/
def completeRunning (c : Compl) (s : State) : State :=
  match (s.queue 0).running with
  | none => s
  | some d => complete 0 d c (s.onQueue 0 fun x => { x with running := none })

-- Discarding a job.

/-- Frames of the job waiting at the ports without a SEQ, and the held ones, go with it; their credits go back (R327). -/
def dropJobFrames (s : State) : State := dropFrames (fun _ => true) s

/-- Reduced records of the running batch, over all stages. -/
def reducedRecords (s : State) : Nat := (s.bob.stages.map (·.reduced)).sum

/-- HUB_STEP_OUTCOME (R215). -/
def outcomeWord (s : State) : Word :=
  w32 (s.stp.outcome * 2 ^ 28 + b2n s.stp.missed * 2 ^ 27 + s.stp.missCause * 2 ^ 24 + b2n s.stp.outDegraded * 2 ^ 23 +
    b2n s.stp.outSettled * 2 ^ 22 + s.stp.outReduced)

/-- HUB_STEP_OUTCOME of a batch that ends (R215). -/
def noteEnd (outcome : Nat) (s : State) : State :=
  let red := min (reducedRecords s) 0xFFFF
  s.onStp fun b =>
    { b with outcome := outcome, missed := false, missCause := 0, outDegraded := s.num.degraded, outSettled := b.settled, outReduced := red,
             outBatch := b.batch }

/-- The completion record of the STEP that ran (R364). -/
def completeStep (status batch : Nat) (s : State) : State :=
  completeRunning { status := status, batch := batch, outcome := (outcomeWord s).toNat } s

/-- A STEP that was accepted, and whose job goes, completes HALTED (R364). -/
def haltStep (s : State) : State :=
  if (s.queue 0).running.isSome then completeStep 0x11 s.stp.batch (noteEnd 5 s) else s

/-- Discard the seed, the job admission and the retained job state (R66). What a host selects, and what the outcome registers say of
the last decided batch, stays; master weights stay in skein until a new job overwrites them (R65). -/
def discardJob (before : State) : State :=
  let s := haltStep (dropJobFrames before)
  { s with
    nep := { s.nep with seed := none }
    num := { NumBlk.reset with sel := s.num.sel, jobView := s.num.jobView }
    stp := { StpBlk.reset with
             phaseSel := s.stp.phaseSel, phaseView := s.stp.phaseView, lastPhases := s.stp.lastPhases, outcome := s.stp.outcome,
             missed := s.stp.missed, missCause := s.stp.missCause, outDegraded := s.stp.outDegraded,
             outSettled := s.stp.outSettled, outReduced := s.stp.outReduced, outBatch := s.stp.outBatch, loss := s.stp.loss,
             lossTokens := s.stp.lossTokens, jobLoss := s.stp.jobLoss }
    bob := { BobBlk.reset with sel := s.bob.sel }
    job := JobBlk.reset
    ply := { s.ply with
             detections := [], captured := [], differed := [], cardLater := [], quarantineHalt := false, segWaits := [], suspects := [],
             excluded := [], cardReplay := [], mask := BitVec.allOnes 576 }
    reel := { ReelBlk.reset with sel := s.reel.sel, shards := s.reel.shards, initialised := false } }

/-- Discard the image with its tables: the deadline promise goes, the loader stands in `st` (R65, R418). -/
def dropImage (st : Loader) (s : State) : State :=
  let t := discardJob s
  { t with
    warp := { t.warp with state := st, image := none, dist := false, templates := [] }
    trd := { t.trd with deadlineVoid := false, atFloor := false } }

/-- The device treats its committed state as lost (R307): the job state goes and the loader enters EMPTY. -/
def loseCommitted (s : State) : State := helloAll (dropImage .empty s)

/-- A device whose START has come leaves HALTED once no load runs and it holds a distributed structure (R66, R485). -/
def leaveHalted (s : State) : State :=
  if s.job.resumed && s.warp.state == .halted && s.warp.dist then
    (s.onWarp fun w => { w with state := .loaded }).onJob fun j => { j with resumed := false }
  else s

/-- Where the loader stands after a load that ends without acceptance (R64, R66): `fresh` is the state for a load that began in EMPTY
or REFUSED. LOAD_US takes the duration (R62). -/
def endLoad (fresh : Loader) (s : State) : State :=
  leaveHalted <| s.onWarp fun w =>
    let st : Loader :=
      match w.began with
      | .empty | .refused => fresh
      | b => if w.state == .distribute then (if w.loadCont then .halted else .empty) else b
    { w with state := st, pending := none, pendingBytes := [], loadUs := w32 ((s.clk.refTimer - w.loadTick) / 100),
             dist := if w.state == .distribute then false else w.dist
             templates := if w.state == .distribute then [] else w.templates }

/-- A host attach reset aborts a load (R66). -/
def abortLoad (s : State) : State := if loadRunning s then raise 0x5004 [] (endLoad .empty s) else s

/-- The range of skein stack 0's window that the staged image occupies is guarded while a load runs (R285). -/
def guardedRange (s : State) : Option (Nat × Nat) :=
  if loadRunning s then some (s.warp.latSrc, s.warp.latLength) else none

/-- Do two byte ranges meet? -/
def overlaps (a n b m : Nat) : Bool := decide (0 < n) && decide (0 < m) && decide (a < b + m) && decide (b < a + n)

end Sys2Proof.Machine
end

