-- ==== Sys2Proof/Machine/Shapes.lean ====
section
/-! DEFINITION. The form a command's operands have: the checks that `Instr.wf` makes and that a meaning makes before anything else. -/

namespace Sys2Proof.Machine

/-- A frame carries LENGTH payload words (R325). -/
def rxShaped (r : Rx) : Bool := r.frame.payload.length == r.frame.len.toNat

/-- A frame of the given type. -/
def frameOf (ftype : BitVec 8) (r : Rx) : Bool := rxShaped r && r.frame.ftype == ftype

/-- The message type of a reel frame (R252). -/
def msgType (r : Rx) : Nat := wfield (wordAt r.frame.payload 0) 31 24

/-- A reel frame of the given message type. -/
def reelOf (msg : Nat) (r : Rx) : Bool := frameOf 0x10 r && msgType r == msg

/-- A frame of the row HANK_SEGMENT: a hank segment, or a reel frame of a reserved message type (R253). -/
def segmentFrame (r : Rx) : Bool := frameOf 0x10 r && (msgType r == 1 || msgType r == 0 || decide (10 < msgType r))

/-- The frame types of R325. -/
def knownFtype (t : BitVec 8) : Bool :=
  [0x00, 0x01, 0x02, 0x03, 0x04, 0x10, 0x11, 0x20, 0x21, 0x22, 0x23, 0x24, 0x25, 0x26, 0x27, 0x28].contains t.toNat

/-- A frame of the row VERDICT: a verdict, or a frame of a reserved type (R326). -/
def verdictFrame (r : Rx) : Bool := rxShaped r && (r.frame.ftype == 0x23 || !knownFtype r.frame.ftype)

/-- A decision of the given kind (R338). -/
def decisionOf (kind : Nat) (r : Rx) : Bool := frameOf 0x27 r && wfield (wordAt r.frame.payload 0) 31 28 == kind

/-- A frame of the row COMMIT: a decision of that kind, or of a reserved kind (R18). -/
def commitFrame (r : Rx) : Bool :=
  let k := wfield (wordAt r.frame.payload 0) 31 28
  frameOf 0x27 r && (k == 1 || k == 0 || decide (5 < k))

/-- Bytes of a spool, and of its banks 0 to 46, which work may use (R26, R290). -/
def spoolBytes : Nat := 1572864
def spoolSpace : Nat := 1540096

/-- Bytes of creel banks 0 to 59 (R291). -/
def creelSpace : Nat := 15728640

/-- `n` bytes at a place lie within the space that work may use. -/
def Loc.fits (n : Nat) : Loc → Bool
  | .spool _ o => decide (o + n ≤ spoolSpace)
  | .creel _ o => decide (o + n ≤ creelSpace)
  | .skein a => decide (a + n ≤ 2 ^ 40)
  | .kv _ _ _ _ _ | .factor _ _ _ => true

/-- A place in spool or creel. -/
def Loc.near : Loc → Bool
  | .spool _ _ | .creel _ _ => true
  | .skein _ | .kv _ _ _ _ _ | .factor _ _ _ => false

/-- A place that the cores of a cluster reach: a spool of theirs, the cluster's creel, a receive buffer, or a factor (R26, R28, R243). -/
def Loc.inCluster (cl : Nat) : Loc → Bool
  | .spool c _ => c.val / 12 == cl
  | .creel c _ => c.val == cl
  | .skein _ => false
  | .kv _ _ _ _ _ | .factor _ _ _ => true

/-- A place that a core's whorl reaches: its own spool, its cluster's creel, a receive buffer, or a factor. -/
def Loc.nearCore (core : CoreIx) : Loc → Bool
  | .spool c _ => c == core
  | .creel c _ => c.val == core.val / 12
  | .skein _ => false
  | .kv _ _ _ _ _ | .factor _ _ _ => true

/-- A request moves at most 256 bytes, in the skein within one granule (R278); what else a DMA moves lies in spool or creel. -/
def requestShaped (addr : Nat) (op : SkeinOp) : Bool :=
  match op with
  | .read n => decide (1 ≤ n ∧ addr % 256 + n ≤ 256)
  | .write data => decide (1 ≤ data.length ∧ addr % 256 + data.length ≤ 256)
  | .fetch n l | .store n l => decide (1 ≤ n ∧ addr % 256 + n ≤ 256) && Loc.near l && Loc.fits n l
  | .move n a b => decide (1 ≤ n ∧ n ≤ 256) && Loc.near a && Loc.fits n a && Loc.near b && Loc.fits n b

/-- A host access lies within one 64-byte line. -/
def lineShaped (off n : Nat) : Bool := decide (1 ≤ n ∧ off % 64 + n ≤ 64)

/-- A length in whole 64-byte lines. -/
def wholeLinesLong (n : Nat) : Bool := n % 64 == 0

/-- Bytes of a stack (R278). -/
def stackBytes : Nat := 0x1800000000

/-- Rows of an operand. -/
def TileSrc.rows : TileSrc → Nat
  | .narrow _ _ n _ => n
  | .wide _ _ _ _ n _ _ => n

/-- The arrays of a narrow copy lie where the cores of a cluster reach them; those of a source too. -/
def NarrowAt.inCluster (cl : Nat) (t : NarrowAt) : Bool := Loc.inCluster cl t.elem && Loc.inCluster cl t.hdr && Loc.inCluster cl t.slub
def TileSrc.inCluster (cl : Nat) : TileSrc → Bool
  | .narrow t _ _ _ => NarrowAt.inCluster cl t
  | .wide _ base _ _ _ _ _ => Loc.inCluster cl base

/-- A part of a tile has the form of R183: at most 128 rows and columns, a chunk range within K, operands and hand-over
slots of its cluster. -/
def workShaped (cl : ClusterIx) (t : TileWork) : Bool :=
  decide (TileSrc.rows t.a ≤ 128) && decide (TileSrc.rows t.b ≤ 128) && decide (t.chunkLo ≤ t.chunkHi) && decide (t.chunkHi ≤ ceilDiv t.kExtent 32) &&
    TileSrc.inCluster cl.val t.a && TileSrc.inCluster cl.val t.b && (match t.start with | .slot p => p.cluster == cl | _ => true) &&
    (match t.park with | some p => p.cluster == cl | none => true)

/-- The largest number of words an operation leaves in the spool. -/
def WhorlOp.size : WhorlOp → Nat
  | .add a _ | .sub a _ | .mul a _ | .fma a _ _ | .div a _ | .sqrt a | .rsqrt a | .max a _ | .min a _ | .exp2 a | .sigmoid a
  | .activation _ a | .softmax a | .copy _ a | .dropout _ a | .lossGrad a | .residualAdd _ a | .attnProbs a _ => a.len
  | .reduce _ _ | .loss _ => 1
  | .unpack _ _ _ _ n => n
  | .attnBlock _ | .attnValue _ => 0
  | .attnFinish n => n + 2

/-- A word of a stack's address space that patrol scrub reads (R278, R308). -/
def scrubShaped (off : Nat) : Bool := decide (off < stackBytes ∧ off % 32 = 0)

/-- What an operation leaves fits the spool from its place on (R26). -/
def whorlShaped (w : WhorlWork) : Bool := decide (w.dst + 4 * WhorlOp.size w.op ≤ spoolSpace)

/-- What a cluster's scheduler orders has the form of its kind, on the cluster. -/
def Work.shaped (cl : ClusterIx) : Work → Bool
  | .tile t => workShaped cl t
  | .drain d => d.acc.core.val / 12 == cl.val
  | .whorl w => whorlShaped w && w.core.val / 12 == cl.val

end Sys2Proof.Machine
end

