-- ==== Sys2Proof/Machine/Shuttle.lean ====
section
/-! DEFINITION. Shuttle arbitration (R293 to R300): credits, grants and back-off of one channel. Channel cycles are not counted in
State: a command carries the beats that the present owner has moved since the last refill or arbitration, and the wait of the class
that is granted (log entry 2). -/

namespace Sys2Proof.Machine

def State.stack (s : State) (k : StackIx) : Stack := s.skn.stk[k]

def State.onStack (s : State) (k : StackIx) (f : Stack → Stack) : State :=
  s.onSkn fun b => { b with stk := b.stk.set k (f b.stk[k]) }

/-- BAR0 offset of a stack's registers (R309). -/
def sknBase (k : StackIx) : Nat := 0x8000000 + k.val * 0x100000

/-- The SHUTTLE entry of a channel; none with no image loaded (R293). -/
def shuttleCfg (s : State) (k : StackIx) (c : ChanIx) : Option ShuttleCfg :=
  match s.warp.image with
  | some im => im.shuttle.find? fun e => e.stack == k.val && e.channel == c.val
  | none => none

/-- Weight and burst limit of a class (R293): zero with no image loaded. -/
def shuttleWeight (s : State) (k : StackIx) (c : ChanIx) (cls : Nat) : Nat :=
  match shuttleCfg s k c with
  | some e => e.weights.getD cls 0
  | none => 0
def shuttleBurst (s : State) (k : StackIx) (c : ChanIx) (cls : Nat) : Nat :=
  match shuttleCfg s k c with
  | some e => e.bursts.getD cls 0
  | none => 0

def State.arbiter (s : State) (k : StackIx) (c : ChanIx) : Arbiter := (s.stack k).channels[c]

def State.onArbiter (s : State) (k : StackIx) (c : ChanIx) (f : Arbiter → Arbiter) : State :=
  s.onStack k fun x => { x with channels := x.channels.set c (f x.channels[c]) }

/-- Index of a channel and class in a stack's tables. -/
def waitIx (c : ChanIx) (cls : ClassIx) : Fin 160 := ⟨c.val * 5 + cls.val, by omega⟩

/-- Count beats granted, in units of 1,024 (R309). -/
def countBeats (k : StackIx) (c : ChanIx) (cls : ClassIx) (beats : Nat) (s : State) : State :=
  let n := (s.stack k).beatRest[waitIx c cls] + beats
  let s1 := s.onStack k fun x => { x with beatRest := x.beatRest.set (waitIx c cls) (n % 1024) }
  if n / 1024 == 0 then s1 else count 48 (shuttleKey (sknBase k + 0x34) c.val cls.val) (n / 1024) s1

/-- Charge the present owner its beats: the counter stops at zero (R295). -/
def chargeOwner (k : StackIx) (c : ChanIx) (beats : Nat) (s : State) : State :=
  match (s.arbiter k c).owner with
  | none => s
  | some o => countBeats k c o beats <| s.onArbiter k c fun a =>
    { a with credits := a.credits.set o (a.credits[o] - beats), granted := a.granted + beats }

/-- The first cycle of a window (R295): every counter is set to its class's weight, after the owner's beats of the old window. -/
def refill (k : StackIx) (c : ChanIx) (beats : Nat) (s : State) : State :=
  let s1 := chargeOwner k c beats s
  s1.onArbiter k c fun a => { a with credits := Vector.ofFn fun i => shuttleWeight s k c i.val }

def execWindowRefill (stack : StackIx) (chan : ChanIx) (beats : Nat) (s : State) : Out := .next (refill stack chan beats s)

/-- A class is eligible when it requests and is not backing off (R296). -/
def Arbiter.eligible (a : Arbiter) (requests : BitVec 5) (c : ClassIx) : Bool := requests.getLsbD c.val && !a.backoff[c]

/-- The eligible class with the fullest counter; of equal ones the lower number (R296). -/
def Arbiter.winner (a : Arbiter) (requests : BitVec 5) : Option ClassIx :=
  (List.finRange 5).foldl (fun best c =>
    if a.eligible requests c then
      match best with
      | none => some c
      | some b => if a.credits[b] < a.credits[c] then some c else some b
    else best) none

/-- The longest back-off exponent (R298). -/
def maxLosses : Nat := 8

/-- The arbiter after an arbitration (R296, R298): the winner's losses are cleared, every other eligible class backs off. -/
def Arbiter.grant (a : Arbiter) (requests : BitVec 5) : Arbiter :=
  match a.winner requests with
  | none => { a with owner := none, granted := 0 }
  | some w =>
    { a with
      owner := some w, granted := 0
      losses := Vector.ofFn fun c =>
        if c = w then 0 else if a.eligible requests c then min (a.losses[c] + 1) maxLosses else a.losses[c]
      backoff := Vector.ofFn fun c => if c = w then false else a.backoff[c] || a.eligible requests c }

/-- Note a wait for a grant (R309): the register saturates. -/
def noteWait (k : StackIx) (c : ChanIx) (cls : ClassIx) (wait : Nat) (s : State) : State :=
  s.onStack k fun x =>
    { x with waitMax := x.waitMax.set (waitIx c cls) (max x.waitMax[waitIx c cls] (min wait (2 ^ 32 - 1))) }

/-- One arbitration (R296 to R298): the owner's grant ends with its beats charged, and the next owner is chosen. -/
def arbitrate (k : StackIx) (c : ChanIx) (requests : BitVec 5) (beats wait : Nat) (s : State) : State :=
  let s1 := (chargeOwner k c beats s).onArbiter k c fun a => a.grant requests
  match (s1.arbiter k c).owner with
  | some w => noteWait k c w wait s1
  | none => s1

/-- An arbitration takes place when the channel is idle, or when its owner has deasserted its request (R296, R297). -/
def execArbitration (stack : StackIx) (chan : ChanIx) (requests : BitVec 5) (beats wait : Nat) (s : State) : Out :=
  .next (match (s.arbiter stack chan).owner with
    | some o => if requests.getLsbD o.val then s else arbitrate stack chan requests beats wait s
    | none => arbitrate stack chan requests beats wait s)

/-- The owner's burst limit has expired (R297): its grant has lasted that many channel cycles, one beat in each. -/
def burstOver (k : StackIx) (c : ChanIx) (o : ClassIx) (beats : Nat) (s : State) : Bool :=
  decide (shuttleBurst s k c o.val ≤ (s.arbiter k c).granted + beats)

/-- A burst limit expires while the owner still requests (R297): it competes like every other eligible class. -/
def execBurstLimit (stack : StackIx) (chan : ChanIx) (requests : BitVec 5) (beats wait : Nat) (s : State) : Out :=
  .next (match (s.arbiter stack chan).owner with
    | some o =>
      if requests.getLsbD o.val && burstOver stack chan o beats s then arbitrate stack chan requests beats wait s else s
    | none => s)

/-- A back-off ends (R298). -/
def execBackoffEnd (stack : StackIx) (chan : ChanIx) (cls : ClassIx) (s : State) : Out :=
  .next (s.onArbiter stack chan fun a => { a with backoff := a.backoff.set cls false })

/-- A class has requested for 4,096 channel cycles without a grant (R300). -/
def execShuttleStarved (stack : StackIx) (chan : ChanIx) (cls : ClassIx) (wait : Nat) (s : State) : Out :=
  .next (if decide (4096 ≤ wait) && (s.arbiter stack chan).owner != some cls then
    let s1 := noteWait stack chan cls wait (countEvt (shuttleKey (sknBase stack + 0x3C) chan.val cls.val) s)
    if (s.stack stack).starved then s1
    else raise 0x7201 [stack.val, chan.val, cls.val, wait] (s1.onStack stack fun x => { x with starved := true })
  else s)

/-- A write of SKN_CTRL (R309). -/
def writeSknCtrl (k : StackIx) (val : Word) (s : State) : State :=
  if wbit val 0 then s.onStack k fun x => { x with waitMax := Vector.replicate 160 0 } else s

def execClearWaitMax (stack : StackIx) (val : Word) (s : State) : Out :=
  .next (gated (sknBase stack + 0x4) (writeSknCtrl stack val) s)

end Sys2Proof.Machine
end

