-- ==== Sys2Proof/Machine/Places.lean ====
section
/-! DEFINITION. Places in the device's memories (R26, R28, R281 to R284, R290, R291): reading and writing them, what is resident in
spool and creel (R183), the map of the skein, and which requester class reaches which region. -/

namespace Sys2Proof.Machine

-- Ranges of resident bytes.

/-- Add the range from `lo` up to `hi` to rising ranges, joining those that it touches. -/
def addRange (lo hi : Nat) (rs : List (Nat × Nat)) : List (Nat × Nat) :=
  let touch := rs.filter fun r => decide (r.1 ≤ hi ∧ lo ≤ r.2)
  (rs.filter fun r => decide (r.2 < lo)) ++
    (touch.foldl (fun a r => min a r.1) lo, touch.foldl (fun a r => max a r.2) hi) :: rs.filter fun r => decide (hi < r.1)

/-- Every byte from `lo` up to `hi` lies in one of the ranges. -/
def inRanges (lo hi : Nat) (rs : List (Nat × Nat)) : Bool := decide (hi ≤ lo) || rs.any fun r => decide (r.1 ≤ lo ∧ hi ≤ r.2)

-- Places.

/-- Bytes of a creel (R28). -/
def creelBytes : Nat := 16777216

def spoolAddr (c : CoreIx) (off : Nat) : Nat := c.val * spoolBytes + off
def creelAddr (c : ClusterIx) (off : Nat) : Nat := c.val * creelBytes + off

/-- The place `n` bytes on. -/
def Loc.on : Loc → Nat → Loc
  | .spool c o, n => .spool c (o + n)
  | .creel c o, n => .creel c (o + n)
  | .skein a, n => .skein (a + n)
  | .kv p l h b o, n => .kv p l h b (o + n)
  | .factor k x o, n => .factor k x (o + n)

/-- The receive buffer of a key or value block (R342). -/
def State.kvBlock (s : State) (part layer shard block : Nat) : Option KvBlockRt :=
  s.reel.kv.find? fun x => x.part == part && x.layer == layer && x.shard == shard && x.block == block

/-- The bytes that a receive buffer holds, in order. -/
def KvBlockRt.bytes (b : KvBlockRt) : List Byte := (sortBy (fun x y => decide (x.1 ≤ y.1)) b.pieces).flatMap (·.2)

/-- Bytes of a block that have arrived. -/
def KvBlockRt.have (b : KvBlockRt) : Nat := (b.pieces.map fun p => p.2.length).sum

/-- A low-rank layer's Q in force, or the P̂ that the whole delivered P has given (R243), as binary32 values row by row. -/
def State.factor (s : State) (layer : Nat) (second : Bool) : List Word :=
  match s.reel.lowRank.find? fun x => x.layer == layer with
  | some x => if second then (if x.pDone then x.phat else []) else x.q
  | none => []

/-- The bytes at a place. -/
def State.readAt (s : State) (l : Loc) (n : Nat) : List Byte :=
  match l with
  | .spool c o => s.spool.readBytes (spoolAddr c o) n
  | .creel c o => s.creel.readBytes (creelAddr c o) n
  | .skein a => s.skein.readBytes a n
  | .kv p l h b o => match s.kvBlock p l h b with | some x => (x.bytes.drop o).take n | none => []
  | .factor k x o => ((wordsBytes (s.factor k x)).drop o).take n

/-- `n` bytes at a place are resident for an engine or a whorl: they have been brought to spool or creel (R183, log entry 132), or a
receive buffer has delivered them. A quarantined core's spool is out of service (R49). -/
def State.resident (s : State) (l : Loc) (n : Nat) : Bool :=
  Loc.fits n l && match l with
  | .spool c o => !quarantined s c.val && inRanges (spoolAddr c o) (spoolAddr c o + n) s.res.spool
  | .creel c o => inRanges (creelAddr c o) (creelAddr c o + n) s.res.creel
  | .skein _ => false
  | .kv p l h b o => match s.kvBlock p l h b with | some x => x.delivered && decide (o + n ≤ x.have) | none => false
  | .factor k x o => decide (o + n ≤ 4 * (s.factor k x).length)

/-- Write into spool and into creel: the bytes are resident from then on. -/
def State.putSpool (s : State) (a : Nat) (bs : List Byte) : State :=
  { s with spool := s.spool.writeBytes a bs, res := { s.res with spool := addRange a (a + bs.length) s.res.spool } }
def State.putCreel (s : State) (a : Nat) (bs : List Byte) : State :=
  { s with creel := s.creel.writeBytes a bs, res := { s.res with creel := addRange a (a + bs.length) s.res.creel } }

/-- Write into the skein: the words written have good check bits again (R308). -/
def State.putSkein (s : State) (a : Nat) (bs : List Byte) : State :=
  { s with skein := s.skein.writeBytes a bs
           skn := { s.skn with bad := s.skn.bad.filter fun w => decide (w + 32 ≤ a ∨ a + bs.length ≤ w) } }

/-- Write bytes into pieces of memory. -/
def writePlaces : List (Nat × Nat) → List Byte → Memory → Memory
  | [], _, m => m
  | p :: ps, bs, m => writePlaces ps (bs.drop p.2) (m.writeBytes p.1 (bs.take p.2))

/-- Write a run of bytes over places (address, length) of the skein. -/
def State.putPlaces (s : State) (ps : List (Nat × Nat)) (bs : List Byte) : State :=
  { s with skein := writePlaces ps bs s.skein
           skn := { s.skn with bad := s.skn.bad.filter fun w => ps.all fun p => decide (w + 32 ≤ p.1 ∨ p.1 + p.2 ≤ w) } }

/-- Write little-endian words into the skein. -/
def State.putSkeinWords (s : State) (a : Nat) (ws : List Word) : State := s.putSkein a (wordsBytes ws)

-- Placed regions (R59, R249).

/-- The skein address of a MEMORY entry. -/
def Region.addr (e : Region) : Nat := e.stack * 2 ^ 37 + e.offset

/-- The MEMORY entry of a kind for a shard. -/
def shardRegion (s : State) (kind tag : Nat) : Option Region :=
  match s.warp.image with
  | some im => im.memory.find? fun e => e.kind == kind && e.tag == tag
  | none => none

/-- The buffer selector of a shard (R204, R249): bit 0 of word 0 of the state header in its kind 0x09 region; set, the shadow region
holds the master. -/
def shardSel (s : State) (tag : Nat) : Bool :=
  match shardRegion s 9 tag with
  | some e => wbit (s.skein.readWord e.addr) 0
  | none => false

-- The map (R281, R282).

/-- The regions of R284 and R306. -/
inductive Rgn where
  | bobbin | working | retention | params (layer : Nat) | master | shadow | optimiser | loader | system | window | unplaced | beyond
  deriving DecidableEq, Repr

def skeinStack (addr : Nat) : StackIx := Fin.ofNat 8 (addr / 2 ^ 37)
def skeinOff (addr : Nat) : Nat := addr % 2 ^ 37

/-- The channel of an offset (R281). -/
def channelOf (off : Nat) : Nat := (field off 12 8) ^^^ (field off 20 16)

/-- The region at an offset of a MEMORY entry. The shard's selector says which of its two buffers is the master (R204); the state header that
holds it is committed whichever is (R249, R306). -/
def placedRgn (s : State) (e : Region) (off : Nat) : Rgn :=
  let swapped := shardSel s e.tag
  match e.kind with
  | 1 => .bobbin
  | 2 | 3 | 4 | 5 => .working
  | 6 | 7 => .retention
  | 8 => .params e.layer
  | 9 => if swapped && decide (256 ≤ off) then .shadow else .master
  | 10 => if swapped then .master else .shadow
  | 11 => .optimiser
  | _ => .unplaced

/-- The region in which a skein address lies. -/
def regionOf (s : State) (addr : Nat) : Rgn :=
  let off := skeinOff addr
  let k := (skeinStack addr).val
  if 0x1800000000 ≤ off then .beyond
  else if 0x1700000000 ≤ off then .window
  else if 0x16F0000000 ≤ off then .system
  else if k == 0 && decide (0x16E0000000 ≤ off) then .loader
  else
    match s.warp.image with
    | some im =>
      match im.memory.find? fun e => e.kind != 12 && e.stack == k && decide (e.offset ≤ off ∧ off < e.offset + e.size) with
      | some e => placedRgn s e (off - e.offset)
      | none => .unplaced
    | none => .unplaced

-- Access by requester class (R284).

/-- May a class reach a region? Class 0 engine DMA, 1 bobbin, 2 reel, 3 skein update, 4 CXL.mem. -/
def mayReach (cls : Nat) (byLoader isWrite : Bool) (stack : Nat) (r : Rgn) : Bool :=
  match cls, r with
  | 0, .working | 0, .retention | 0, .window => true
  | 0, .params _ => !isWrite
  | 0, .loader => byLoader
  | 1, .bobbin => true
  | 2, .params _ => isWrite
  | 2, .system => stack == 0
  | 3, .params _ => isWrite
  | 3, .master | 3, .shadow | 3, .optimiser | 3, .system => true
  | 4, .window => true
  | _, _ => false

/-- SKN_LAST_ERROR_ADDR and _INFO (R309). -/
def noteError (addr kind : Nat) (byScrub : Bool) (cls symbol : Nat) (s : State) : State :=
  s.onStack (skeinStack addr) fun x =>
    { x with lastAddr := addr
             lastInfo := w32 (kind * 2 ^ 28 + b2n byScrub * 2 ^ 27 + cls * 2 ^ 24 + channelOf (skeinOff addr) * 65536 + symbol) }

/-- The BAR0 offset of a register of the stack an address lies in. -/
def sknReg (addr off : Nat) : Nat := sknBase (skeinStack addr) + off

/-- A request that R284 forbids: no data, nothing written. -/
def refuseRequest (addr cls : Nat) (s : State) : State :=
  faultNow <| raise 0x2406 [addr, cls] <| countErr (sknReg addr 0x54) (noteError addr 5 false cls 0x3F s)

/-- A read or write of `n` bytes by a class stays where R284 lets it go; the first address that it may not reach. -/
def firstForbidden (s : State) (cls : Nat) (isWrite : Bool) (a n : Nat) : Option Nat :=
  if n == 0 then none else [a, a + n - 1].find? fun x => !mayReach cls false isWrite (skeinStack x).val (regionOf s x)

/-- What a core or the cluster DMA writes (R28): into spool, creel, or skein in the engine DMA class; at a place beyond its memory, and in
the spool of a quarantined core (R49), nothing is written. -/
def State.storeAt (s : State) (l : Loc) (bs : List Byte) : State :=
  match l with
  | .spool c o => if Loc.fits bs.length l && !quarantined s c.val then s.putSpool (spoolAddr c o) bs else s
  | .creel c o => if Loc.fits bs.length l then s.putCreel (creelAddr c o) bs else s
  | .skein a => match firstForbidden s 0 true a bs.length with | none => s.putSkein a bs | some x => refuseRequest x 0 s
  | .kv _ _ _ _ _ | .factor _ _ _ => s

-- Vectors of binary32 or BF16 values.

/-- Bytes of one value of a vector, and where value `i` stands. -/
def Vec.width (v : Vec) : Nat := if v.half then 2 else 4
def Vec.at (v : Vec) (i : Nat) : Loc := Loc.on v.base (i * v.stride * Vec.width v)

/-- A wide value as a binary32 pattern: BF16 in the upper half (R82). -/
def wideAt (s : State) (half : Bool) (l : Loc) : Word :=
  if half then w32 (leNat (s.readAt l 2) * 65536) else w32 (leNat (s.readAt l 4))

/-- The values of a vector as binary32 patterns. -/
def State.readVec (s : State) (v : Vec) : List Word := (List.range v.len).map fun i => wideAt s v.half (Vec.at v i)

/-- A vector is resident where a core's whorl reaches it. -/
def State.vecHere (s : State) (core : CoreIx) (v : Vec) : Bool :=
  Loc.nearCore core v.base && (List.range v.len).all fun i => s.resident (Vec.at v i) (Vec.width v)

end Sys2Proof.Machine
end

