-- ==== Sys2Proof/Machine/Twist.lean ====
section
/-! DEFINITION. The write path of the twist unit and of the update engines (R97, R145 to R149): rotation, outliers, scale, staples, and
the staple counts (R152). -/

namespace Sys2Proof.Machine

-- Rotation (R97).

/-- Rotation constants c_n. -/
def twistConst (code : Nat) : Word := if code == 1 then 0x3E800000 else if code == 2 then 0x3E3504F3 else 0x3E000000

/-- One stage of the butterfly: position j < h of each pair of runs adds, the others subtract. -/
def butterflyAt (h : Nat) (x : List Word) (j : Nat) : FRes :=
  if j / h % 2 == 0 then fadd (x.getD j 0) (x.getD (j + h) 0) else fsub (x.getD (j - h) 0) (x.getD j 0)

/-- Stages in ascending stride, with the number of additions that saturated. -/
def butterfly : Nat → Nat → List Word → List Word × Nat
  | 0, _, x => (x, 0)
  | n + 1, h, x =>
    let r := (List.range x.length).map (butterflyAt h x)
    let q := butterfly n (2 * h) (r.map (·.bits))
    (q.1, q.2 + (r.filter (·.flags.ovf)).length)

/-- Rotate one block of binary32 values by the twist of the given code (R97). -/
def rotate (code : Nat) (x : List Word) : List Word × Nat :=
  if code == 0 then (x, 0)
  else
    let r := butterfly (code + 3) 1 x
    (r.1.map fun y => (fmul (twistConst code) y).bits, r.2)

-- One staple (R145 to R147).

/-- Cause code of a non-finite staple over source values (R92); none when all are finite. -/
def nonfiniteCause (xs : List Word) : Option Nat :=
  let vs := xs.map dec32
  if vs.any (·.isNan) then some 3
  else
    let p := vs.any fun v => v == .inf false
    let n := vs.any fun v => v == .inf true
    if p && n then some 2 else if n then some 1 else if p then some 0 else none

/-- A finite value's magnitude as an integer at exponent −149. -/
def mag149 (w : Word) : Nat :=
  match dec32 w with
  | .fin _ m e => magAt (-149) m e
  | _ => 0

/-- The position of the largest magnitude not in `out`, the lowest of equal ones. -/
def largestAt (mags : List Nat) (out : List Nat) : Nat :=
  (List.range mags.length).foldl (fun best k =>
    if out.contains k then best
    else if out.contains best || mags.getD best 0 < mags.getD k 0 then k else best) 0

/-- The largest magnitude outside `out`. -/
def largestOut (mags : List Nat) (out : List Nat) : Nat :=
  (List.range mags.length).foldl (fun best k => if out.contains k then best else max best (mags.getD k 0)) 0

/-- Outlier extraction (R146): `c` is the slub cap, 2^`rho` the ratio. -/
def extract (mags : List Nat) (rho : Nat) : Nat → List Nat → List Nat
  | 0, out => out
  | c + 1, out =>
    let a := largestAt mags out
    let b := largestOut mags (a :: out)
    if b == 0 || mags.getD a 0 ≤ 2 ^ rho * b then out else extract mags rho c (a :: out)

/-- The tex scale of a largest magnitude `m` × 2^−149 (R147): the smallest that carries it. Its exponent lies within the three
tried. -/
def pickScale (f : NFmt) (m : Nat) : Scale :=
  let lo : Int := (m.log2 : Int) - 149 - f.qMax.log2 - 1 + 127
  let start := lo.toNat
  let cands := (List.range 3).flatMap fun i => (List.range 4).map fun k => (⟨start + i, k⟩ : Scale)
  let ok (g : Scale) : Bool :=
    !(g.exp == 0 && g.frac == 0) && decide (g.exp ≤ 0xFE) &&
    (let e0 : Int := min (-149) ((g.exp : Int) - 129)
     decide (magAt e0 m (-149) ≤ magAt e0 ((4 + g.frac) * f.qMax) ((g.exp : Int) - 129)))
  (cands.find? ok).getD ⟨0xFE, 3⟩

/-- Parameters of a narrow write: format, staple code, twist code, slub cap, outlier ratio. -/
structure WriteFmt where
  fmt : NFmt
  staple : Nat
  twist : Nat
  cap : Nat
  rho : Nat
  deriving DecidableEq, Repr

/-- Add two sets of counts. -/
def Counts.add (a b : Counts) : Counts :=
  ⟨a.staples + b.staples, a.zero + b.zero, a.sat + b.sat, a.slub + b.slub, a.nonzero + b.nonzero,
   a.underflow + b.underflow, a.nonfinite + b.nonfinite⟩

/-- A staple as written, with its counts (R152). -/
structure StapleWrite where
  staple : Staple
  counts : Counts
  deriving DecidableEq, Repr

/-- A staple with no element and no entry. -/
def bareStaple (w : WriteFmt) (header : Half) : Staple :=
  ⟨header, List.replicate (stapleSize w.staple) 0, [0, 0, 0]⟩

/-- The non-finite staple (R92). -/
def nonfiniteStaple (w : WriteFmt) (cause : Nat) : StapleWrite :=
  ⟨bareStaple w (mkHeader 0xFF cause 0 w.twist false), { Counts.zeros with nonfinite := 1 }⟩

/-- Sign, magnitude and exponent of a finite value. -/
def finParts (w : Word) : Bool × Nat × Int :=
  match dec32 w with
  | .fin n m e => (n, m, e)
  | _ => (false, 0, 0)

/-- Round one value: code and clip. -/
def codeOf (f : NFmt) (r : Rounding) (g : Scale) (w : Word) : Nat × Bool :=
  let p := finParts w
  f.code r g p.1 p.2.1 p.2.2

/-- The rounding of position `k`: the draw where the write is stochastic. -/
def roundingAt (draws : Option (List Nat)) (k : Nat) : Rounding :=
  match draws with
  | none => .nearest
  | some us => .draw (us.getD k 0)

/-- Write one staple of finite rotated values (R145 steps 3 to 8). -/
def writeFinite (w : WriteFmt) (draws : Option (List Nat)) (xs : List Word) : StapleWrite :=
  let mags := xs.map mag149
  if mags.all (· == 0) then
    ⟨bareStaple w (mkHeader 0 0 0 w.twist false), { Counts.zeros with staples := 1, zero := 1 }⟩
  else
    let out := (List.range xs.length).filter (extract mags w.rho w.cap []).contains
    let g := pickScale w.fmt (largestOut mags out)
    let codes := (List.range xs.length).map fun k =>
      if out.contains k then 0 else (codeOf w.fmt (roundingAt draws k) g (xs.getD k 0)).1
    let slubs := out.map fun k => (codeOf .k8g .nearest g (xs.getD k 0), k)
    let sat := slubs.any (·.1.2)
    let slots := (slubs.map fun p => mkSlub p.1.1 p.2) ++ List.replicate (3 - out.length) 0
    ⟨⟨mkHeader g.exp g.frac out.length w.twist sat, codes.map (BitVec.ofNat 8), slots⟩,
     { Counts.zeros with
       staples := 1, sat := b2n sat, slub := b2n (!out.isEmpty), nonzero := (mags.filter (· != 0)).length
       underflow := ((List.range xs.length).filter fun k => mags.getD k 0 != 0 && codes.getD k 0 == 0 && !out.contains k).length }⟩

-- Whole rows.

/-- Cut a list into `n` pieces of `size`; a short last piece is filled with +0. -/
def cut (size : Nat) : Nat → List Word → List (List Word)
  | 0, _ => []
  | n + 1, xs => (xs.take size ++ List.replicate (size - xs.length) 0) :: cut size n (xs.drop size)

/-- The pieces of a whole list. -/
def pieces (size : Nat) (xs : List Word) : List (List Word) := cut size (ceilDiv xs.length size) xs

/-- Cut draws like the values. -/
def cutDraws (draws : Option (List Nat)) (off n : Nat) : Option (List Nat) := draws.map fun us => (us.drop off).take n

/-- A row as written: staples, counts, and the saturations of its rotations. -/
structure RowWrite where
  staples : List Staple
  counts : Counts
  ovf : Nat
  deriving DecidableEq, Repr

/-- Write one unit: a twist block, or a staple where it is longer (R92, R148). `off` is its first position in the row. The cause of a
non-finite staple longer than its twist block is taken over the whole staple (log entry 136). -/
def writeUnit (w : WriteFmt) (draws : Option (List Nat)) (off : Nat) (xs : List Word) : RowWrite :=
  let size := stapleSize w.staple
  let blocks := (pieces (twistSize w.twist) xs).map fun b =>
    if (nonfiniteCause b).isSome then (b, 0) else rotate w.twist b
  let ovf := (blocks.map (·.2)).sum
  match nonfiniteCause xs with
  | some c =>
    let ws := List.replicate (xs.length / size) (nonfiniteStaple w c)
    ⟨ws.map (·.staple), ws.foldl (fun a b => a.add b.counts) Counts.zeros, ovf⟩
  | none =>
    let ys := blocks.flatMap (·.1)
    let ws := ((pieces size ys).zipIdx).map fun p => writeFinite w (cutDraws draws (off + p.2 * size) size) p.1
    ⟨ws.map (·.staple), ws.foldl (fun a b => a.add b.counts) Counts.zeros, ovf⟩

/-- Write a row of binary32 values as a narrow tensor's row (R145). -/
def writeRow (w : WriteFmt) (draws : Option (List Nat)) (xs : List Word) : RowWrite :=
  let unit := max (stapleSize w.staple) (twistSize w.twist)
  let rs := ((pieces unit xs).zipIdx).map fun p => writeUnit w draws (p.2 * unit) p.1
  ⟨rs.flatMap (·.staples), rs.foldl (fun a b => a.add b.counts) Counts.zeros, (rs.map (·.ovf)).sum⟩

-- Layout (R100).

/-- Element bytes of a staple: two K4 codes share a byte, the even position low. -/
def packCodes (f : NFmt) : List Byte → List Byte
  | [] => []
  | [b] => [b]
  | a :: b :: r => if f.bits == 4 then (a ||| (b <<< 4)) :: packCodes f r else a :: b :: packCodes f r

/-- The bytes of a staple in its three arrays. -/
def stapleElemBytes (f : NFmt) (st : Staple) : List Byte := packCodes f st.elems
def stapleHdrBytes (st : Staple) : List Byte := leBytes 2 st.header.toNat
def stapleSlubBytes (st : Staple) : List Byte := st.slots.flatMap fun h => leBytes 2 h.toNat

/-- Addresses of R100: row, K position, and the tensor's K, staple size and bases. -/
def elemAddr (f : NFmt) (base kLen r k : Nat) : Nat := base + (r * kLen + k) * f.bits / 8
def hdrAddr (base kLen size r k : Nat) : Nat := base + (r * (kLen / size) + k / size) * 2
def slubAddr (base kLen size r k : Nat) : Nat := base + (r * (kLen / size) + k / size) * 6

end Sys2Proof.Machine
end

