-- ==== Sys2Proof/Machine/Reel.lean ====
section
/-! DEFINITION. Reel reduction (R217 to R241): routes, contributions, exact adders, saturation and restart, and the two-path check. -/

namespace Sys2Proof.Machine

-- The plan.

def hankPlan (s : State) : List Hank := match s.warp.image with | some im => im.hanks.entries | none => []

def findHank (s : State) (tag : Nat) : Option Hank := (hankPlan s).find? fun h => h.tag == tag

/-- Owner of a hank; 0 for an unknown tag. -/
def ownerOf (s : State) (tag : Nat) : Nat := match findHank s tag with | some h => h.owner | none => 0

def layerOf (s : State) (id : Nat) : Option Layer :=
  match s.warp.image with
  | some im => im.layers.find? fun l => l.id == id
  | none => none

def State.hank (s : State) (tag : Nat) : Option HankRt := s.reel.hanks.find? fun h => h.tag == tag

def State.onHank (s : State) (tag : Nat) (f : HankRt → HankRt) : State :=
  s.onReel fun r => { r with hanks := updWhere (fun h => h.tag == tag) f r.hanks }

def isExact (s : State) : Bool := match s.warp.image with | some im => im.job.exactReel | none => false

/-- L of R219. -/
def groupsLog2 (s : State) : Nat := match s.warp.image with | some im => im.hanks.exactGroupsLog2 | none => 0

/-- Contributions of this device per tile (R222). -/
def groupCount (s : State) : Nat :=
  if isExact s then
    match s.warp.image, s.stp.desc with
    | some im, some d => max 1 (ceilDiv d.seqs.length im.hanks.exactGroupSeqs)
    | _, _ => 1
  else 1

-- Routes (R225, R240, R250).

/-- The partials that come to device `me` on a path of a hank of `owner`: sender and the CONTRIBUTORS its position implies. -/
def routeIn (s : State) (owner me : Nat) (second : Bool) : List (Nat × Nat) :=
  let n := deviceCount s
  if isTorus s then
    let tx := torusX s
    let ty := torusY s
    let x := me % tx
    let y := me / tx
    let ox := owner % tx
    let oy := owner / tx
    let dx := if second then (ox + tx + tx - 1 - x) % tx else (x + tx + tx - ox - 1) % tx
    let dy := if second then (oy + ty + ty - 1 - y) % ty else (y + ty + ty - oy - 1) % ty
    let px := if second then (x + 1) % tx else (x + tx - 1) % tx
    let py := if second then (y + 1) % ty else (y + ty - 1) % ty
    (if 0 < dx then [(y * tx + px, dx)] else []) ++ (if x == ox && decide (0 < dy) then [(py * tx + x, dy * tx)] else [])
  else
    let d := if second then (owner + n + n - 1 - me) % n else (me + n + n - owner - 1) % n
    if 0 < d then [(if second then (me + 1) % n else (me + n - 1) % n, d)] else []

/-- Where a device's partial goes: the port role and the next rank; none at the owner. -/
def routeOut (s : State) (owner me : Nat) (second : Bool) : Option (Nat × Nat) :=
  let n := deviceCount s
  if me == owner then none
  else if isTorus s then
    let tx := torusX s
    let ty := torusY s
    let x := me % tx
    let y := me / tx
    if x == owner % tx then
      (if second then some (6, (y + ty - 1) % ty * tx + x) else some (5, (y + 1) % ty * tx + x))
    else if second then some (4, y * tx + (x + tx - 1) % tx)
    else some (3, y * tx + (x + 1) % tx)
  else if second then some (2, (me + n - 1) % n)
  else some (1, (me + 1) % n)

/-- The next devices of the distribution route (R250): port role and rank. -/
def distNext (s : State) (owner me : Nat) : List (Nat × Nat) :=
  let n := deviceCount s
  if isTorus s then
    let tx := torusX s
    let ty := torusY s
    let x := me % tx
    let y := me / tx
    let down := (y + 1) % ty
    let right := (x + 1) % tx
    (if x == owner % tx && down != owner / tx then [(5, down * tx + x)] else []) ++
      (if right != owner % tx then [(3, y * tx + right)] else [])
  else if (me + 1) % n == owner % n then [] else [(1, (me + 1) % n)]

-- Messages (R252).

/-- The reel message header, field by field. -/
structure RHdr where
  type : Nat
  path : Nat
  attempt : Nat
  tag : Nat
  source : Nat
  segment : Nat
  tile : Nat
  batch : Nat
  hs : Int
  clipped : Bool
  marker : Bool
  wide : Bool
  contributors : Nat
  deriving DecidableEq, Repr

def RHdr.words (h : RHdr) : List Word :=
  [w32 (h.type * 2 ^ 24 + h.path * 2 ^ 22 + h.attempt * 2 ^ 20 + h.tag), w32 (h.source * 65536 + h.segment), w32 h.tile,
   w32 h.batch, w32 (unsigned 16 h.hs * 65536 + h.batch / 2 ^ 32 % 65536),
   w32 (b2n h.clipped * 4 + b2n h.marker * 2 + b2n h.wide), w32 h.contributors, 0]

def readRHdr (ws : List Word) : RHdr :=
  { type := wfield (wordAt ws 0) 31 24, path := wfield (wordAt ws 0) 23 22, attempt := wfield (wordAt ws 0) 21 20,
    tag := wfield (wordAt ws 0) 19 0, source := wfield (wordAt ws 1) 31 16, segment := wfield (wordAt ws 1) 3 0,
    tile := (wordAt ws 2).toNat, batch := (wordAt ws 3).toNat + 2 ^ 32 * wfield (wordAt ws 4) 15 0,
    hs := signed 16 (wfield (wordAt ws 4) 31 16), clipped := wbit (wordAt ws 5) 2, marker := wbit (wordAt ws 5) 1,
    wide := wbit (wordAt ws 5) 0, contributors := (wordAt ws 6).toNat }

/-- The reserved fields of a header are zero (R253). -/
def rsvClear (ws : List Word) : Bool :=
  wfield (wordAt ws 1) 15 4 == 0 && wfield (wordAt ws 5) 31 3 == 0 && wordAt ws 7 == 0

/-- A header of this device with nothing but type, tag and batch. -/
def plainHdr (s : State) (type tag batch : Nat) : RHdr :=
  { type := type, path := 0, attempt := 0, tag := tag, source := rankOf s, segment := 0, tile := 0, batch := batch, hs := 0,
    clipped := false, marker := false, wide := false, contributors := 0 }

/-- The batch that committed messages carry: the one just decided (R253); before any is decided it wraps to 2⁴⁸ − 1 (log entry 145). -/
def decidedBatch (s : State) : Nat := (s.stp.batch + 2 ^ 48 - 1) % 2 ^ 48

/-- A reel frame to a neighbour by a port role; `par` selects one of parallel ports. -/
def sendReel (marker : BitVec 4) (role par dest : Nat) (h : RHdr) (body : List Word) (s : State) : State :=
  sendOn (portOf s role par)
    (mkFrame ftReel marker (if marker == 2 then 2 else 1) h.tag dest (rankOf s) s.stp.exec h.batch (h.words ++ body)) s

/-- Send a message to every next device of the distribution route. -/
def distribute (marker : BitVec 4) (owner : Nat) (h : RHdr) (body : List Word) (s : State) : State :=
  (distNext s owner (rankOf s)).foldl (fun t p => sendReel marker p.1 0 p.2 h body t) s

/-- REEL_ counters (R255). -/
def kSegIn : Nat := 0x40001C
def kSegOut : Nat := 0x400024
def kRestarts : Nat := 0x40002C
def kClipped : Nat := 0x400034
def kResat : Nat := 0x40003C
def kTwoPath : Nat := 0x400044
def kTwoPathBad : Nat := 0x40004C
def kResends : Nat := 0x400050
def kUpdateOvf : Nat := 0x400058
def kMarkers : Nat := 0x400060

-- Contributions (R222, R232).

/-- B of exact reel mode (R232). -/
def exactBound (s : State) : Int := 2 ^ (31 - groupsLog2 s) - 1

/-- One value converted at a hank's scale, and whether it counts as clipped. -/
def convertValue (s : State) (hs : Int) (x : Word) : WireVal × Bool :=
  let r := toWire (isExact s) hs x
  (r.1, r.2 || (isExact s && match r.1 with | some v => decide (exactBound s < v ∨ v < -exactBound s) | none => false))

/-- Contributions of the running execution of a tile, groups in order. -/
def HankRt.own (h : HankRt) (exec tile : Nat) : List Contribution :=
  h.contribs.filter fun c => c.exec == exec && c.tile == tile

/-- Where the sources of a contribution stand in the retention region (R59, R223): hanks in the order of the image, tiles in order, groups in
order, 65,536 bytes each (log entry 182). -/
def sourcesAt (s : State) (tag tile group : Nat) : Option Nat :=
  match s.warp.image, findHank s tag with
  | some im, some p =>
    let before := (((hankPlan s).takeWhile fun q => q.tag != tag).map (·.tileCount)).sum
    let off := ((before + (tile - p.firstTile)) * groupCount s + group) * 65536
    match im.memory.find? fun e => e.kind == 6 with
    | some e => if off + 65536 ≤ e.size then some (e.addr + off) else none
    | none => none
  | _, _ => none

/-- The binary32 sources of a contribution, values `i` to `i + n − 1`. -/
def sources (s : State) (tag : Nat) (c : Contribution) (i n : Nat) : List Word :=
  match sourcesAt s tag c.tile c.group with
  | some a => s.skein.readWords (a + 4 * i) n
  | none => []

/-- Put the sources of a contribution where they are retained; an image whose region has no room for them is refused at the skein base
(R284). -/
def putSources (tag : Nat) (c : Contribution) (vals : List Word) (s : State) : State :=
  match sourcesAt s tag c.tile c.group with
  | some a => s.putSkeinWords a vals
  | none => refuseRequest 0 0 s

/-- What the decoder finds as retained sources are read again (R302, R306): every bad word is event 0x2402 with a fault, and the batch is run
again. -/
def readSources (tag : Nat) (c : Contribution) (s : State) : State :=
  match sourcesAt s tag c.tile c.group with
  | some a => (s.skn.bad.filter fun w => decide (a ≤ w ∧ w < a + 65536)).foldl
      (fun t w => faultNow (raise 0x2402 [w, 0] (countErr (sknReg w 0x18) (noteError w 2 false 0 0x3F t)))) s
  | none => s

/-- Every source of a hank that the execution has retained is read again. -/
def readRetained (h : HankRt) (s : State) : State :=
  (h.contribs.filter fun c => c.exec == s.stp.exec).foldl (fun t c => readSources h.tag c t) s

/-- This device's operands of one segment of a tile at the hank's scale. -/
def ownOperands (s : State) (h : HankRt) (tile seg : Nat) : List Operand :=
  (h.own s.stp.exec tile).map fun c =>
    let vs := (sources s h.tag c (1024 * seg) 1024).map (convertValue s h.hs)
    { source := rankOf s, clipped := vs.any (·.2), contributors := 0, vals := vs.map (·.1) }

/-- Count a contribution's clipped values; the first of the hank in the batch raises event 0x2313. -/
def countClips (tag : Nat) (c : Contribution) (s : State) : State :=
  match s.hank tag with
  | none => s
  | some h =>
    let n := ((sources s tag c 0 16384).filter fun x => (convertValue s h.hs x).2).length
    if n == 0 then s
    else
      raiseIf (!h.clipRaised) 0x2313 [tag, rankOf s, c.tile] <|
        (count 48 kClipped n s).onHank tag fun h => { h with clippedSeen := true, clipRaised := true }

-- Adders (R224).

/-- Elementwise exact sum; a marker in any operand makes the sum the marker (R226). -/
def sumVals : List (List WireVal) → List WireVal
  | [] => []
  | [v] => v
  | v :: vs => ((v.zip (sumVals vs)).map fun p => match p.1, p.2 with | some a, some b => some (a + b) | _, _ => none)

/-- Every operand of a segment at this device: own contributions and the partials its position gives it. -/
def expectedOperands (s : State) (tag : Nat) (second : Bool) : Nat :=
  groupCount s + (routeIn s (ownerOf s tag) (rankOf s) second).length

def Adder.at (a : Adder) (second : Bool) (tile seg : Nat) : Bool :=
  a.second == second && a.tile == tile && a.segment == seg

/-- Put operands into an adder, opening it where it is not. -/
def putOperands (second : Bool) (tile seg : Nat) (ops : List Operand) (h : HankRt) : HankRt :=
  if h.adders.any fun a => a.at second tile seg then
    { h with adders := updWhere (fun a => a.at second tile seg) (fun a => { a with operands := a.operands ++ ops }) h.adders }
  else { h with adders := h.adders ++ [{ second := second, tile := tile, segment := seg, operands := ops, done := false }] }

/-- The outcome of an adder that has every operand. -/
structure Checked where
  vals : List WireVal
  /-- Forward or deliver the sum. -/
  go : Bool
  saturated : Bool
  /-- An exact-mode sum left the W32 range (R232). -/
  breach : Bool
  clipped : Bool
  deriving DecidableEq, Repr

/-- The check of a complete sum (R226, R232). The second path is never checked (R240). In exact reel mode a sum that holds a contribution
outside B is no breach: its restart, or its mark, comes from that contribution (R234, R238, log entry 144), and out of range it is not
forwarded. -/
def checkSum (exact second : Bool) (me : Nat) (ops : List Operand) : Checked :=
  let sums := sumVals (ops.map (·.vals))
  let hasMark := sums.any (·.isNone)
  let clipped := ops.any (·.clipped)
  let ownClip := ops.any fun o => o.clipped && o.source == me
  let top : Int := if exact then 2147483647 else 32767
  let out := sums.any fun v => match v with | some x => decide (top < x ∨ x < -top) | none => false
  let markOut := sums.map fun v => match v with | some x => if top < x ∨ x < -top then none else some x | none => none
  if second then ⟨sums, true, false, false, clipped⟩
  else if hasMark then ⟨markOut, true, false, false, clipped⟩
  else if exact then (if clipped then ⟨sums, !out, ownClip, false, clipped⟩ else ⟨markOut, true, ownClip, out, clipped⟩)
  else if out then ⟨sums, false, true, false, clipped⟩
  else ⟨sums, true, ownClip, false, clipped⟩

/-- The payload words of a segment: two W16 values a word, or one 32-bit value. -/
def packVals (wide : Bool) : List WireVal → List Word
  | [] => []
  | [v] => [w32 (wireCode wide v)]
  | a :: b :: r =>
    if wide then w32 (wireCode true a) :: w32 (wireCode true b) :: packVals wide r
    else w32 (wireCode false a + 65536 * wireCode false b) :: packVals wide r

def unpackVals (wide : Bool) : List Word → List WireVal
  | [] => []
  | w :: ws =>
    if wide then ofWireCode true w.toNat :: unpackVals wide ws
    else ofWireCode false (wfield w 15 0) :: ofWireCode false (wfield w 31 16) :: unpackVals wide ws

/-- Parallel port of a segment (R225): segments of a fat ring are spread by their number. -/
def segPort (s : State) (role seg : Nat) : Nat := if isFat s then seg % max 1 (portCount s role) else 0

/-- Forward a partial to the next device of the path (R224, R225). -/
def forwardPartial (tag : Nat) (h : HankRt) (second : Bool) (tile seg : Nat) (contributors : Nat) (c : Checked) (s : State) : State :=
  match routeOut s (ownerOf s tag) (rankOf s) second with
  | none => s
  | some (role, dest) =>
    let wide := second || isExact s
    let hdr : RHdr :=
      { type := 1, path := b2n second, attempt := h.attempt, tag := tag, source := rankOf s, segment := seg, tile := tile,
        batch := s.stp.batch, hs := h.hs, clipped := c.clipped, marker := c.vals.any (·.isNone), wide := wide,
        contributors := contributors }
    countEvt kSegOut (sendReel 1 role (segPort s role seg) dest hdr (packVals wide c.vals) s)

/-- An adder with every operand: check, then forward or deliver (R224). -/
def finishAdder (tag : Nat) (second : Bool) (tile seg : Nat) (s : State) : State :=
  match s.hank tag with
  | none => s
  | some h =>
    match h.adders.find? fun a => a.at second tile seg && !a.done with
    | none => s
    | some a =>
      if a.operands.length < expectedOperands s tag second then s
      else
        let c := checkSum (isExact s) second (rankOf s) a.operands
        let atOwner := ownerOf s tag == rankOf s
        let contributors := 1 + ((routeIn s (ownerOf s tag) (rankOf s) second).map (·.2)).sum
        let s1 := s.onHank tag fun h =>
          { h with
            adders := updWhere (fun a => a.at second tile seg) (fun a => { a with done := c.go }) h.adders
            clippedSeen := h.clippedSeen || c.clipped
            sat := h.sat || c.saturated
            marker := h.marker || c.vals.any (·.isNone) || c.breach
            delivered := if atOwner && c.go then h.delivered ++ [⟨second, tile, seg, c.vals⟩] else h.delivered }
        let s2 := if c.go && !atOwner then forwardPartial tag h second tile seg contributors c s1 else s1
        if c.breach then noteNonfinite (raise 0x2314 [tag, tile, rankOf s] s2) else s2

/-- Put this device's operands of a tile into the adders of its sixteen segments. -/
def enterTile (tag : Nat) (second : Bool) (tile : Nat) (s : State) : State :=
  (List.range 16).foldl (fun t seg =>
    match t.hank tag with
    | none => t
    | some h => finishAdder tag second tile seg (t.onHank tag (putOperands second tile seg (ownOperands t h tile seg)))) s

/-- Enter every tile of a hank whose contributions are all there. -/
def enterHank (tag : Nat) (second : Bool) (s : State) : State :=
  match findHank s tag, s.hank tag with
  | some p, some h =>
    (List.range p.tileCount).foldl (fun t i =>
      let tile := p.firstTile + i
      if (h.own s.stp.exec tile).length == groupCount s then enterTile tag second tile t else t) s
  | _, _ => s

-- Completion of a path.

/-- Segments that this device has finished on a path. -/
def HankRt.doneCount (h : HankRt) (second : Bool) : Nat := (h.adders.filter fun a => a.second == second && a.done).length

/-- Delivered values of a path in tile and segment order. -/
def HankRt.deliveredVals (h : HankRt) (second : Bool) (tile seg : Nat) : List WireVal :=
  match h.delivered.find? fun d => d.second == second && d.tile == tile && d.segment == seg with
  | some d => d.vals
  | none => []

/-- The first element in which the two paths differ, over the hank's tiles (R241). -/
def firstDiff (h : HankRt) (p : Hank) : Option (Nat × Nat) :=
  let at' (i : Nat) : Nat × Nat := (p.firstTile + i / 16, i % 16)
  match (List.range (16 * p.tileCount)).find? fun i =>
      h.deliveredVals false (at' i).1 (at' i).2 != h.deliveredVals true (at' i).1 (at' i).2 with
  | none => none
  | some i =>
    let a := h.deliveredVals false (at' i).1 (at' i).2
    let b := h.deliveredVals true (at' i).1 (at' i).2
    let e := ((List.range 1024).find? fun k => a.getD k none != b.getD k none).getD 0
    some ((at' i).1, (at' i).2 * 1024 + e)

/-- Keep the capture of a comparator's first mismatch in a batch, unless one waits for carding (R385). -/
def capture (comparator : Nat) (c : Capture) (s : State) : State :=
  s.onPly fun y =>
    { y with captured := comparator :: y.captured
             capture := if y.capture.isSome || y.captured.contains comparator then y.capture else some c }

/-- What a reel suspect's capture holds (R385): the retained contributions of the differing tile. -/
def reelCapture (s : State) (p : Hank) (h : HankRt) (tile e : Nat) : Capture :=
  let at' (second : Bool) : Word := w32 (wireCode (isExact s) ((h.deliveredVals second tile (e / 1024)).getD (e % 1024) none))
  ⟨leBytes 3 p.tag ++ leBytes 4 tile ++ List.replicate 9 0, e, at' false, at' true,
    (h.contribs.filter fun c => c.tile == tile).map fun c => .wide (sources s p.tag c 0 16384), [], 0, [.reelEngine (Fin.ofNat 12 p.tag)]⟩

/-- The owner compares the two delivered sums (R241): a difference is a failed check whose suspect is its reel engine (R383). -/
def comparePaths (p : Hank) (h : HankRt) (s : State) : State :=
  let s1 := countEvt kTwoPath (s.onHank p.tag fun h => { h with compared := true })
  match firstDiff h p with
  | none => s1
  | some (tile, e) =>
    raise 0x2320 [p.tag, tile, e] <| countErr kTwoPathBad <| capture (56 + p.tag % 12) (reelCapture s p h tile e) <|
      (s1.onStp fun b => { b with twoPathFail := true }).onPly fun y =>
        { y with cardLater := y.cardLater ++ [.reelEngine (Fin.ofNat 12 p.tag)].filter fun u => !y.cardLater.contains u }

/-- The largest magnitude among wire values. -/
def maxAbs (vs : List WireVal) : Nat := vs.foldl (fun m v => match v with | some x => max m x.natAbs | none => m) 0

/-- Abandon the shard of a hank (R487). -/
def abandonShard (tag : Nat) (s : State) : State :=
  s.onReel fun r => { r with shards := updWhere (fun x => x.tag == tag) (fun x => { x with abandoned := true }) r.shards }

/-- Cycles from the first F issue (R181). -/
def sinceFirstF (s : State) : Nat := arithCycles s - s.stp.firstFCycle

/-- U begins when the first shard of this device has its reduced slice (R181). -/
def beginU (s : State) : State :=
  s.onStp fun b =>
    if b.phases.u.start.isNone then
      { b with phases := { b.phases with u := { b.phases.u with start := some (sinceFirstF s) } } }
    else b

/-- A sum of the hank's first path holds a clipped contribution: a restart, or the mark, is on its way (R232 to R234). -/
def HankRt.clippedSum (h : HankRt) : Bool := h.adders.any fun a => !a.second && a.operands.any (·.clipped)

/-- State of a hank after a path has gone as far as it can on this device. The owner does not take a sum that is to be formed again. -/
def hankProgress (tag : Nat) (s : State) : State :=
  match findHank s tag, s.hank tag with
  | some p, some h =>
    let total := 16 * p.tileCount
    let atOwner := p.owner == rankOf s
    match h.st with
    | .first =>
      let marked := atOwner && h.delivered.any fun d => d.vals.any (·.isNone)
      if h.doneCount false == total && (marked || !atOwner || !h.clippedSum) then
        let fm := if atOwner then h.delivered.foldl (fun m d => max m (maxAbs d.vals)) 0 else h.finalMax
        let st : HankSt := if marked then .nonfinite else if h.sampled then .second else .delivered
        let s1 := s.onHank tag fun x => { x with st := st, finalMax := fm }
        if marked then abandonShard tag s1 else s1
      else s
    | .second =>
      if h.doneCount true == total then
        let s1 := s.onHank tag fun x => { x with st := .delivered }
        if atOwner && !h.compared then comparePaths p h s1 else s1
      else s
    | _ => s
  | _, _ => s

/-- After the first path of a sampled hank has gone through here, its second path begins (R240). -/
def secondPath (tag : Nat) (was : HankSt) (s : State) : State :=
  match s.hank tag with
  | some h => if h.st == .second && was == .first then hankProgress tag (enterHank tag true (readRetained h s)) else s
  | none => s

/-- Move a hank on. -/
def advanceHank (tag : Nat) (s : State) : State :=
  match s.hank tag with
  | some h => secondPath tag h.st (hankProgress tag s)
  | none => s

/-- The reel takes contributions at once in tile-by-tile mode; in settled mode once B has ended on the device (R196). -/
def reelOpen (s : State) : Bool := !s.stp.settled || s.stp.phases.b.stop.isSome

-- Restart (R233 to R235).

/-- A RESCALE message. -/
def rescaleMsg (s : State) (tag attempt source detector : Nat) (hs : Int) : RHdr × List Word :=
  ({ plainHdr s 2 tag s.stp.batch with attempt := attempt, source := source, hs := hs },
   [w32 (detector * 65536 + unsigned 16 hs)])

/-- The scale after a restart, and after a number of them. -/
def nextHs (hs : Int) : Int := min (hs + 4) 128
def hsAfter : Nat → Int → Int
  | 0, hs => hs
  | n + 1, hs => hsAfter n (nextHs hs)

/-- HS of a batch's start (R227). -/
def startHs (rho e : Int) : Int := max (-192) (min (rho + e) 128)

/-- A device obeys or orders a restart (R233): partials go, the scale rises, the contributions are converted again. A hank that still
awaits its agreed scale takes the step when that comes. -/
def restartHank (tag : Nat) (s : State) : State :=
  let s1 := countEvt kRestarts <| s.onHank tag fun h =>
    { h with adders := [], delivered := [], hs := nextHs h.hs, attempt := h.attempt + 1, st := if h.agreed then .first else h.st
             sat := false, compared := false }
  match s1.hank tag with
  | none => s1
  | some h =>
    let s2 := (h.contribs.filter fun c => c.exec == s.stp.exec).foldl (fun t c => countClips tag c t) (readRetained h s1)
    if reelOpen s2 then advanceHank tag (enterHank tag false s2) else s2

/-- The owner marks a hank non-finite (R234). -/
def markHank (tag : Nat) (s : State) : State :=
  noteNonfinite <| raise 0x2312 [tag] <| countEvt kResat <| abandonShard tag <|
    s.onHank tag fun h => { h with st := .nonfinite }

/-- The owner takes a RESCALE for an attempt (R233, R234): the first for each attempt counts, and a marker at the owner governs. -/
def ownerRescale (tag attempt detector : Nat) (s : State) : State :=
  match s.hank tag with
  | none => s
  | some h =>
    if h.attempt != attempt || h.rescaled.contains attempt || h.marker || h.st == .nonfinite || s.stp.skipHeld then s
    else
      let s1 := s.onHank tag fun h => { h with rescaled := attempt :: h.rescaled }
      if attempt == 0 then
        let m := rescaleMsg s tag 0 (rankOf s) detector (nextHs h.hs)
        restartHank tag <| distribute 5 (rankOf s) m.1 m.2 <|
          raise 0x2311 [tag, unsigned 16 h.hs, unsigned 16 (nextHs h.hs), detector] s1
      else markHank tag s1

/-- Send what a saturation found here asks for (R233): to the owner along the first path, or to itself. -/
def askRescale (tag : Nat) (s : State) : State :=
  match s.hank tag with
  | none => s
  | some h =>
    if h.sat && !h.asked.contains h.attempt then
      let s1 := s.onHank tag fun x => { x with sat := false, asked := x.attempt :: x.asked }
      match routeOut s (ownerOf s tag) (rankOf s) false with
      | none => ownerRescale tag h.attempt (rankOf s) s1
      | some (role, dest) =>
        let m := rescaleMsg s tag h.attempt (rankOf s) (rankOf s) (nextHs h.hs)
        sendReel 5 role 0 dest m.1 m.2 s1
    else s

/-- After work on a hank: move it on, then ask for a restart; a restart at the owner can saturate once more. -/
def settleHank (tag : Nat) (s : State) : State := askRescale tag (askRescale tag (advanceHank tag s))

-- Contributions enter the reel (R195, R196, R222).

/-- Every gradient and P-factor contribution of the execution has drained here, or its hank is abandoned. -/
def allDrained (s : State) : Bool :=
  (hankPlan s).all fun p =>
    p.kind == 2 ||
    match s.hank p.tag with
    | some h =>
      h.st == .abandoned || h.st == .nonfinite ||
        (h.contribs.filter fun c => c.exec == s.stp.exec).length == p.tileCount * groupCount s
    | none => true

/-- Open a hank that waits for its first operand. -/
def openHank (tag : Nat) (s : State) : State :=
  s.onHank tag fun h => if h.st == .idle then { h with st := .first } else h

/-- G begins with the first tile that leaves a twist unit (R181). -/
def beginG (s : State) : State :=
  s.onStp fun b =>
    if b.phases.g.start.isNone then
      { b with phases := { b.phases with g := { b.phases.g with start := some (sinceFirstF s) } } }
    else b

/-- Keep a contribution's source (R223); a tile drained again by a later execution takes its place. -/
def keepContribution (c : Contribution) (h : HankRt) : HankRt :=
  { h with contribs := (h.contribs.filter fun x => !(x.tile == c.tile && x.group == c.group)) ++ [c] }

/-- A hank no longer takes contributions: a skip notice is held, or the hank is abandoned (R205, R487). -/
def hankShut (s : State) (tag : Nat) : Bool := s.stp.skipHeld || match s.hank tag with | some h => h.st == .abandoned | none => false

/-- A drained gradient tile becomes a contribution of its hank, while the hank takes any. -/
def contribute (tag tile group : Nat) (vals : List Word) (s : State) : State :=
  if hankShut s tag then s
  else
    let c : Contribution := ⟨s.stp.exec, tile, group⟩
    let s1 := countClips tag c (putSources tag c vals (s.onHank tag (keepContribution c)))
    if !reelOpen s1 then s1
    else
      match s1.hank tag with
      | none => s1
      | some h =>
        if (h.own s.stp.exec tile).length == groupCount s then
          settleHank tag (enterTile tag false tile (openHank tag (beginG s1)))
        else beginG s1

/-- In settled mode G starts as B ends: what every hank holds enters the reel (R196). -/
def startG (s : State) : State :=
  if s.stp.skipHeld then s
  else
    (hankPlan s).foldl (fun t p =>
      match t.hank p.tag with
      | some h =>
        if h.st == .abandoned || h.st == .nonfinite || (h.contribs.filter fun c => c.exec == s.stp.exec).isEmpty then t
        else settleHank p.tag (enterHank p.tag false (openHank p.tag (beginG t)))
      | none => t) s

-- HANK_SEGMENT (R224, R235, R253).

/-- A message that fails a check of R253 is not used. -/
def reelInvalid (r : Rx) (s : State) : State :=
  let h := readRHdr r.frame.payload
  faultNow (raise 0x2330 [h.tag, h.type, h.source] s)

/-- The bits of the word behind the header that a type does not name are zero (R18, R252). -/
def bodyClear (type : Nat) (ws : List Word) : Bool :=
  if type == 6 then wfield (wordAt ws 8) 3 2 == 0 && wfield (wordAt ws 8) 15 8 == 0 else decide (type < 7) || wfield (wordAt ws 9) 31 16 == 0

/-- The checks of R253 on every message: known type and tag, batch, reserved fields. -/
def reelValid (s : State) (ws : List Word) : Bool :=
  let h := readRHdr ws
  let committed := decide (4 ≤ h.type)
  decide (1 ≤ h.type ∧ h.type ≤ 10) && (findHank s h.tag).isSome && rsvClear ws && bodyClear h.type ws && decide (h.path ≤ 1) &&
    decide (h.attempt ≤ 1) &&
  (decide (9 ≤ h.type) || h.batch == (if committed then decidedBatch s else s.stp.batch)) &&
  (h.type == 1 || h.contributors == 0)

/-- An operand that a segment brings. -/
def segOperand (h : RHdr) (ws : List Word) : Operand :=
  { source := h.source, clipped := h.clipped, contributors := h.contributors, vals := unpackVals h.wide (ws.drop 8) }

/-- Use a segment of the hank's current attempt. -/
def useSegment (h : RHdr) (ws : List Word) (s : State) : State :=
  let second := h.path == 1
  let o := segOperand h ws
  let marked := o.vals.any (·.isNone)
  let s0 := if marked then noteNonfinite (raise 0x2322 [h.tag] (countEvt kMarkers s)) else s
  let s1 := (openHank h.tag s0).onHank h.tag fun x =>
    putOperands second h.tile h.segment [o] { x with clippedSeen := x.clippedSeen || h.clipped, marker := x.marker || marked }
  settleHank h.tag (finishAdder h.tag second h.tile h.segment s1)

/-- A segment of a known hank (R235): below the current attempt it is discarded, above it it is held. -/
def takeSegment (r : Rx) (s : State) : State :=
  let ws := r.frame.payload
  let h := readRHdr ws
  match s.hank h.tag with
  | none => s
  | some x =>
    let good := (routeIn s (ownerOf s h.tag) (rankOf s) (h.path == 1)).any (fun p => p.1 == h.source && p.2 == h.contributors) &&
      h.wide == (h.path == 1 || isExact s) && ws.length == 8 + (if h.wide then 1024 else 512)
    if !good then reelInvalid r s
    else if x.st == .abandoned || x.st == .nonfinite || h.attempt < x.attempt then s
    else if x.attempt < h.attempt then s.onHank h.tag fun y => { y with held := y.held ++ [r] }
    else useSegment h ws s

/-- HANK_SEGMENT at its endpoint. -/
def onSegment (r : Rx) (s : State) : State := takeSegment r (countEvt kSegIn s)

/-- Segments held for the attempt that a restart has begun (R235). -/
def releaseSegments (tag : Nat) (s : State) : State :=
  match s.hank tag with
  | none => s
  | some h => h.held.foldl (fun t r => takeSegment r t) (s.onHank tag fun x => { x with held := [] })

/-- RESCALE at its endpoint: from the owner an order, from another device a request on its way to the owner (R233). -/
def onRescale (r : Rx) (s : State) : State :=
  let ws := r.frame.payload
  let m := readRHdr ws
  let owner := ownerOf s m.tag
  let me := rankOf s
  let body := ws.drop 8
  let detector := wfield (wordAt body 0) 31 16
  if m.source == owner then
    let s1 := (distNext s owner me).foldl (fun t p => sendReel 5 p.1 0 p.2 m body t) s
    match s.hank m.tag with
    | none => s1
    | some h =>
      if h.attempt == m.attempt && !s.stp.skipHeld && h.st != .abandoned then
        releaseSegments m.tag (settleHank m.tag (restartHank m.tag s1))
      else s1
  else if owner == me then releaseSegments m.tag (settleHank m.tag (ownerRescale m.tag m.attempt detector s))
  else
    match routeOut s owner me false with
    | none => s
    | some (role, dest) => sendReel 5 role 0 dest m body s

end Sys2Proof.Machine
end

