-- ==== Sys2Proof/Machine/Batch.lean ====
section
/-! DEFINITION. The batch of a device in logical terms (R176, R177, R208, R209, R262, R362): sequences, shards, micro-batches, the
coordinates of a token and its place in the token-data region. -/

namespace Sys2Proof.Machine

-- Context-shard groups (R209).

/-- n of R209. -/
def ctxGroup (s : State) : Nat := match s.warp.image with | some im => max 1 im.hanks.ctxGroup | none => 1

/-- Index j of this device within its group, and the next rank of the group. -/
def ctxIndex (s : State) : Nat := rankOf s % ctxGroup s
def ctxNext (s : State) : Nat :=
  let n := ctxGroup s
  let g := rankOf s / n * n
  g + (rankOf s + 1 - g) % n

/-- Positions of this device's shard of a sequence (R362). -/
def shardLen (s : State) (e : SeqEntry) : Nat := e.length / ctxGroup s

-- Micro-batches (R177).

/-- Sequences of the accepted descriptor, in logical order. -/
def batchSeqs (s : State) : List SeqEntry := match s.stp.desc with | some d => d.seqs | none => []

/-- Sequences per micro-batch (PLACE). -/
def mbSize (s : State) : Nat := match s.warp.image with | some im => max 1 im.place.microBatchSeqs | none => 1

/-- Micro-batches of the batch; the last may hold fewer sequences. -/
def mbCount (s : State) : Nat := ceilDiv (batchSeqs s).length (mbSize s)

/-- The whole sequences of a micro-batch. -/
def mbSeqs (s : State) (mb : Nat) : List SeqEntry := ((batchSeqs s).drop (mb * mbSize s)).take (mbSize s)

/-- Tokens of sequences on this device. -/
def tokensOf (s : State) (es : List SeqEntry) : Nat := (es.map (shardLen s)).sum

def mbTokens (s : State) (mb : Nat) : Nat := tokensOf s (mbSeqs s mb)

/-- The sequence of token `i` in logical order, and its index in this device's shard of it. -/
def tokenIn (s : State) : Nat → List SeqEntry → Option (SeqEntry × Nat)
  | _, [] => none
  | i, e :: es => if i < shardLen s e then some (e, i) else tokenIn s (i - shardLen s e) es

/-- Logical (SEQ, POS) of token `i` of a micro-batch (R176, R209, R262): logical rows of an activation count these tokens (log entry
133). -/
def tokenAt (s : State) (mb i : Nat) : Nat × Nat :=
  match tokenIn s i (mbSeqs s mb) with
  | some (e, k) => (e.seq, ctxIndex s * shardLen s e + k)
  | none => (0, 0)

-- Key blocks (R209, R211, R213).

/-- Blocks of keys in a shard of a sequence. -/
def shardBlocks (s : State) (e : SeqEntry) : Nat := ceilDiv (shardLen s e) 1024

/-- The key blocks of a query row in the order of R213, those with an unmasked key; its position; its sequence. -/
structure RowKeys where
  seq : SeqEntry
  pos : Nat
  order : List Nat
  deriving DecidableEq, Repr

def rowKeys (s : State) (mb row : Nat) : Option RowKeys :=
  (tokenIn s row (mbSeqs s mb)).map fun x =>
    let n := ctxGroup s
    let pos := ctxIndex s * shardLen s x.1 + x.2
    let bs := (List.range n).flatMap fun t => (List.range (shardBlocks s x.1)).map ((ctxIndex s + n - t) % n * shardBlocks s x.1 + ·)
    ⟨x.1, pos, bs.filter fun b => decide (1024 * b ≤ pos)⟩

/-- The shard whose keys an attention layer processes at its present ring step (R213). -/
def shardNow (s : State) (layer : Nat) : Nat :=
  let n := ctxGroup s
  (ctxIndex s + n - assocGet 0 layer s.stp.ring % n) % n

-- Token data (R362, R364).

/-- The token-data region: address and half its size (R364). -/
def tokenRegion (s : State) : Nat × Nat :=
  match s.warp.image with
  | some im => match im.memory.find? fun e => e.kind == 3 with
    | some e => (e.addr, e.size / 2)
    | none => (0, 0)
  | none => (0, 0)

/-- Where the half of a batch starts. -/
def tokenHalf (s : State) (half : Bool) : Nat := let r := tokenRegion s; r.1 + if half then r.2 else 0

/-- Address of the two words of token `i` of a micro-batch. -/
def tokenAddr (s : State) (mb i : Nat) : Nat :=
  let half := match s.stp.desc with | some d => d.half | none => false
  tokenHalf s half + 8 * (tokensOf s ((batchSeqs s).take (mb * mbSize s)) + i)

/-- The token contributes a loss and is counted (R362). -/
def targetCounts (s : State) (mb i : Nat) : Bool := s.skein.readWord (tokenAddr s mb i + 4) != 0xFFFFFFFF

/-- Tokens of a micro-batch that count (R198, R362). -/
def lossTokens (s : State) (mb : Nat) : Nat := ((List.range (mbTokens s mb)).filter (targetCounts s mb)).length

end Sys2Proof.Machine
end

