-- ==== Sys2Proof/Machine/Nep.lean ====
section
/-! DEFINITION. Nep generators (R257 to R270, R276): the generator Philox4x32-10, stream keys, counters and draws. -/

namespace Sys2Proof.Machine

/-- Four words of a generator. -/
structure Quad where
  x0 : Word
  x1 : Word
  x2 : Word
  x3 : Word
  deriving DecidableEq, Repr

/-- Upper half of the 64-bit product. -/
def mulHi (a b : Word) : Word := w32 (a.toNat * b.toNat / 2 ^ 32)

/-- One round of R261 after its key schedule. -/
def philoxRound (k0 k1 : Word) (q : Quad) : Quad :=
  ⟨mulHi 0xCD9E8D57 q.x2 ^^^ q.x1 ^^^ k0, 0xCD9E8D57 * q.x2, mulHi 0xD2511F53 q.x0 ^^^ q.x3 ^^^ k1, 0xD2511F53 * q.x0⟩

/-- `n` rounds from keys k0, k1. -/
def philoxRounds : Nat → Word → Word → Quad → Quad
  | 0, _, _, q => q
  | n + 1, k0, k1, q => philoxRounds n (k0 + 0x9E3779B9) (k1 + 0xBB67AE85) (philoxRound k0 k1 q)

/-- Philox4x32-10 (R261). -/
def philox (k0 k1 : Word) (c : Quad) : Quad := philoxRounds 10 k0 k1 c

/-- A stream key (R260). -/
def streamKey (seed : List Byte) (id : Word) : Word × Word :=
  let h := shake256 8 (ascii "DVK-NEP" ++ seed ++ leBytes 4 id.toNat)
  (w32 (leNat (h.take 4)), w32 (leNat (h.drop 4)))

/-- STREAM_ID (R257). -/
def streamId (use copy tensor layer slot : Nat) : Word :=
  w32 (use * 2 ^ 30 + copy * 2 ^ 28 + tensor * 2 ^ 24 + layer * 1024 + slot)

/-- The NEP entry of a stream. -/
def findStream (s : State) (id : Word) : Option Stream :=
  match s.warp.image with
  | some im => im.nep.find? fun e => e.id == id
  | none => none

/-- Counter forms T, W and S (R263), c0 first. -/
def counterT (b seq pos feat : Nat) : Quad :=
  ⟨w32 (pos % 256 * 2 ^ 24 + feat % 2 ^ 24), w32 (seq % 65536 * 65536 + pos / 256 % 65536),
   w32 (b % 65536 * 65536 + seq / 65536 % 65536), w32 (b / 65536)⟩
def counterW (row col : Nat) : Quad := ⟨w32 (col % 2 ^ 24), w32 (row % 2 ^ 24), 0, 0⟩
def counterS (rk : Nat) (pos : Nat) : Quad := ⟨0, w32 (pos % 2 ^ 24), w32 rk, w32 (rk / 2 ^ 32)⟩

/-- The counter of a free-running lane (R266): generator number, lane, evaluations so far. -/
def counterLane (b gen lane n : Nat) : Quad :=
  let v := (8 * lane + 512 * n) % 2 ^ 48
  ⟨w32 v, w32 (gen * 2), w32 b, w32 (v / 2 ^ 32 * 65536 + b / 2 ^ 32 % 65536)⟩

/-- Word `i` of an output. -/
def Quad.word (q : Quad) : Nat → Word
  | 0 => q.x0
  | 1 => q.x1
  | 2 => q.x2
  | _ => q.x3

/-- Field `j` of an output (R265). -/
def Quad.half (q : Quad) (j : Nat) : Nat := wfield (q.word (j / 2)) (16 * (j % 2) + 15) (16 * (j % 2))

/-- A 16-bit draw at form-T coordinates in keyed (mode 0) or shared-draw mode (R264, R265). -/
def draw16 (mode : Nat) (key : Word × Word) (b seq pos feat : Nat) : Nat :=
  if mode == 1 then (philox key.1 key.2 (counterT b seq pos (feat - feat % 8))).half (feat % 8)
  else wfield (philox key.1 key.2 (counterT b seq pos feat)).x0 31 16

/-- A keyed 24-bit draw (R264). -/
def draw24 (key : Word × Word) (c : Quad) : Nat := wfield (philox key.1 key.2 c).x0 31 8

/-- The seed in force; empty before one is accepted. -/
def seedOf (s : State) : List Byte := s.nep.seed.getD []

/-- κ of a dropout stream (R269). -/
def dropKappa (rate : Nat) : Word := (fdiv (ofNat32 65536) (ofNat32 (65536 - rate))).bits

/-- The initial value of a parameter element (R270): `none` for a tensor without an initialisation stream. -/
def initValue (st : Option Stream) (key : Word × Word) (row col : Nat) : Word :=
  match st with
  | none => 0
  | some e =>
    if e.initConstant then e.initScale
    else
      let d := draw24 key (counterW row col)
      (fmul e.initScale (scaleInt32 ((d : Int) - 2 ^ 23) (-23)).bits).bits

end Sys2Proof.Machine
end

