-- ==== Sys2Proof/Machine/Update.lean ====
section
/-! DEFINITION. Shards and their update engines (R218, R244 to R249, R270, R287, R288, R381): element order, gradients, recipes,
leaves, initialisation, and the low-rank factors (R242, R243). -/

namespace Sys2Proof.Machine

-- Element order (R217, R249).

/-- Tiles across a matrix of `n` columns. -/
def gridCols (n : Nat) : Nat := ceilDiv n 128

/-- Coordinates of a tile's real elements, row by row. -/
def tileCoords (rows cols tile : Nat) : List (Nat × Nat) :=
  let tr := tile / gridCols cols
  let tc := tile % gridCols cols
  (List.range (min 128 (rows - tr * 128))).flatMap fun r =>
    (List.range (min 128 (cols - tc * 128))).map fun c => (tr * 128 + r, tc * 128 + c)

/-- Coordinates of a shard's elements in logical order (R249): a low-rank shard is a set of weight rows. -/
def shardCoords (l : Layer) (h : Hank) : List (Nat × Nat) :=
  let tiles := (List.range h.tileCount).map (h.firstTile + ·)
  if h.kind == 0 then tiles.flatMap (tileCoords l.kExtent l.nExtent)
  else
    let g := gridCols h.rank
    (tiles.filter fun t => t % g == 0).flatMap fun t =>
      (List.range (min 128 (l.kExtent - t / g * 128))).flatMap fun r =>
        (List.range l.nExtent).map fun c => (t / g * 128 + r, c)

/-- Hanks that define a shard (R218, R244): gradient and P-factor hanks. -/
def shardHanks (s : State) : List Hank := (hankPlan s).filter fun h => h.kind != 2

/-- Hanks whose shard this device owns. -/
def ownShards (s : State) : List Hank := (shardHanks s).filter fun h => h.owner == rankOf s

def State.shard (s : State) (tag : Nat) : Option Shard := s.reel.shards.find? fun x => x.tag == tag

def State.onShard (s : State) (tag : Nat) (f : Shard → Shard) : State :=
  s.onReel fun r => { r with shards := updWhere (fun x => x.tag == tag) f r.shards }

-- The buffers of a shard (R204, R249).

/-- The values of one side of a shard. -/
structure ShardBuf where
  b1t : Word
  b2t : Word
  w : List Word
  m : List Word
  v : List Word
  deriving DecidableEq, Repr

/-- Elements of a shard. -/
def shardCount (s : State) (p : Hank) : Nat :=
  match layerOf s p.layer with
  | some l => (shardCoords l p).length
  | none => 0

def isAdamw (s : State) : Bool := match s.warp.image with | some im => im.hanks.adamw | none => false

/-- Where one side of a shard stands: its state header, its weights, and its first moments with the second ones behind them (log entry
137). Side A is the region of kind 9 with the optimiser state of kind 11; side B is the shadow region of kind 10. -/
structure SidePlace where
  hdr : Nat
  w : Nat
  m : Nat
  deriving DecidableEq, Repr

def sidePlace (s : State) (p : Hank) (second : Bool) : Option SidePlace :=
  if second then (shardRegion s 10 p.tag).map fun e => ⟨e.addr, e.addr + 256, e.addr + 256 + 4 * shardCount s p⟩
  else
    match shardRegion s 9 p.tag, shardRegion s 11 p.tag with
    | some e, some o => some ⟨e.addr, e.addr + 256, o.addr + 256⟩
    | _, _ => none

/-- The values of one side of a shard as skein holds them. -/
def sideBuf (s : State) (p : Hank) (second : Bool) : ShardBuf :=
  match sidePlace s p second with
  | none => ⟨0, 0, [], [], []⟩
  | some x =>
    let n := shardCount s p
    ⟨s.skein.readWord (x.hdr + 4), s.skein.readWord (x.hdr + 8), s.skein.readWords x.w n, s.skein.readWords x.m n,
     if isAdamw s then s.skein.readWords (x.m + 4 * n) n else []⟩

/-- Write one side of a shard: the powers in its header, then its values. -/
def putSide (p : Hank) (second : Bool) (b : ShardBuf) (s : State) : State :=
  match sidePlace s p second with
  | none => s
  | some x => ((s.putSkeinWords (x.hdr + 4) [b.b1t, b.b2t]).putSkeinWords x.w b.w).putSkeinWords x.m (b.m ++ b.v)

/-- The master and shadow buffers of a shard (R204). -/
def masterBuf (s : State) (p : Hank) : ShardBuf := sideBuf s p (shardSel s p.tag)
def shadowBuf (s : State) (p : Hank) : ShardBuf := sideBuf s p (!shardSel s p.tag)

/-- The single write of the buffer selector that exchanges the roles of a shard's buffers (R204). -/
def flipSel (tag : Nat) (s : State) : State :=
  match shardRegion s 9 tag with
  | some e => s.putSkeinWords e.addr [s.skein.readWord e.addr ^^^ 1]
  | none => s

-- Leaves (R287).

/-- Hash the chunks of a shard's values. -/
def chunkHashes (tag : Nat) : Nat → Nat → List Word → List Byte
  | 0, _, _ => []
  | n + 1, i, ws =>
    shake256 32 (ascii "DVK-PLYC" ++ leBytes 3 tag ++ leBytes 4 i ++ wordsBytes (ws.take 16384)) ++
      chunkHashes tag n (i + 1) (ws.drop 16384)

/-- The leaf of a shard (R287). -/
def leafOf (tag : Nat) (w : List Word) : List Byte :=
  shake256 32 (ascii "DVK-PLYS" ++ leBytes 3 tag ++ leBytes 8 w.length ++ chunkHashes tag (ceilDiv w.length 16384) 0 w)

-- Gradients (R244, R245).

/-- A gradient value with the saturations of the operations that made it. -/
structure GradRes where
  val : FRes
  ovf : Nat
  deriving DecidableEq, Repr

def GradRes.of (rs : List FRes) : GradRes := ⟨rs.getLastD ⟨0, {}⟩, (rs.filter (·.flags.ovf)).length⟩

/-- Lines 1 and 2 of R245: the delivered sum as binary32 at its scale, then with 2^E removed. -/
def unscaledOps (exact : Bool) (hs e : Int) (v : WireVal) : List FRes :=
  match v with
  | none => [finish false .nan]
  | some x =>
    let f := scaleInt32 x (hs - if exact then 16 else 0)
    [f, scalePow2 f.bits (-e)]

def unscaled (exact : Bool) (hs e : Int) (v : WireVal) : FRes := (unscaledOps exact hs e v).getLastD ⟨0, {}⟩

/-- The delivered sums of a gradient hank in logical order. -/
def deliveredOrder (l : Layer) (p : Hank) (h : HankRt) : List WireVal :=
  ((List.range p.tileCount).map (p.firstTile + ·)).flatMap fun t =>
    let tr := t / gridCols l.nExtent
    let tc := t % gridCols l.nExtent
    let cols := min 128 (l.nExtent - tc * 128)
    let rows := min 128 (l.kExtent - tr * 128)
    let vs := (List.range 16).flatMap (h.deliveredVals false t)
    (List.range rows).flatMap fun r => (vs.drop (128 * r)).take cols

/-- Inputs of R245 to R247 for one element. -/
structure ElemIn where
  g : Word
  w : Word
  m : Word
  v : Word
  deriving DecidableEq, Repr

/-- Results for one element, and the number of operations that saturated. -/
structure ElemOut where
  w : Word
  m : Word
  v : Word
  ovf : Nat
  deriving DecidableEq, Repr

/-- Saturations among operations (R140, R248). -/
def ovfCount (rs : List FRes) : Nat := (rs.filter (·.flags.ovf)).length

/-- What every element of a shard's update shares. -/
structure Recipe where
  hk : Hanks
  lr : Word
  /-- β1ᵗ and β2ᵗ after this update. -/
  b1t : Word
  b2t : Word
  decay : Bool
  deriving DecidableEq, Repr

/-- The operations of SGD with momentum (R247): m, the Nesterov term, the decayed direction, the new weight. -/
def sgdStep (r : Recipe) (x : ElemIn) : ElemOut :=
  let m := ffma r.hk.beta1 x.m x.g
  let n := ffma r.hk.beta1 m.bits x.g
  let d0 := if r.hk.nesterov then n else m
  let d := ffma r.hk.weightDecay x.w d0.bits
  let w := ffma (fneg r.lr) (if r.decay then d else d0).bits x.w
  ⟨w.bits, m.bits, x.v, ovfCount ([m, w] ++ (if r.hk.nesterov then [n] else []) ++ if r.decay then [d] else [])⟩

/-- The operations of AdamW (R247). -/
def adamStep (r : Recipe) (x : ElemIn) : ElemOut :=
  let m1 := fmul (fsub one32 r.hk.beta1).bits x.g
  let m := ffma r.hk.beta1 x.m m1.bits
  let v1 := fmul x.g x.g
  let v2 := fmul (fsub one32 r.hk.beta2).bits v1.bits
  let v := ffma r.hk.beta2 x.v v2.bits
  let mh := fdiv m.bits (fsub one32 r.b1t).bits
  let vh := fdiv v.bits (fsub one32 r.b2t).bits
  let rt := fsqrt vh.bits
  let den := fadd rt.bits r.hk.epsilon
  let u0 := fdiv mh.bits den.bits
  let u := ffma r.hk.weightDecay x.w u0.bits
  let w := ffma (fneg r.lr) (if r.decay then u else u0).bits x.w
  ⟨w.bits, m.bits, v.bits, ovfCount ([m1, m, v1, v2, v, mh, vh, rt, den, u0, w] ++ if r.decay then [u] else [])⟩

def recipeStep (r : Recipe) (x : ElemIn) : ElemOut := if r.hk.adamw then adamStep r x else sgdStep r x

/-- The interval of a breakpoint table in which `t` lies, as its lower and upper breakpoints. -/
def lrInterval (t : Nat) : List (Nat × Word) → Option ((Nat × Word) × (Nat × Word))
  | a :: b :: r => if a.1 ≤ t ∧ t < b.1 then some (a, b) else lrInterval t (b :: r)
  | _ => none

/-- The learning rate at step `t` (R246). -/
def learningRate (t : Nat) (lr : List (Nat × Word)) : Word :=
  match lr with
  | [] => 0
  | first :: _ =>
    let last := lr.getLastD first
    if t ≤ first.1 then first.2
    else if last.1 ≤ t then last.2
    else
      match lrInterval t lr with
      | none => last.2
      | some (a, b) =>
        let f := (fdiv (ofNat32 (t - a.1)) (ofNat32 (b.1 - a.1))).bits
        (ffma f (fsub b.2 a.2).bits a.2).bits

/-- The recipe of a shard's update: β powers once per shard (R247). -/
def recipeOf (s : State) (hk : Hanks) (p : Hank) (buf : ShardBuf) : Recipe :=
  { hk := hk, lr := learningRate s.stp.stepIndex hk.lr, b1t := (fmul buf.b1t hk.beta1).bits, b2t := (fmul buf.b2t hk.beta2).bits,
    decay := p.decay }

/-- Zip a buffer's values with gradients. -/
def elemIns (adamw : Bool) (buf : ShardBuf) (gs : List Word) : List ElemIn :=
  let vs := if adamw then buf.v else buf.w.map fun _ => 0
  (gs.zip (buf.w.zip (buf.m.zip vs))).map fun p => ⟨p.1, p.2.1, p.2.2.1, p.2.2.2⟩

/-- The new buffer of an update, and its saturations. -/
def updateBuf (r : Recipe) (buf : ShardBuf) (gs : List Word) : ShardBuf × Nat :=
  let outs := (elemIns r.hk.adamw buf gs).map (recipeStep r)
  (⟨if r.hk.adamw then r.b1t else buf.b1t, if r.hk.adamw then r.b2t else buf.b2t, outs.map (·.w), outs.map (·.m),
    if r.hk.adamw then outs.map (·.v) else buf.v⟩, (outs.map (·.ovf)).sum)

/-- ΣΔ² and Σw² in binary64 (R172). -/
def ratioSums (old new : List Word) : Nat × Nat :=
  ((old.zip new).foldl (fun a p => add64 a (sqDiff64 p.2 p.1)) 0, old.foldl (fun a w => add64 a (sqDiff64 w 0)) 0)

-- Low-rank factors (R242 to R244).

def State.lowRank (s : State) (layer : Nat) : Option LowRankRt := s.reel.lowRank.find? fun x => x.layer == layer

def State.onLowRank (s : State) (layer : Nat) (f : LowRankRt → LowRankRt) : State :=
  s.onReel fun r => { r with lowRank := updWhere (fun x => x.layer == layer) f r.lowRank }

/-- Column `c` of a row-major matrix. -/
def columnOf (cols : Nat) (m : List Word) (c : Nat) : List Word := (List.range (m.length / cols)).map fun r => m.getD (r * cols + c) 0

/-- The dot product, products rounded, reduced under R139. -/
def dot (a b : List Word) : Word := (reduce (map2 fmul a b).vals).bits

/-- Remove from `v` its part along a unit column. -/
def project (v u : List Word) : List Word :=
  let d := dot u v
  (map2 (fun x y => (fmul d y).then fun t => fsub x t) v u).vals

/-- A column divided by its norm; a zero norm gives a zero column (R243). -/
def normalise (v : List Word) : List Word × Bool :=
  let n := (fsqrt (dot v v)).bits
  if (dec32 n).isZero then (v.map fun _ => 0, true) else ((map1 (fun x => fdiv x n) v).vals, false)

/-- Modified Gram–Schmidt over columns in ascending order (R243): the columns and the numbers of degenerate ones. -/
def gramSchmidt (cols : List (List Word)) : List (List Word) × List Nat :=
  cols.foldl (fun acc v =>
    let u := normalise (acc.1.foldl project v)
    (acc.1 ++ [u.1], if u.2 then acc.2 ++ [acc.1.length] else acc.2)) ([], [])

/-- Columns back into a row-major matrix of `rows` rows. -/
def fromColumns (rows : Nat) (cols : List (List Word)) : List Word :=
  (List.range rows).flatMap fun r => cols.map fun c => c.getD r 0

/-- Orthonormalise a row-major matrix of `r` columns. -/
def orthonormal (r : Nat) (m : List Word) : List Word × List Nat :=
  let g := gramSchmidt ((List.range r).map (columnOf r m))
  (fromColumns (m.length / r) g.1, g.2)

/-- The operations of g_ij = Σ_c P̂[i][c] × Q′[j][c], each product and addition rounded, times GRAD_NORM (R244). -/
def factorGradOps (r : Nat) (phat q : List Word) (norm : Word) (i j : Nat) : List FRes :=
  let ops := (List.range r).foldl (fun (a : List FRes) c =>
    let m := fmul (phat.getD (i * r + c) 0) (q.getD (j * r + c) 0)
    fadd (a.headD ⟨0, {}⟩).bits m.bits :: m :: a) []
  ops.reverse ++ [fmul (ops.headD ⟨0, {}⟩).bits norm]

/-- Rank of a layer's factors. -/
def rankOfLayer (s : State) (layer : Nat) : Nat :=
  match (hankPlan s).find? fun h => h.layer == layer && h.kind != 0 with
  | some h => h.rank
  | none => 0

/-- Put the values of an 8-row, 128-column piece into a row-major matrix. -/
def putPiece (cols r0 c0 : Nat) (vals m : List Word) : List Word :=
  (m.zipIdx).map fun p =>
    let r := p.2 / cols
    let c := p.2 % cols
    if r0 ≤ r ∧ r < r0 + 8 ∧ c0 ≤ c ∧ c < c0 + 128 then vals.getD ((r - r0) * 128 + (c - c0)) 0 else p.1

/-- Segments of a layer's factor, over every hank of the kind. -/
def factorSegments (s : State) (layer kind : Nat) : Nat :=
  (((hankPlan s).filter fun h => h.layer == layer && h.kind == kind).map fun h => 16 * h.tileCount).sum

/-- A segment of a delivered factor comes to this device (R243): the last one of P makes P̂, with event 0x2340 for each zero
column. -/
def takeFactor (layer kind tile seg : Nat) (vals : List Word) (s : State) : State :=
  let r := rankOfLayer s layer
  let g := gridCols r
  let r0 := tile / g * 128 + 8 * seg
  let c0 := tile % g * 128
  match s.lowRank layer with
  | none => s
  | some x =>
    if kind == 2 then
      if x.gotQ.contains (tile, seg) then s
      else s.onLowRank layer fun y => { y with qNext := putPiece r r0 c0 vals y.qNext, gotQ := (tile, seg) :: y.gotQ }
    else if x.gotP.contains (tile, seg) then s
    else
      let p := putPiece r r0 c0 vals x.p
      let s1 := s.onLowRank layer fun y => { y with p := p, gotP := (tile, seg) :: y.gotP }
      if x.gotP.length + 1 == factorSegments s layer 1 then
        let o := orthonormal r p
        o.2.foldl (fun t c => raise 0x2340 [layer, c] t) (s1.onLowRank layer fun y => { y with phat := o.1, pDone := true })
      else s1

/-- The owner of a delivered factor hank sends it to every device and takes it itself (R243 steps 2 and 5). -/
def sendFactor (tag : Nat) (s : State) : State :=
  match findHank s tag, s.hank tag with
  | some p, some h =>
    (List.range (16 * p.tileCount)).foldl (fun t i =>
      let tile := p.firstTile + i / 16
      let seg := i % 16
      let vals := (h.deliveredVals false tile seg).map fun v => (unscaled (isExact s) h.hs s.num.e v).bits
      let hdr := { plainHdr s 5 tag (decidedBatch s) with tile := tile, segment := seg, hs := h.hs }
      takeFactor p.layer p.kind tile seg vals (distribute 2 p.owner hdr vals t)) s
  | _, _ => s

/-- The first path of a hank has delivered here (R245). -/
def HankSt.reduced (x : HankSt) : Bool := x == .second || x == .delivered

/-- Send factors of hanks that have come to be delivered between two states. -/
def sendNewFactors (before s : State) : State :=
  (hankPlan s).foldl (fun t p =>
    let was := match before.hank p.tag with | some h => h.st | none => .idle
    match t.hank p.tag with
    | some h =>
      if p.kind != 0 && p.owner == rankOf s && !was.reduced && h.st.reduced then sendFactor p.tag t else t
    | none => t) s

-- Phases (R181, R487).

/-- A hank is over on this device: through, or abandoned. -/
def HankSt.over : HankSt → Bool
  | .delivered | .nonfinite | .abandoned => true
  | _ => false

/-- Every shard of this device has its shadow copy or is abandoned. -/
def shardsOver (s : State) : Bool :=
  (ownShards s).all fun p => match s.shard p.tag with | some x => x.shadowReady || x.abandoned | none => true

/-- The reduced slice of a shard is here (R200): delivered, or both factors for a low-rank one. -/
def sliceReady (s : State) (p : Hank) : Bool :=
  match s.hank p.tag with
  | none => false
  | some h =>
    h.st.reduced &&
    (p.kind == 0 || match s.lowRank p.layer with
      | some x => x.gotP.length == factorSegments s p.layer 1 && x.gotQ.length == factorSegments s p.layer 2
      | none => false)

/-- The parts of B are done, or can no longer be done: its activation gradients, and every weight-gradient drain (R181, R487). -/
def bOver (s : State) : Bool := (s.stp.actDone || s.stp.lostB != 0) && (s.stp.skipHeld || allDrained s)

/-- A phase that runs ends now where `c` holds. -/
def Span.endIf (c : Bool) (now : Nat) (p : Span) : Span :=
  if c && p.start.isSome && p.stop.isNone then { p with stop := some now } else p

/-- Event 0x1302 once for the batch, at the end of F (R192). -/
def tellReduced (s : State) : State :=
  s.bob.stages.foldl (fun t b => raiseIf (b.reduced != 0 && !b.told) 0x1302 [b.stage, b.reduced] t)
    (s.onBob fun b => { b with stages := b.stages.map fun x => { x with told := x.told || x.reduced != 0 } })

/-- F ends (R181). -/
def endF (s : State) : State :=
  if s.stp.phases.f.stop.isNone then
    tellReduced (s.onStp fun b => { b with phases := { b.phases with f := b.phases.f.endIf true (sinceFirstF s) } })
  else s

/-- B ends when its parts are over; in settled mode G starts then (R196). -/
def endB (s : State) : State :=
  if s.stp.phases.b.start.isSome && s.stp.phases.b.stop.isNone && bOver s then
    let s1 := s.onStp fun b => { b with phases := { b.phases with b := b.phases.b.endIf true (sinceFirstF s) } }
    if s.stp.settled then startG s1 else s1
  else s

/-- U begins with the first shard whose reduced slice is complete (R181). -/
def startU (s : State) : State := if (ownShards s).any (sliceReady s) then beginU s else s

/-- Note the phases that begin or end with what has just been done. -/
def noteSpans (s : State) : State :=
  let s1 := startU (endB (if s.stp.lostF then endF s else s))
  let now := sinceFirstF s
  let gOver := s1.reel.hanks.all fun h => h.st.over
  let uOver := shardsOver s1
  s1.onStp fun b => { b with phases := { b.phases with g := b.phases.g.endIf gOver now, u := b.phases.u.endIf uOver now } }

/-- Note the phases; where G starts with the end of B, factors that are delivered there go out (R196, R243). -/
def noteEnds (s : State) : State := noteSpans (sendNewFactors s (noteSpans s))

-- Work that can no longer be done (R487).

/-- Abandon the hanks of `which` that still wait for a contribution of this device, with their shards. -/
def abandonHanks (which : Hank → Bool) (s : State) : State :=
  (hankPlan s).foldl (fun t p =>
    match t.hank p.tag with
    | some h =>
      let lacks := (h.contribs.filter fun c => c.exec == s.stp.exec).length < p.tileCount * groupCount s
      if which p && lacks && !h.st.over then abandonShard p.tag (t.onHank p.tag fun x => { x with st := .abandoned, held := [] })
      else t
    | none => t) s

/-- What B does below a layer is lost: its activation gradients, and the weight gradients that need them. -/
def loseBelow (bound : Nat) (s : State) : State :=
  dropPartGradients (fun k => decide (k < bound))
    (abandonHanks (fun p => decide (p.layer < bound)) (s.onStp fun b => { b with lostB := max b.lostB bound }))

/-- An input of F is lost: what B and the reel would make of it goes too, at every layer. -/
def loseF (s : State) : State := loseBelow 65536 (s.onStp fun b => { b with lostF := true })

/-- Work of a phase at a layer can no longer be done (log entry 138). -/
def loseWork (phase : Phase) (layer : Nat) (s : State) : State :=
  match phase with
  | .fwd => loseF s
  | .bAct => loseBelow layer s
  | .bRecomp => loseBelow (layer + 1) s
  | .bWgt | .lowRank => dropPartGradients (· == layer) (abandonHanks (fun p => p.layer == layer) s)
  | .selfTest => s

-- UPDATE_SHARD (R200, R245 to R248).

/-- The gradient that a delivered sum gives (R245). -/
def gradOf (exact : Bool) (hs e : Int) (norm : Word) (v : WireVal) : GradRes :=
  let ops := unscaledOps exact hs e v
  GradRes.of (ops ++ [fmul (ops.getLastD ⟨0, {}⟩).bits norm])

/-- The gradient of every element of a shard. -/
def shardGrads (s : State) (hk : Hanks) (l : Layer) (p : Hank) (h : HankRt) : List GradRes :=
  if p.kind == 0 then (deliveredOrder l p h).map (gradOf (isExact s) h.hs s.num.e hk.gradNorm)
  else
    match s.lowRank p.layer with
    | some x => (shardCoords l p).map fun c => GradRes.of (factorGradOps p.rank x.phat x.qNext hk.gradNorm c.1 c.2)
    | none => []

/-- Digest of a ply unit (R377). -/
def checkKey (s : State) : List Byte := shake256 32 (ascii "DVK-PLYK" ++ seedOf s)

def unitDigest (s : State) (identity : List Byte) : List Byte :=
  shake256 32 (ascii "DVK-PLY" ++ checkKey s ++ identity ++ leBytes 6 s.stp.batch ++ leBytes 1 s.stp.exec)

/-- A unit is sampled at a rate of 1 in 2^`n` (R377). -/
def sampledAt (n : Nat) (digest : List Byte) : Bool := leNat (digest.take 2) % 2 ^ n == 0

/-- Segments of a shard's update that are sampled (R381). -/
def sampledSegments (s : State) (tag count : Nat) : List Nat :=
  let n := match s.warp.image with | some im => im.updateLog2 | none => 16
  (List.range (ceilDiv count 1024)).filter fun i => sampledAt n (unitDigest s (leBytes 3 tag ++ leBytes 4 i ++ List.replicate 9 0))

/-- Count saturations of update engines; the first in a batch raises event 0x2350 (R97, R248). -/
def noteUpdateOvf (tag n : Nat) (s : State) : State :=
  if n == 0 then s
  else raiseIf (!s.stp.updateOvfRaised) 0x2350 [tag] ((count 48 kUpdateOvf n s).onStp fun b => { b with updateOvfRaised := true })

/-- The inputs of one segment of a shard's update (R381). -/
def segmentInputs (s : State) (l : Layer) (p : Hank) (h : HankRt) (old : ShardBuf) (gs : List GradRes) (i : Nat) : List Word :=
  let part (ws : List Word) : List Word := (ws.drop (1024 * i)).take 1024
  let sums := if p.kind == 0 then (deliveredOrder l p h).map fun v => w32 (wireCode (isExact s) v) else gs.map (·.val.bits)
  [w32 (unsigned 32 h.hs), w32 (unsigned 32 s.num.e), old.b1t, old.b2t] ++ part sums ++ part old.w ++ part old.m ++ part old.v

/-- The shadow values of segment `i` that are compared (R381): master values, m, and v where the recipe has it. -/
def segmentWords (adamw : Bool) (b : ShardBuf) (i : Nat) : List Word :=
  let part (ws : List Word) : List Word := (ws.drop (1024 * i)).take 1024
  part b.w ++ part b.m ++ if adamw then part b.v else []

/-- The update engine's work on one shard: the shadow buffer, its leaf, the ratio sums and the segments to check. -/
def updateShard (hk : Hanks) (l : Layer) (p : Hank) (h : HankRt) (s : State) : State :=
  let gs := shardGrads s hk l p h
  let old := masterBuf s p
  let r := updateBuf (recipeOf s hk p old) old (gs.map (·.val.bits))
  let sums := ratioSums old.w r.1.w
  let s1 := (putSide p (!shardSel s p.tag) r.1 (beginU s)).onShard p.tag fun y =>
    { y with shadowReady := true, shadowLeaf := leafOf p.tag r.1.w, d2 := sums.1, w2 := sums.2 }
  let s2 := s1.onPly fun y =>
    { y with segWaits := y.segWaits ++ (sampledSegments s p.tag r.1.w.length).map fun i =>
        ⟨p.tag, i, segmentInputs s l p h old gs i, segmentWords hk.adamw r.1 i⟩ }
  noteEnds (noteUpdateOvf p.tag (r.2 + (gs.map (·.ovf)).sum) s2)

-- Initialisation (R270, R288, R454).

/-- A shard as a job starts it: both headers clear, so that side A is the master, and the master's values as given (R249, R270, R403). -/
def startShard (p : Hank) (b : ShardBuf) (s : State) : State :=
  let clear (kind : Nat) (t : State) : State :=
    match shardRegion t kind p.tag with
    | some e => t.putSkeinWords e.addr (List.replicate 64 0)
    | none => t
  (putSide p false b (clear 11 (clear 10 (clear 9 s)))).onReel fun r =>
    { r with shards := r.shards ++ [⟨p.tag, false, false, [], leafOf p.tag b.w, 0, 0⟩] }

/-- A shard as R270 starts it: the powers one and the optimiser state +0. -/
def initShard (l : Layer) (p : Hank) (s : State) : State :=
  let id := streamId 2 2 2 l.id 0
  let w := (shardCoords l p).map fun c => initValue (findStream s id) (streamKey (seedOf s) id) c.1 c.2
  let z := w.map fun _ => (0 : Word)
  startShard p ⟨one32, one32, w, z, if isAdamw s then z else []⟩ s

/-- The key of the low-rank Q of a layer (R242, R270): that of its TENSOR 0x3 stream, listed in the image or not (log entry 146). -/
def lowRankKey (s : State) (l : Layer) : Word × Word := streamKey (seedOf s) (streamId 2 2 3 l.id 0)

/-- A low-rank layer as its job starts (R242, R243): a column of Q whose norm is zero raises event 0x2340. -/
def initLowRank (l : Layer) (s : State) : State :=
  let r := rankOfLayer s l.id
  let one : Stream := ⟨streamId 2 2 3 l.id 0, 0, false, 0, one32⟩
  let q0 := (List.range (l.nExtent * r)).map fun i => initValue (some one) (lowRankKey s l) (i / r) (i % r)
  let o := orthonormal r q0
  let x : LowRankRt := { layer := l.id, q := o.1, p := List.replicate (l.kExtent * r) 0, phat := [],
                         qNext := List.replicate (l.nExtent * r) 0, gotP := [], gotQ := [], pDone := false }
  o.2.foldl (fun t c => raise 0x2340 [l.id, c] t) (s.onReel fun y => { y with lowRank := y.lowRank ++ [x] })

/-- Layers of the image in low-rank mode. -/
def lowRankLayers (s : State) : List Layer :=
  match s.warp.image with
  | some im => im.layers.filter (·.lowRank)
  | none => []

end Sys2Proof.Machine
end

