-- ==== Sys2Proof/Machine/Params.lean ====
section
/-! DEFINITION. What the reel carries between batches and after a commit: hank scales (R227 to R230), factors (R243), narrow
parameters (R204, R250, R251), leaves of the ply digest (R451 to R454), key and value blocks (R213, R342), and their timeouts
(R254). -/

namespace Sys2Proof.Machine


-- Formats in force (R158, R161).

/-- A layer's operand formats under a fallback mode (R158). -/
def effFmt (m : NMode) (l : Layer) (r : Role) : Nat :=
  match r with
  | .act => if m == .fallback && l.actFmt == 0 then 1 else l.actFmt
  | .weight => if m == .fallback && l.weightFmt == 0 then 1 else l.weightFmt
  | .grad => if m == .fallback && l.gradFmt == 0 then 2 else l.gradFmt

def roleStaple (l : Layer) : Role → Nat
  | .act => l.actStaple
  | .weight => l.weightStaple
  | .grad => l.gradStaple

def roleTwist (l : Layer) : Role → Nat
  | .act => l.actTwist
  | .weight => l.weightTwist
  | .grad => l.gradTwist

/-- The mode of a layer in a list of fallback states. -/
def modeIn (ms : List LayerNum) (id : Nat) : NMode := (ms.getD id ⟨.notCandidate, 0, false⟩).mode

/-- The modes of the next batch. -/
def nextModes (s : State) : List LayerNum := match s.num.next with | some n => n.modes | none => s.num.layers

/-- E of the next batch. -/
def nextE (s : State) : Int := match s.num.next with | some n => n.e | none => s.num.e

/-- Slub cap of a layer's tensors (R161) and the outlier ratio (R156). -/
def slubCapOf (s : State) (m : NMode) : Nat :=
  if m == .storm then 3 else match s.warp.image with | some im => im.numeric.slubCap | none => 0
def outlierLog2 (s : State) : Nat := match s.warp.image with | some im => im.numeric.outlierLog2 | none => 1

/-- How an operand of a layer is written under a mode; none for a wide format. -/
def operandWrite (s : State) (m : NMode) (l : Layer) (r : Role) : Option WriteFmt :=
  (NFmt.ofCode (effFmt m l r)).map fun f => ⟨f, roleStaple l r, roleTwist l r, slubCapOf s m, outlierLog2 s⟩

-- Hank scales.

/-- a(x) of the largest magnitude in a list of binary32 values: 2^(a−1) ≤ |x| < 2^a; none for all zero or non-finite. -/
def largestA (xs : List Word) : Option Int :=
  xs.foldl (fun m w => maxLead m ((leading (dec32 w)).map (· + 1))) none

/-- This device's proposal for a hank (R227), from its contributions and, at the owner in the default mode, the delivered sum. -/
def ownProposal (s : State) (p : Hank) (h : HankRt) (e : Int) : Int :=
  let loc := largestA ((h.contribs.filter fun c => c.exec == s.stp.exec).flatMap fun c => sources s p.tag c 0 16384)
  let fin : Option Int := if p.owner == rankOf s && h.finalMax != 0 then some (h.hs + h.finalMax.log2 + 1) else none
  match (if isExact s then loc else maxLead loc fin) with
  | none => -192 - e
  | some a => if isExact s then a + groupsLog2 s - 13 - e else a - e - 13

/-- A table message: count and 16-bit values, two a word (R252). -/
def packRhos : List Int → List Word
  | [] => []
  | [a] => [w32 (unsigned 16 a)]
  | a :: b :: r => w32 (unsigned 16 a + 65536 * unsigned 16 b) :: packRhos r

/-- Value `i` of a table message. -/
def rhoAt (body : List Word) (i : Nat) : Int :=
  signed 16 (wfield (wordAt body (1 + i / 2)) (16 * (i % 2) + 15) (16 * (i % 2)))

/-- The agreed ρ of a hank is held (R228): a hank that waited for it starts at the scale it gives, restarts ordered since included. -/
def agreeScale (tag : Nat) (rho : Int) (s : State) : State :=
  s.onHank tag fun h =>
    let g := { h with rho := rho, agreed := true }
    if s.stp.running && !h.agreed then
      { g with hs := hsAfter h.attempt (startHs rho s.num.e)
               st := if h.st == .awaitScale then (if h.adders.isEmpty then .idle else .first) else h.st }
    else g

/-- Pass a hank's proposal on when this route position has gathered every one (R228): the maximum goes to the next device, or, at
the owner, is the agreed value and goes to every device. -/
def tryAgree (tag : Nat) (s : State) : State :=
  match s.hank tag with
  | none => s
  | some h =>
    let owner := ownerOf s tag
    match h.proposals with
    | [] => s
    | p :: ps =>
      if h.proposals.length < 1 + (routeIn s owner (rankOf s) false).length then s
      else
        let m := ps.foldl (fun a q => max a q.2) p.2
        let s1 := s.onHank tag fun x => { x with proposals := [] }
        match routeOut s owner (rankOf s) false with
        | some (role, dest) =>
          sendReel 1 role 0 dest (plainHdr s 3 tag s.stp.batch) (1 :: packRhos [m]) s1
        | none =>
          agreeScale tag m (distribute 2 owner (plainHdr s 4 tag (decidedBatch s)) (1 :: packRhos [m]) s1)

/-- One gathered proposal; a second one from the same device is not taken. -/
def addProposal (tag source : Nat) (rho : Int) (s : State) : State :=
  tryAgree tag <| s.onHank tag fun h =>
    if h.proposals.any fun q => q.1 == source then h else { h with proposals := h.proposals ++ [(source, rho)] }

/-- A table message has its form: a count up to 1,024 and that many values, of hanks of one owner. -/
def tableValid (s : State) (ws : List Word) : Bool :=
  let h := readRHdr ws
  let c := (wordAt ws 8).toNat
  decide (1 ≤ c ∧ c ≤ 1024) && ws.length == 9 + ceilDiv c 2 &&
    (List.range c).all fun i => (findHank s (h.tag + i)).isSome && ownerOf s (h.tag + i) == ownerOf s h.tag

/-- SCALE_PROPOSAL at its endpoint (R228). -/
def onProposal (r : Rx) (s : State) : State :=
  let ws := r.frame.payload
  let h := readRHdr ws
  if tableValid s ws && (routeIn s (ownerOf s h.tag) (rankOf s) false).any fun p => p.1 == h.source then
    (List.range (wordAt ws 8).toNat).foldl (fun t i => addProposal (h.tag + i) h.source (rhoAt (ws.drop 8) i) t) s
  else reelInvalid r s

/-- Pass a committed message on along the distribution route of its hank's owner (R250). -/
def passOn (r : Rx) (s : State) : State :=
  let h := readRHdr r.frame.payload
  (distNext s (ownerOf s h.tag) (rankOf s)).foldl
    (fun t p => sendReel 2 p.1 0 p.2 h (r.frame.payload.drop 8) t) s

/-- SCALE_AGREED at its endpoint (R228). -/
def onAgreed (r : Rx) (s : State) : State :=
  let ws := r.frame.payload
  let h := readRHdr ws
  if tableValid s ws then
    (List.range (wordAt ws 8).toNat).foldl (fun t i => agreeScale (h.tag + i) (rhoAt (ws.drop 8) i) t) (passOn r s)
  else reelInvalid r s

/-- FACTOR_RESULT at its endpoint (R243). -/
def onFactor (r : Rx) (s : State) : State :=
  let ws := r.frame.payload
  let h := readRHdr ws
  match findHank s h.tag with
  | some p =>
    if p.kind != 0 && ws.length == 1032 then
      let s1 := passOn r s
      if r.frame.exec.toNat == s.stp.exec then takeFactor p.layer p.kind h.tile h.segment (ws.drop 8) s1 else s1
    else reelInvalid r s
  | none => s

-- The next execution's hanks (R230, R239, R395).

/-- The two-path selection of a hank (R239). -/
def twoPathSampled (s : State) (tag batch : Nat) : Bool :=
  match s.warp.image with
  | some im =>
    leNat ((shake256 32 (ascii "DVK-2PATH" ++ seedOf s ++ leBytes 3 tag ++ leBytes 6 batch)).take 2) % 2 ^ im.hanks.twoPathLog2 == 0
  | none => false

/-- A hank as an execution of `batch` finds it: what belonged to an earlier execution is gone, its scale table and retained
contributions stay (R395), and in a replay of the batch what it has raised once (`keep`). -/
def HankRt.fresh (keep sampled : Bool) (h : HankRt) : HankRt :=
  { h with
    attempt := 0, st := if h.agreed then .idle else .awaitScale, sampled := sampled, clippedSeen := false,
    clipRaised := keep && h.clipRaised, adders := [], delivered := [], rescaled := [], held := [], compared := false, sat := false,
    asked := [], marker := false }

/-- Every hank of the image for the next execution; `keep` says whether retained contributions stay. -/
def renewHanks (keep : Bool) (s : State) : State :=
  s.onReel fun r => { r with
    hanks := r.hanks.map fun h =>
      let g := h.fresh keep (twoPathSampled s h.tag s.stp.batch)
      if keep then g else { g with contribs := [] }
    lowRank := r.lowRank.map fun x => { x with gotP := [], gotQ := [], pDone := false } }

/-- A hank at the start of a job (R230). -/
def HankRt.first (p : Hank) : HankRt :=
  { tag := p.tag, rho := p.initRel, agreed := true, hs := 0, attempt := 0, st := .idle, sampled := false, clippedSeen := false,
    clipRaised := false, contribs := [], adders := [], delivered := [], finalMax := 0, rescaled := [],
    held := [], proposals := [], compared := false, sat := false, asked := [], marker := false }

-- Narrow parameters (R204, R250).

/-- Elements of a tile that are no padding (R217). -/
def tileRowsN (l : Layer) (tile : Nat) : Nat := min 128 (l.kExtent - tile / gridCols l.nExtent * 128)
def tileColsN (l : Layer) (tile : Nat) : Nat := min 128 (l.nExtent - tile % gridCols l.nExtent * 128)

/-- The weight tiles that a shard covers: those of its hank, or the whole rows of a low-rank one (R244). -/
def shardTiles (l : Layer) (p : Hank) : List Nat :=
  let tiles := (List.range p.tileCount).map (p.firstTile + ·)
  if p.kind == 0 then tiles
  else
    let g := gridCols p.rank
    (tiles.filter fun t => t % g == 0).flatMap fun t =>
      (List.range (gridCols l.nExtent)).map fun c => t / g * gridCols l.nExtent + c

/-- A shard's values of one weight tile, row by row. -/
def tileValues (l : Layer) (p : Hank) (w : List Word) (tile : Nat) : List (List Word) :=
  let rows := tileRowsN l tile
  let cols := tileColsN l tile
  if p.kind == 0 then
    let base := ((List.range (tile - p.firstTile)).map fun i => tileRowsN l (p.firstTile + i) * tileColsN l (p.firstTile + i)).sum
    (List.range rows).map fun r => (w.drop (base + r * cols)).take cols
  else
    let g := gridCols p.rank
    let tr := tile / gridCols l.nExtent
    let before := ((List.range p.tileCount).map (p.firstTile + ·)).filter fun t => t % g == 0 && decide (t / g < tr)
    let base := (before.map fun t => min 128 (l.kExtent - t / g * 128)).sum
    (List.range rows).map fun r => (w.drop ((base + r) * l.nExtent + tile % gridCols l.nExtent * 128)).take cols

/-- Columns of a list of rows. -/
def transposed (cols : Nat) (rows : List (List Word)) : List (List Word) :=
  (List.range cols).map fun c => rows.map fun r => r.getD c 0

/-- Round up to a 256-byte boundary. -/
def up256 (n : Nat) : Nat := ceilDiv n 256 * 256

/-- Bytes of a wide format code: BF16 and binary32. -/
def wideBytes (fmt : Nat) : Nat := if fmt == 3 then 2 else 4

/-- Where a narrow copy's arrays stand in a layer's parameter region (log entry 40): the feature-axis copy (staples along K_EXTENT,
one row per output feature), then the token-axis copy (staples along N_EXTENT). -/
structure CopyPlace where
  fmt : NFmt
  kLen : Nat
  size : Nat
  elem : Nat
  hdr : Nat
  slub : Nat
  deriving DecidableEq, Repr

def copyPlace (l : Layer) (f : NFmt) (base copy : Nat) : CopyPlace :=
  let size := stapleSize l.weightStaple
  let n := l.kExtent * l.nExtent
  let eb := up256 (n * f.bits / 8)
  let hb := up256 (n / size * 2)
  let sb := up256 (n / size * 6)
  let b := if copy == 0 then base else base + eb + hb + sb
  ⟨f, if copy == 0 then l.kExtent else l.nExtent, size, b, b + eb, b + eb + hb⟩

/-- Skein address of the parameter region of a layer; none where the image places none. -/
def paramBase (s : State) (layer : Nat) : Option Nat :=
  match s.warp.image with
  | some im => (im.memory.find? fun e => e.kind == 8 && e.layer == layer).map fun e => e.stack * 2 ^ 37 + e.offset
  | none => none

/-- Rows of a segment of a copy: the first row, how many, the first position along the row and how many. -/
structure SegShape where
  row0 : Nat
  rows : Nat
  k0 : Nat
  ks : Nat
  deriving DecidableEq, Repr

def segShape (l : Layer) (copy tile seg : Nat) : SegShape :=
  let tr := tile / gridCols l.nExtent
  let tc := tile % gridCols l.nExtent
  if copy == 0 then ⟨tc * 128 + 8 * seg, min 8 (tileColsN l tile - 8 * seg), tr * 128, tileRowsN l tile⟩
  else ⟨tr * 128 + 8 * seg, min 8 (tileRowsN l tile - 8 * seg), tc * 128, tileColsN l tile⟩

/-- Skein pieces (address, length) that a segment's bytes fill, in the order of the payload: elements, headers, side lists of its
rows; a wide segment is its rows. -/
def segPlaces (l : Layer) (fmt base copy tile seg : Nat) : List (Nat × Nat) :=
  let g := segShape l copy tile seg
  match NFmt.ofCode fmt with
  | some f =>
    let p := copyPlace l f base copy
    let rows := (List.range g.rows).map (g.row0 + ·)
    (rows.map fun r => (elemAddr f p.elem p.kLen r g.k0, g.ks * f.bits / 8)) ++
      (rows.map fun r => (hdrAddr p.hdr p.kLen p.size r g.k0, g.ks / p.size * 2)) ++
      (rows.map fun r => (slubAddr p.slub p.kLen p.size r g.k0, g.ks / p.size * 6))
  | none =>
    (List.range g.rows).map fun i => (base + ((g.row0 + i) * l.nExtent + g.k0) * wideBytes fmt, g.ks * wideBytes fmt)

/-- One emitted segment. -/
structure Emitted where
  copy : Nat
  fmt : Nat
  tile : Nat
  seg : Nat
  bytes : List Byte
  counts : Counts
  ovf : Nat
  deriving DecidableEq, Repr

/-- A segment of a narrow copy: rows written under R145, with round-to-nearest-even. -/
def emitNarrow (w : WriteFmt) (fmt copy tile seg : Nat) (rows : List (List Word)) : Emitted :=
  let rs := ((rows.drop (8 * seg)).take 8).map (writeRow w none)
  { copy := copy, fmt := fmt, tile := tile, seg := seg
    bytes := (rs.flatMap fun r => r.staples.flatMap (stapleElemBytes w.fmt)) ++ (rs.flatMap fun r => r.staples.flatMap stapleHdrBytes) ++
      (rs.flatMap fun r => r.staples.flatMap stapleSlubBytes)
    counts := rs.foldl (fun a r => a.add r.counts) Counts.zeros, ovf := (rs.map (·.ovf)).sum }

/-- Bytes of a wide value. -/
def wideValueBytes (fmt : Nat) (w : Word) : List Byte :=
  if fmt == 3 then leBytes 2 ((toBf16 w).bits.toNat / 65536) else leBytes 4 w.toNat

/-- A segment of a wide tensor. -/
def emitWide (fmt tile seg : Nat) (rows : List (List Word)) : Emitted :=
  { copy := 2, fmt := fmt, tile := tile, seg := seg
    bytes := ((rows.drop (8 * seg)).take 8).flatMap fun r => r.flatMap (wideValueBytes fmt)
    counts := Counts.zeros, ovf := 0 }

/-- The sixteen segments of a tile, those without a row left out. -/
def tileSegments (f : Nat → Emitted) : List Emitted := ((List.range 16).map f).filter fun e => !e.bytes.isEmpty

/-- Everything that a shard emits, tile by tile: both narrow copies, or the wide one. -/
def shardEmission (s : State) (m : NMode) (l : Layer) (p : Hank) (w : List Word) : List Emitted :=
  let fmt := effFmt m l .weight
  (shardTiles l p).flatMap fun t =>
    let rows := tileValues l p w t
    match operandWrite s m l .weight with
    | some wf =>
      tileSegments (fun g => emitNarrow wf fmt 0 t g (transposed (tileColsN l t) rows)) ++
        tileSegments (fun g => emitNarrow wf fmt 1 t g rows)
    | none => tileSegments (fun g => emitWide fmt t g rows)

/-- The reduced Q of a Q-factor hank, in binary32 (R251). -/
def factorEmission (s : State) (p : Hank) (q : List Word) : List Emitted :=
  let n := match layerOf s p.layer with | some l => l.nExtent | none => 0
  ((List.range p.tileCount).map (p.firstTile + ·)).flatMap fun t =>
    let g := gridCols p.rank
    let rows := (List.range (min 128 (n - t / g * 128))).map fun r =>
      ((q.drop ((t / g * 128 + r) * p.rank + t % g * 128)).take (min 128 (p.rank - t % g * 128)))
    tileSegments (fun k => emitWide 4 t k rows)

/-- A segment's payload after the header. -/
def segBody (e : Emitted) : List Word :=
  w32 (e.bytes.length * 65536 + e.fmt * 16 + e.copy) :: bytesWords (ceilDiv e.bytes.length 4) e.bytes

/-- Put a segment where it belongs on this device: the layer's parameter region, or Q (R250, R251). -/
def placeSegment (p : Hank) (copy fmt tile seg : Nat) (bytes : List Byte) (s : State) : State :=
  if p.kind == 2 then
    let g := gridCols p.rank
    let c0 := tile % g * 128
    let cols := min 128 (p.rank - c0)
    let vals := bytesWords (bytes.length / 4) bytes
    s.onLowRank p.layer fun x =>
      { x with q := (x.q.zipIdx).map fun v =>
          let r := v.2 / p.rank
          let c := v.2 % p.rank
          let r0 := tile / g * 128 + 8 * seg
          if r0 ≤ r ∧ r < r0 + 8 ∧ c0 ≤ c ∧ c < c0 + cols then vals.getD ((r - r0) * cols + (c - c0)) 0 else v.1 }
  else
    match layerOf s p.layer, paramBase s p.layer with
    | some l, some base => s.putPlaces (segPlaces l fmt base copy tile seg) bytes
    | _, _ => s

/-- The words of a step index (R252). -/
def stepWords (t : Nat) : List Word := [w32 t, w32 (t / 2 ^ 32 % 65536)]

/-- Emit segments with their PARAM_END (R250, R251). -/
def emitAll (p : Hank) (es : List Emitted) (s : State) : State :=
  let hdr := plainHdr s 6 p.tag (decidedBatch s)
  let s1 := es.foldl (fun t e =>
    distribute 2 p.owner { hdr with tile := e.tile, segment := e.seg } (segBody e)
      (placeSegment p e.copy e.fmt e.tile e.seg e.bytes t)) s
  distribute 2 p.owner { hdr with type := 7 }
    (stepWords s.stp.stepIndex ++ bytesWords 8 (shake256 32 (es.flatMap (·.bytes)))) s1

/-- Add staple counts to one layer's. -/
def addCounts (layer : Nat) (c : Counts) (l : List Counts) : List Counts :=
  (l.zipIdx).map fun p => if p.2 == layer then p.1.add c else p.1

/-- The owner emits a hank's parameters, in the formats of the next batch (R204, R250). -/
def emitHank (p : Hank) (s : State) : State :=
  if p.kind == 2 then
    match s.lowRank p.layer with
    | some x => emitAll p (factorEmission s p x.q) s
    | none => s
  else
    match layerOf s p.layer, s.shard p.tag with
    | some l, some _ =>
      let es := shardEmission s (modeIn (nextModes s) l.id) l p (masterBuf s p).w
      let cs := es.foldl (fun a e => a.add e.counts) Counts.zeros
      noteUpdateOvf p.tag (es.map (·.ovf)).sum <|
        (emitAll p es s).onNum fun n => { n with weightCounts := addCounts p.layer cs n.weightCounts }
    | _, _ => s

/-- Emit again after a fault spoiled what was emitted (R206): event 0x1307. -/
def reEmit (p : Hank) (s : State) : State := emitHank p (raise 0x1307 [p.tag] s)

-- Receiving parameters (R250, R251).

def State.param (s : State) (tag : Nat) : Option ParamRt := s.reel.params.find? fun x => x.tag == tag

def State.onParam (s : State) (tag : Nat) (f : ParamRt → ParamRt) : State :=
  s.onReel fun r => { r with params := updWhere (fun x => x.tag == tag) f r.params }

/-- Hanks whose parameters come from another device. -/
def foreignHanks (s : State) : List Hank :=
  (hankPlan s).filter fun p => p.owner != rankOf s

/-- Await the parameters of every foreign hank (R182). -/
def awaitParams (s : State) : State :=
  s.onReel fun r => { r with params := (foreignHanks s).map fun p => ⟨p.tag, [], false, false⟩ }

/-- Every parameter of a layer is resident (R182). -/
def paramsResident (s : State) (layer : Nat) : Bool :=
  s.reel.params.all fun x => x.ended || match findHank s x.tag with | some p => p.layer != layer | none => true

/-- A segment is one that its hank's owner emits (R204, R250): in the copy and format that the next batch gives the layer, of a tile of the
shard, of its full length, and within the layer's parameter region (R59, R284). -/
def segmentFits (s : State) (p : Hank) (copy fmt tile seg n : Nat) : Bool :=
  decide (seg < 16) &&
  if p.kind == 2 then
    let l := match layerOf s p.layer with | some l => l.nExtent | none => 0
    let g := gridCols p.rank
    copy == 2 && fmt == 4 && decide (p.firstTile ≤ tile ∧ tile < p.firstTile + p.tileCount) &&
      n == 4 * min 8 (min 128 (l - tile / g * 128) - 8 * seg) * min 128 (p.rank - tile % g * 128)
  else
    match s.warp.image, layerOf s p.layer with
    | some im, some l =>
      match im.memory.find? fun e => e.kind == 8 && e.layer == p.layer with
      | some e =>
        let ps := segPlaces l fmt e.addr copy tile seg
        fmt == effFmt (modeIn (nextModes s) l.id) l .weight && (if (NFmt.ofCode fmt).isSome then decide (copy < 2) else copy == 2) &&
          (shardTiles l p).contains tile && n == (ps.map (·.2)).sum && ps.all fun x => decide (e.addr ≤ x.1 ∧ x.1 + x.2 ≤ e.addr + e.size)
      | none => false
    | _, _ => false

/-- PARAM_SEGMENT at its endpoint: one that no owner emits is not used. -/
def onParamSegment (r : Rx) (s : State) : State :=
  let ws := r.frame.payload
  let h := readRHdr ws
  let w := wordAt ws 8
  let n := wfield w 31 16
  let bytes := (wordsBytes (ws.drop 9)).take n
  match findHank s h.tag with
  | none => s
  | some p =>
    if decide (n ≤ 4096) && ws.length == 9 + ceilDiv n 4 && segmentFits s p (wfield w 1 0) (wfield w 7 4) h.tile h.segment n then
      (placeSegment p (wfield w 1 0) (wfield w 7 4) h.tile h.segment bytes (passOn r s)).onParam h.tag
        fun x => { x with bytes := x.bytes ++ bytes, waiting := true }
    else reelInvalid r s

/-- Ask the owner to emit a shard again: until then its parameters are not resident. -/
def requestResend (tag : Nat) (s : State) : State :=
  let h := plainHdr s 8 tag (decidedBatch s)
  sendUnicast (mkFrame ftReel 2 2 tag (ownerOf s tag) (rankOf s) s.stp.exec h.batch (h.words ++ stepWords s.stp.stepIndex)) <|
    countEvt kResends <| s.onParam tag fun x => { x with bytes := [], ended := false, waiting := false }

/-- Ask again where the received parameters differ from what was sent (R251, R254). -/
def askResend (tag : Nat) (s : State) : State := requestResend tag (raise 0x2360 [tag, s.stp.stepIndex] s)

/-- PARAM_END at its endpoint (R251). -/
def onParamEnd (r : Rx) (s : State) : State :=
  let ws := r.frame.payload
  let h := readRHdr ws
  if ws.length == 18 then
    let s1 := passOn r s
    match s1.param h.tag with
    | none => s1
    | some x =>
      if bytesWords 8 (shake256 32 x.bytes) == ws.drop 10 then
        s1.onParam h.tag fun y => { y with bytes := [], ended := true, waiting := false }
      else askResend h.tag s1
  else reelInvalid r s

/-- PARAM_RESEND at the owner (R251). -/
def onParamResend (r : Rx) (s : State) : State :=
  let h := readRHdr r.frame.payload
  match findHank s h.tag with
  | some p => if p.owner == rankOf s then reEmit p (countEvt kResends s) else reelInvalid r s
  | none => s

-- Leaves and the ply digest (R451 to R454).

/-- Tags of all shards of the job, ascending. -/
def shardTags (s : State) : List Nat := sortBy (fun a b => decide (a ≤ b)) ((shardHanks s).map (·.tag))

/-- The leaf held of a shard at a step. -/
def leafHeld (s : State) (step tag : Nat) : Option (List Byte) :=
  (s.reel.leaves.find? fun x => x.step == step && x.tag == tag).map (·.leaf)

/-- PD over leaves in ascending tag order (R451). -/
def plyDigest (leaves : List (Nat × List Byte)) : List Byte :=
  shake256 32 (ascii "DVK-PLYD" ++ leBytes 4 leaves.length ++ leaves.flatMap fun p => leBytes 3 p.1 ++ p.2)

/-- Form the pairs that are complete, in step order (R452, R453). -/
def formPairs : Nat → State → State
  | 0, s => s
  | n + 1, s =>
    let t := s.reel.leafStep
    let ls := (shardTags s).map fun g => (g, leafHeld s t g)
    if !ls.isEmpty && ls.all (·.2.isSome) then
      formPairs n <|
        (s.onSec fun b => { b with pairStep := t, pairDigest := plyDigest (ls.map fun p => (p.1, p.2.getD [])) }).onReel fun r =>
          { r with leafStep := t + 1, leaves := r.leaves.filter fun x => decide (t < x.step)
                   leafAsked := r.leafAsked.filter fun x => decide (t < x.1) }
    else s

/-- Hold a leaf. -/
def holdLeaf (step tag : Nat) (leaf : List Byte) (s : State) : State :=
  formPairs (s.reel.leaves.length + 1) <| s.onReel fun r => { r with leaves := r.leaves ++ [⟨step, tag, leaf⟩] }

/-- A PLY_LEAF message. -/
def leafMsg (s : State) (tag step : Nat) (leaf : List Byte) : RHdr × List Word :=
  (plainHdr s 9 tag (decidedBatch s), stepWords step ++ bytesWords 8 leaf)

/-- The owner sends a shard's committed leaf to every device and holds it itself (R452). -/
def sendLeaf (tag : Nat) (leaf : List Byte) (s : State) : State :=
  let t := s.stp.stepIndex
  let m := leafMsg s tag t leaf
  holdLeaf t tag leaf <| (distribute 2 (ownerOf s tag) m.1 m.2 s).onReel fun r => { r with own := ⟨t, tag, leaf⟩ :: r.own }

/-- A step index as two payload words. -/
def readStep (ws : List Word) (i : Nat) : Nat := (wordAt ws i).toNat + 2 ^ 32 * wfield (wordAt ws (i + 1)) 15 0

/-- A leaf that comes from the device before this one on its distribution route goes on along it, once (R452); the answer to a query comes
from the owner and stays here (R453). -/
def passLeaf (r : Rx) (step tag : Nat) (s : State) : State :=
  let before := (distNext s (ownerOf s tag) r.frame.src.toNat).any fun p => p.1 == rankOf s
  if before && !s.reel.leafPassed.contains (step, tag) then
    (passOn r s).onReel fun x => { x with leafPassed := (step, tag) :: x.leafPassed.filter fun y => decide (step < y.1 + 8) }
  else s

/-- PLY_LEAF at its endpoint (R452): a leaf goes on along its route, and a new one is held. -/
def onLeaf (r : Rx) (s : State) : State :=
  let ws := r.frame.payload
  let h := readRHdr ws
  let t := readStep ws 8
  if ws.length != 18 then reelInvalid r s
  else
    let s1 := passLeaf r t h.tag s
    if t < s.reel.leafStep || (leafHeld s t h.tag).isSome then s1 else holdLeaf t h.tag (wordsBytes (ws.drop 10)) s1

/-- PLY_LEAF_QUERY at the owner (R453): the leaf goes to the asking device alone. -/
def onLeafQuery (r : Rx) (s : State) : State :=
  let ws := r.frame.payload
  let h := readRHdr ws
  match s.reel.own.find? fun x => x.step == readStep ws 8 && x.tag == h.tag with
  | none => s
  | some x =>
    let m := leafMsg s h.tag x.step x.leaf
    sendUnicast (mkFrame ftReel 2 2 h.tag h.source (rankOf s) s.stp.exec m.1.batch (m.1.words ++ m.2)) s

-- Key and value blocks (R213, R342).

/-- The prefix of a KV_BLOCK. -/
structure KvHdr where
  part : Nat
  layer : Nat
  shard : Nat
  block : Nat
  offset : Nat
  ringStep : Nat
  count : Nat
  deriving DecidableEq, Repr

def readKv (ws : List Word) : KvHdr :=
  { part := wfield (wordAt ws 0) 31 30, layer := wfield (wordAt ws 0) 13 0, shard := wfield (wordAt ws 1) 31 16,
    block := wfield (wordAt ws 1) 15 0, offset := (wordAt ws 2).toNat, ringStep := wfield (wordAt ws 3) 31 16,
    count := wfield (wordAt ws 3) 15 0 }

def KvHdr.words (k : KvHdr) : List Word :=
  [w32 (k.part * 2 ^ 30 + k.layer), w32 (k.shard * 65536 + k.block), w32 k.offset, w32 (k.ringStep * 65536 + k.count)]

/-- Send stored bytes of a block to the next rank in frames of at most 4,096 bytes (R342). -/
def sendBlock (k : KvHdr) : Nat → List Byte → State → State
  | 0, _, s => s
  | n + 1, bs, s =>
    if bs.isEmpty then s
    else
      let part := bs.take 4096
      let h := { k with count := part.length }
      let body := h.words ++ bytesWords (ceilDiv part.length 4) part
      sendBlock { k with offset := k.offset + part.length } n (bs.drop 4096) <|
        sendUnicast (mkFrame ftKv 1 3 0 (ctxNext s) (rankOf s) s.stp.exec s.stp.batch body) s

/-- A whole block to the next rank of the group, if the group has another. -/
def ringOut (k : KvHdr) (bs : List Byte) (s : State) : State :=
  if ctxGroup s ≤ 1 then s else sendBlock k (ceilDiv bs.length 4096) bs s

/-- Send what a drain or a whorl operation has stored (R213). -/
def ringSend (r : RingSend) (s : State) : State :=
  ringOut ⟨r.part, r.layer, r.shard, r.block, 0, r.ringStep, 0⟩ (s.readAt r.base r.bytes)
    (s.onStp fun b => { b with ringSent := (r.part, r.layer, r.block) :: b.ringSent })

/-- Stored bytes of a key or value block of 1,024 positions of a layer, from its operand format (R100, R211): K along features, V
along tokens; partials are binary32. -/
def kvBytes (s : State) (k : KvHdr) : Nat :=
  match layerOf s k.layer with
  | some l =>
    let n := 1024 * l.heads * l.headDim
    match k.part, NFmt.ofCode (effFmt (modeIn s.num.layers l.id) l .weight) with
    | 0, some f | 1, some f => let z := stapleSize l.weightStaple; n * f.bits / 8 + n / z * 8
    | 0, none | 1, none => n * wideBytes l.weightFmt
    | _, _ => 4 * n
  | none => 0

def KvBlockRt.is (b : KvBlockRt) (k : KvHdr) : Bool :=
  b.part == k.part && b.layer == k.layer && b.shard == k.shard && b.block == k.block && b.ringStep == k.ringStep

/-- A block belongs to the ring step at which it came (R213): K and V of shard (j − s) mod n. A partial is of the same shard. -/
def ringShard (s : State) (b : KvBlockRt) : Bool :=
  (b.shard + b.ringStep) % ctxGroup s == ctxIndex s

/-- What goes on to the next rank as it came: K and V up to the last ring step; a partial of a shard whose blocks are all masked for this
device's queries, which are those of the ranks after it (R213). -/
def passesOn (s : State) (b : KvBlockRt) : Bool :=
  if b.part ≤ 1 then decide (b.ringStep + 1 < ctxGroup s) else decide (ctxIndex s < b.ringStep ∧ b.ringStep < ctxGroup s)

/-- Deliver what may be delivered, block by block. -/
def kvDeliver : Nat → State → State
  | 0, s => s
  | n + 1, s =>
    match s.reel.kv.find? fun b =>
        !b.delivered && b.have == kvBytes s ⟨b.part, b.layer, b.shard, b.block, 0, b.ringStep, 0⟩ && ringShard s b with
    | none => s
    | some b =>
      let k : KvHdr := ⟨b.part, b.layer, b.shard, b.block, 0, b.ringStep + 1, 0⟩
      let s1 := s.onReel fun r => { r with kv := r.kv.map fun x => if x == b then { x with delivered := true } else x }
      kvDeliver n (if passesOn s b then ringOut k b.bytes s1 else s1)

/-- Put a piece into a block's receive buffer, once. -/
def addPiece (piece : Nat × List Byte) (x : KvBlockRt) : KvBlockRt :=
  if x.pieces.any fun p => p.1 == piece.1 then x else { x with pieces := x.pieces ++ [piece] }

/-- Take a part of a block. -/
def onKv (r : Rx) (s : State) : State :=
  let ws := r.frame.payload
  let k := readKv ws
  let piece := (k.offset, (wordsBytes (ws.drop 4)).take k.count)
  let s1 := s.onReel fun b =>
    if b.kv.any fun x => x.is k then { b with kv := updWhere (fun x => x.is k) (addPiece piece) b.kv }
    else { b with kv := b.kv ++ [⟨k.part, k.layer, k.shard, k.block, k.ringStep, [piece], false⟩] }
  kvDeliver s1.reel.kv.length s1

/-- Key blocks of a shard of the ring at a micro-batch (R211, R213). -/
def ringBlocks (s : State) (mb : Nat) : Nat := mbTokens s mb / 1024

/-- The parts of a shard that come at a ring step (R213): K and V at steps 1 to n − 1; in B the partials too, back to their owner at step
n. -/
def dueParts (s : State) (back : Bool) (step : Nat) : List Nat :=
  if step == 0 then [] else (if step < ctxGroup s then [0, 1] else []) ++ if back then [2, 3] else []

/-- A part of block `block` of the layer's present shard has been delivered. -/
def partHere (s : State) (layer block part : Nat) : Bool :=
  match s.kvBlock part layer (shardNow s layer) block with | some x => x.delivered | none => false

/-- The parts that this device itself must have sent before a ring step ends (R213): its own K and V at step 0; in B its partials, but for a
shard that it skips. -/
def owedParts (s : State) (back : Bool) (step : Nat) : List Nat :=
  if ctxGroup s ≤ 1 then []
  else (if step == 0 then [0, 1] else []) ++ if back && decide (step ≤ ctxIndex s ∧ step < ctxGroup s) then [2, 3] else []

/-- A layer's ring may take a move (R213): what comes at its present step has been delivered, what goes out has gone, and the pass ends at
its last step. -/
def ringComplete (s : State) (layer mb : Nat) (p : Phase) (m : RingMove) : Bool :=
  let step := assocGet 0 layer s.stp.ring
  let back := p == .bAct
  let last := if ctxGroup s ≤ 1 then 0 else if back then ctxGroup s else ctxGroup s - 1
  (match m with | .next => decide (step < last) | .over => step == last) &&
    (List.range (ringBlocks s mb)).all fun b =>
      (dueParts s back step).all (partHere s layer b) && (owedParts s back step).all fun x => s.stp.ringSent.contains (x, layer, b)

/-- A block may go to the next rank (R43, R213, R342): it is whole and of the present ring step's shard; this device's own K and V at step 0;
in B a partial of a shard that it processes, once the partial it adds to has come. -/
def sendReady (s : State) (layer mb : Nat) (p : Phase) (r : RingSend) : Bool :=
  let step := assocGet 0 layer s.stp.ring
  r.layer == layer && r.shard == shardNow s layer && r.ringStep == step + 1 && decide (r.block < ringBlocks s mb) &&
    r.bytes == kvBytes s ⟨r.part, r.layer, r.shard, r.block, 0, r.ringStep, 0⟩ && s.resident r.base r.bytes &&
    !s.stp.ringSent.contains (r.part, r.layer, r.block) &&
    if r.part ≤ 1 then step == 0
    else p == .bAct && decide (r.part ≤ 3 ∧ step ≤ ctxIndex s ∧ step < ctxGroup s) && (step == 0 || partHere s layer r.block r.part)

/-- Shape of a KV_BLOCK (R342). -/
def kvShaped (ws : List Word) : Bool :=
  let k := readKv ws
  wfield (wordAt ws 0) 29 14 == 0 && decide (1 ≤ k.count ∧ k.count ≤ 4096) && ws.length == 4 + ceilDiv k.count 4

-- The end of P (R181, R207).

/-- The cause of a deadline miss (R207). -/
def missCause (s : State) : Nat :=
  if s.stp.pEm || s.trd.emDuringStep then 1
  else if s.stp.pVoid || s.trd.voidDuringStep then 2
  else if s.stp.pFaulty then 3
  else if s.stp.pLate then 4
  else 7

/-- P ends when every parameter of the next batch is resident: the time of a tile-by-tile step is measured (R207). -/
def noteP (s : State) : State :=
  if s.stp.pActive && s.reel.params.all (·.ended) then
    let ticks := s.clk.refTimer - s.stp.pOriginTick
    let late := !s.stp.pSettled && match s.warp.image with | some im => decide (100 * im.deadline.us < ticks) | none => false
    let cause := missCause s
    let s1 := s.onStp fun b =>
      { b with
        pActive := false, inStep := b.begun
        lastPhases := { b.lastPhases with p := { b.lastPhases.p with stop := some (arithCycles s - b.pOriginCycle) } }
        missed := b.missed || late, missCause := if late then cause else b.missCause }
    batchKhz s.stp.pOriginScaled s.stp.pOriginTick (if late then raise 0x1303 [cause, ticks / 100] (countEvt 0x948 s1) else s1)
  else s

-- Messages by type.

/-- A reel message or a key or value block that is delivered here (R252, R253). -/
def onReelFrame (r : Rx) (s : State) : State :=
  let ws := r.frame.payload
  if r.frame.ftype == ftKv then (if kvShaped ws then onKv r s else faultNow (raise 0x4010 [r.port.val, r.frame.ftype.toNat] s))
  else if !reelValid s ws then reelInvalid r s
  else
    let t := match (readRHdr ws).type with
      | 1 => onSegment r s
      | 2 => onRescale r s
      | 3 => onProposal r s
      | 4 => onAgreed r s
      | 5 => onFactor r s
      | 6 => onParamSegment r s
      | 7 => onParamEnd r s
      | 8 => onParamResend r s
      | 9 => onLeaf r s
      | _ => onLeafQuery r s
    noteP (noteEnds (sendNewFactors s t))

/-- A reel row: the frame is received with its own checks. -/
def reelRow (ok : Bool) (rx : Rx) (s : State) : Out := checked ok (receive onReelFrame rx s)

def execHankSegment (rx : Rx) (s : State) : Out := reelRow (segmentFrame rx) rx s
def execRescale (rx : Rx) (s : State) : Out := reelRow (reelOf 2 rx) rx s
def execScaleProposal (rx : Rx) (s : State) : Out := reelRow (reelOf 3 rx) rx s
def execScaleAgreed (rx : Rx) (s : State) : Out := reelRow (reelOf 4 rx) rx s
def execFactorResult (rx : Rx) (s : State) : Out := reelRow (reelOf 5 rx) rx s
def execParamSegment (rx : Rx) (s : State) : Out := reelRow (reelOf 6 rx) rx s
def execParamEnd (rx : Rx) (s : State) : Out := reelRow (reelOf 7 rx) rx s
def execParamResend (rx : Rx) (s : State) : Out := reelRow (reelOf 8 rx) rx s
def execPlyLeaf (rx : Rx) (s : State) : Out := reelRow (reelOf 9 rx) rx s
def execPlyLeafQuery (rx : Rx) (s : State) : Out := reelRow (reelOf 10 rx) rx s
def execKvBlock (rx : Rx) (s : State) : Out := reelRow (frameOf 0x11 rx) rx s

/-- Frames held under R332 go through their endpoint again, in the order of arrival. -/
def releaseHeld (s : State) : State :=
  s.rov.held.foldl (fun t r => endpoint false onReelFrame r t) (s.onRov fun b => { b with held := [] })

/-- A layer's ring goes on (R213): the receive buffers of its step are free, and frames of the new step are delivered. -/
def moveRing (layer : Nat) (p : Phase) (m : Option RingMove) (s : State) : State :=
  match m with
  | none => s
  | some x =>
    let step := match x with | .next => assocGet 0 layer s.stp.ring + 1 | .over => 0
    let back := p == .bAct && step != 0
    releaseHeld <| (s.onStp fun b =>
      { b with ring := assocPut layer step b.ring, ringSent := b.ringSent.filter fun y => y.2.1 != layer
               ringBack := (if back then [layer] else []) ++ b.ringBack.filter (· != layer) }).onReel fun r =>
      { r with kv := r.kv.filter fun k => k.layer != layer }

-- Timeouts (R254, R343, R453).

/-- A hank that can no longer complete here is abandoned with its shard; of a low-rank layer both factors go (R487). -/
def abandonHank (tag : Nat) (s : State) : State :=
  let low (p : Hank) : Bool := match findHank s tag with | some q => q.kind != 0 && p.kind != 0 && p.layer == q.layer | none => false
  noteEnds <| (hankPlan s).foldl (fun t p =>
    match t.hank p.tag with
    | some h =>
      if p.tag == tag || (low p && !h.st.over) then abandonShard p.tag (t.onHank p.tag fun x => { x with st := .abandoned, held := [] })
      else t
    | none => t) s

/-- No agreed ρ 500 ms after the first F issue (R254). -/
def execScaleAgreementTimeout (tag : BitVec 20) (s : State) : Out :=
  .next (match s.hank tag.toNat with
    | some h => if s.stp.running && !h.agreed then abandonHank tag.toNat (faultNow (raise 0x2301 [tag.toNat] s)) else s
    | none => s)

/-- An operand of an open hank, or the RESCALE behind a held segment, has not come within 500 ms (R254). -/
def execHankTimeout (tag : BitVec 20) (rank : BitVec 16) (s : State) : Out :=
  .next (match s.hank tag.toNat with
    | some h =>
      if h.adders.any (fun a => !a.done && !a.operands.isEmpty) || !h.held.isEmpty then
        abandonHank tag.toNat (faultNow (raise 0x2331 [tag.toNat, rank.toNat] s))
      else s
    | none => s)

/-- No PARAM_END 500 ms after the first PARAM_SEGMENT (R254). -/
def execParamEndTimeout (tag : BitVec 20) (s : State) : Out :=
  .next (match s.param tag.toNat with
    | some x => if x.waiting then askResend tag.toNat s else s
    | none => s)

/-- A leaf is lacking 500 ms after the commit token (R453): a query to the owner and event 0x6041. -/
def execPlyLeafMissing (tag : BitVec 20) (step : BitVec 48) (s : State) : Out :=
  let g := tag.toNat
  let t := step.toNat
  .next (if (shardTags s).contains g && ownerOf s g != rankOf s && decide (s.reel.leafStep ≤ t ∧ t ≤ s.stp.stepIndex) &&
      (leafHeld s t g).isNone then
    let h := plainHdr s 10 g (decidedBatch s)
    sendUnicast (mkFrame ftReel 2 2 g (ownerOf s g) (rankOf s) s.stp.exec h.batch (h.words ++ stepWords t)) <|
      raise 0x6041 [g, t] (s.onReel fun r => { r with leafAsked := (t, g) :: r.leafAsked })
  else s)

/-- A block's part that is due at the layer's present ring step has not come whole. -/
def blockLacks (s : State) (layer shard block : Nat) : Bool :=
  shard == shardNow s layer && (List.range (mbCount s)).any (fun mb => decide (block < ringBlocks s mb)) &&
    (dueParts s (s.stp.ringBack.contains layer) (assocGet 0 layer s.stp.ring)).any fun x => !partHere s layer block x

/-- A key or value block is not complete 500 ms after its ring step fell due (R343). -/
def execKvBlockTimeout (layer shard block : Nat) (s : State) : Out :=
  .next (if s.stp.running && blockLacks s layer shard block then
    noteEnds ((if s.stp.phases.f.stop.isNone then loseF else loseBelow (layer + 1)) (faultNow (raise 0x4032 [layer, shard, block] s)))
  else s)

-- Initialisation (R270, R454).

/-- Committed leaves of every own shard go out (R454). -/
def sendLeaves (s : State) : State :=
  (ownShards s).foldl (fun t p => match t.shard p.tag with | some x => sendLeaf p.tag x.leaf t | none => t) s

/-- Emit the parameters of every hank of this device. -/
def emitOwn (s : State) : State :=
  ((hankPlan s).filter fun p => p.owner == rankOf s).foldl (fun t p => emitHank p t) s

/-- Where the bias and column-scale vectors of a layer stand: the last two pieces of its parameter region, each rounded up to 256
bytes, bias first (log entry 148). -/
def vectorPlace (s : State) (l : Layer) (slot : Nat) : Option Nat :=
  match s.warp.image with
  | some im => (im.memory.find? fun e => e.kind == 8 && e.layer == l.id).map fun e =>
      e.addr + e.size - (3 - slot) * up256 (4 * l.nExtent)
  | none => none

/-- Initialise one of a layer's two vectors (R257: SLOT 1 bias, 2 column scale; R270), element j at row 0, column j. -/
def initVector (l : Layer) (slot : Nat) (s : State) : State :=
  if if slot == 1 then l.bias else l.colScale then
    let id := streamId 2 2 2 l.id slot
    match vectorPlace s l slot with
    | some a => s.putSkeinWords a ((List.range l.nExtent).map fun j => initValue (findStream s id) (streamKey (seedOf s) id) 0 j)
    | none => s
  else s

def initVectors (s : State) : State :=
  match s.warp.image with
  | some im => im.layers.foldl (fun t l => initVector l 2 (initVector l 1 t)) s
  | none => s

/-- The shards, vectors and factors of a job without a checkpoint (R270, R242). -/
def initJob (s : State) : State :=
  let s1 := s.onReel fun r => { r with shards := [], lowRank := [], initialised := true }
  let s2 := (ownShards s).foldl (fun t p => match layerOf t p.layer with | some l => initShard l p t | none => t) s1
  (lowRankLayers s).foldl (fun t l => initLowRank l t) (initVectors s2)

end Sys2Proof.Machine
end

