-- ==== Sys2Proof/Machine/Commit.lean ====
section
/-! DEFINITION. Phase C and the manager's decisions (R72, R160 to R173, R201 to R205, R334 to R341, R391 to R397, R485). -/

namespace Sys2Proof.Machine


-- What a device reports.

/-- Cut a list into runs of `n`. -/
def chunks {α : Type} (n : Nat) (l : List α) : List (List α) :=
  (List.range (ceilDiv l.length n)).map fun i => (l.drop (i * n)).take n

/-- The device's loss: micro-batch sums in ascending order, and its token count (R198). -/
def deviceLoss (s : State) : Word × Nat :=
  let ls := sortBy (fun a b => decide (a.microBatch ≤ b.microBatch)) s.stp.losses
  (match ls with | [] => 0 | l :: r => r.foldl (fun a x => (fadd a x.sum).bits) l.sum, (ls.map (·.tokens)).sum % 2 ^ 32)

/-- Layer records of the device's counts. -/
def ownCounts (s : State) : List LayerCount := (s.num.counts.zipIdx).map fun p => ⟨p.2, p.1⟩

/-- Ratio records of the shards that have a shadow copy (R172). -/
def ownRatios (s : State) : List RatioRec :=
  (ownShards s).filterMap fun p =>
    match s.shard p.tag with
    | some x => if x.shadowReady then some ⟨p.tag, p.layer, x.d2, x.w2⟩ else none
    | none => none

/-- This device's verdict set (R336). -/
def ownSet (s : State) : VerdictSet :=
  let cs := ownCounts s
  let rs := ownRatios s
  let l := deviceLoss s
  { rank := rankOf s, nonfinite := s.stp.nonfinite, fault := s.stp.fault, plyFail := s.stp.plyFail,
    twoPathFail := s.stp.twoPathFail, cause := if s.stp.fault then s.stp.faultCause else 0, countFrames := ceilDiv cs.length 73,
    ratioFrames := ceilDiv rs.length 170, gotCounts := ceilDiv cs.length 73, gotRatios := ceilDiv rs.length 170, loss := l.1,
    tokens := l.2, counts := cs, ratios := rs }

/-- The set that R397 has a device send at once. -/
def quarantineSet (s : State) : VerdictSet :=
  { ownSet s with fault := true, cause := 3, countFrames := 0, ratioFrames := 0, gotCounts := 0, gotRatios := 0, counts := [],
                  ratios := [] }

/-- Counts in the order of R152. -/
def Counts.list (c : Counts) : List Nat := [c.staples, c.zero, c.sat, c.slub, c.nonzero, c.underflow, c.nonfinite]
def Counts.ofList : List Nat → Counts
  | [a, b, c, d, e, f, g] => ⟨a, b, c, d, e, f, g⟩
  | _ => Counts.zeros

/-- A 64-bit value as two words, and back. -/
def words64 (n : Nat) : List Word := [w32 n, w32 (n / 2 ^ 32)]
def nat64 (ws : List Word) (i : Nat) : Nat := (wordAt ws i).toNat + 2 ^ 32 * (wordAt ws (i + 1)).toNat

def verdictWords (v : VerdictSet) : List Word :=
  [w32 (b2n v.nonfinite * 2 ^ 31 + b2n v.fault * 2 ^ 30 + b2n v.plyFail * 2 ^ 29 + b2n v.twoPathFail * 2 ^ 28 + v.cause * 2 ^ 24 +
    v.countFrames), w32 v.ratioFrames, v.loss, w32 v.tokens]

def countWords (cs : List LayerCount) : List Word :=
  [w32 ((cs.head?.map (·.layer)).getD 0 * 65536 + cs.length), 0] ++ cs.flatMap fun c => c.counts.list.flatMap words64

def ratioWords (rs : List RatioRec) : List Word :=
  [w32 ((rs.head?.map (·.layer)).getD 0 * 65536 + rs.length), 0] ++
    rs.flatMap fun r => [w32 r.tag, w32 r.layer] ++ words64 r.d2 ++ words64 r.w2

/-- Read the records of LAYER_COUNTS and SHARD_RATIOS. -/
def readCounts (ws : List Word) : List LayerCount :=
  (List.range (wfield (wordAt ws 0) 15 0)).map fun i =>
    ⟨wfield (wordAt ws 0) 31 16 + i, Counts.ofList ((List.range 7).map fun k => nat64 ws (2 + 14 * i + 2 * k))⟩
def readRatios (ws : List Word) : List RatioRec :=
  (List.range (wfield (wordAt ws 0) 15 0)).map fun i =>
    ⟨wfield (wordAt ws (2 + 6 * i)) 19 0, wfield (wordAt ws (3 + 6 * i)) 13 0, nat64 ws (4 + 6 * i), nat64 ws (6 + 6 * i)⟩

/-- Send a verdict set to the manager (R336). -/
def sendSet (v : VerdictSet) (s : State) : State :=
  let f (t : BitVec 8) (ws : List Word) : Frame := mkFrame t 1 0 0 (managerRank s) (rankOf s) s.stp.exec s.stp.batch ws
  let s1 := sendUnicast (f ftVerdict (verdictWords v)) s
  let s2 := ((chunks 73 v.counts).map countWords).foldl (fun t ws => sendUnicast (f ftCounts ws) t) s1
  ((chunks 170 v.ratios).map ratioWords).foldl (fun t ws => sendUnicast (f ftRatios ws) t) s2

-- Execution digests (R391, R392).

def execDigest (s : State) : List Byte :=
  let l := deviceLoss s
  shake256 32 <| ascii "DVK-EXEC" ++ leBytes 1 (b2n s.stp.nonfinite) ++ leBytes 4 l.1.toNat ++ leBytes 4 l.2 ++
    (s.num.counts.flatMap fun c => c.list.flatMap (leBytes 8)) ++
    (if s.stp.nonfinite then []
     else ((sortBy (fun a b => decide (a.tag ≤ b.tag)) (ownShards s)).flatMap fun p =>
       match s.shard p.tag with | some x => x.shadowLeaf | none => []))

/-- Every shadow leaf exists (R391). -/
def leavesComplete (s : State) : Bool :=
  (ownShards s).all fun p => match s.shard p.tag with | some x => x.shadowReady | none => false

def execRecord (s : State) : ExecRecord :=
  let complete := s.stp.nonfinite || leavesComplete s
  { batch := s.stp.batch, exec := s.stp.exec, digest := if complete then execDigest s else [], complete := complete
    clean := !s.stp.fault && !s.stp.plyFail && !s.stp.twoPathFail }

/-- R392 over the records of earlier executions. -/
def resolved (earlier : List ExecRecord) (r : ExecRecord) : Bool :=
  r.exec == 0 || (r.clean &&
    (earlier.any (fun e => e.complete && r.complete && e.digest == r.digest) || earlier.all (fun e => !e.complete) ||
      (r.exec == 2 && earlier.all fun e => !e.clean)))

/-- Form the record of the execution beside those of the batch's earlier ones; one that is clean and not resolved is a fault (R392). -/
def noteExecution (s : State) : State :=
  let r := execRecord s
  let earlier := s.stp.execRecords.filter fun e => e.batch == r.batch
  let s1 := s.onStp fun b => { b with execRecords := earlier ++ [r] }
  if r.clean && !resolved earlier r then faultNow (raise 0x2111 [r.exec] (countErr 0x300030 s1)) else s1

-- The manager's decision (R160, R166, R167, R337, R338, R393).

/-- A decision's header fields. -/
structure DecHdr where
  kind : Nat
  exec : Nat
  nextSettled : Bool
  reason : Nat
  haltReason : Nat
  mapLayers : Nat
  step : Nat
  clean : Nat
  e : Int
  deriving DecidableEq, Repr

def DecHdr.words (d : DecHdr) : List Word :=
  [w32 (d.kind * 2 ^ 28 + d.exec * 2 ^ 26 + b2n d.nextSettled * 2 ^ 25 + d.reason * 2 ^ 22 + d.haltReason * 2 ^ 18 + d.mapLayers),
   w32 d.step, w32 (d.step / 2 ^ 32 % 65536), w32 (d.clean * 256 + unsigned 8 d.e), 0, 0, 0, 0]

def readDec (ws : List Word) : DecHdr :=
  let w := wordAt ws 0
  { kind := wfield w 31 28, exec := wfield w 27 26, nextSettled := wbit w 25, reason := wfield w 24 22, haltReason := wfield w 21 18,
    mapLayers := wfield w 14 0, step := readStep ws 1, clean := wfield (wordAt ws 3) 28 8, e := signed 8 (wfield (wordAt ws 3) 7 0) }

def modeCode : NMode → Nat
  | .k4 => 0
  | .fallback => 1
  | .storm => 2
  | .notCandidate => 3
def modeOfCode : Nat → NMode
  | 0 => .k4
  | 1 => .fallback
  | 2 => .storm
  | _ => .notCandidate

/-- The fallback map (R338). -/
def packModes (ms : List LayerNum) : List Word :=
  (chunks 16 ms).map fun c => w32 (((c.zipIdx).map fun p => modeCode p.1.mode * 4 ^ p.2).sum)
def mapMode (body : List Word) (l : Nat) : NMode := modeOfCode (wfield (wordAt body (l / 16)) (2 * (l % 16) + 1) (2 * (l % 16)))

/-- A layer's request on the counts of a batch (R154). -/
def requests (l : Layer) (c : Counts) : Bool :=
  decide (l.satLimit * c.staples < c.sat * 65536) || decide (l.slubLimit * c.staples < c.slub * 65536) ||
    decide (l.underflowLimit * c.nonzero < c.underflow * 65536)

/-- R157. -/
def isCandidate (l : Layer) : Bool := l.ply == 0 && !l.wide && (l.actFmt == 0 || l.weightFmt == 0 || l.gradFmt == 0)

/-- One candidate under R160. -/
structure Cand where
  id : Nat
  priority : Nat
  old : LayerNum
  req : Bool
  run : Nat
  want : Bool
  deriving DecidableEq, Repr

def candOf (hysteresis : Nat) (l : Layer) (old : LayerNum) (c : Counts) : Cand :=
  let req := requests l c
  let run := if old.mode == .fallback then (if req then 0 else old.run + 1) else old.run
  { id := l.id, priority := l.priority, old := old, req := req, run := run
    want := req || (old.mode == .fallback && decide (run < hysteresis)) }

def candNext (granted : Bool) (c : Cand) : LayerNum :=
  if granted then ⟨.fallback, if c.old.mode == .fallback then c.run else 0, c.req⟩
  else ⟨if c.want then .storm else .k4, 0, c.req⟩

/-- The fallback set of the next batch (R160). -/
def fallbackNext (nm : Numeric) (layers : List Layer) (old : List LayerNum) (counts : List Counts) : List LayerNum :=
  let cs := (layers.filter isCandidate).map fun l =>
    candOf nm.hysteresis l (old.getD l.id ⟨.k4, 0, false⟩) (counts.getD l.id Counts.zeros)
  let grant := ((sortBy (fun a b => decide (a.priority ≤ b.priority)) (cs.filter (·.want))).take nm.budget).map (·.id)
  (old.zipIdx).map fun p =>
    match cs.find? fun c => c.id == p.2 with
    | some c => candNext (grant.contains c.id) c
    | none => ⟨.notCandidate, 0, false⟩

/-- E and the clean-step counter after a skip (R166) and after a commit (R167). -/
def scaleSkip (nm : Numeric) (e : Int) : Int × Nat := (max (e - nm.k) (-64), 0)
def scaleCommit (nm : Numeric) (e : Int) (clean : Nat) : Int × Nat :=
  if clean + 1 == nm.g then (min (e + 1) 64, 0) else (e, clean + 1)

/-- Verdict sets in ascending rank order. -/
def sortedSets (s : State) : List VerdictSet := sortBy (fun a b => decide (a.rank ≤ b.rank)) s.job.sets

/-- Job-wide counts per layer (R169). -/
def sumCounts (sets : List VerdictSet) (n : Nat) : List Counts :=
  (List.range n).map fun l =>
    sets.foldl (fun a v => (v.counts.filter fun c => c.layer == l).foldl (fun x c => x.add c.counts) a) Counts.zeros

/-- Job loss in binary64 (R198). -/
def sumLoss (sets : List VerdictSet) : Nat :=
  match sets with
  | [] => 0
  | v :: r => r.foldl (fun a x => add64 a (widen64 x.loss)) (widen64 v.loss)

/-- The numeric state that the manager's commit or skip brings (R169). -/
def numericNext (s : State) (skip : Bool) : NumNext :=
  match s.warp.image with
  | some im =>
    let counts := sumCounts (sortedSets s) im.layers.length
    let sc := if skip then scaleSkip im.numeric s.num.e else scaleCommit im.numeric s.num.e s.num.clean
    { e := sc.1, clean := sc.2, modes := fallbackNext im.numeric im.layers s.num.layers counts }
  | none => { e := s.num.e, clean := s.num.clean, modes := s.num.layers }

/-- A set is complete when the frames it announced are here. -/
def VerdictSet.complete (v : VerdictSet) : Bool := decide (v.countFrames ≤ v.gotCounts) && decide (v.ratioFrames ≤ v.gotRatios)

/-- Ranks without a complete set. -/
def silentRanks (s : State) : List Nat :=
  (List.range (deviceCount s)).filter fun r => !(s.job.sets.any fun v => v.rank == r && v.complete)

/-- The manager's verdict over complete sets of execution `x` (R393): kind and halt reason. -/
def decideKind (x : Nat) (sets : List VerdictSet) : Nat × Nat :=
  if sets.any fun v => v.cause == 2 then (4, 2)
  else if sets.any fun v => v.cause == 3 then (4, 1)
  else if sets.any fun v => v.fault || v.plyFail || v.twoPathFail then (if x < 2 then (3, 0) else (4, 0))
  else if sets.any (·.nonfinite) then (2, 0)
  else (1, 0)

-- Ratios (R172, R173).

/-- ⌊log₂(x·2^k / y)⌋ of positive x and y. -/
def logRatio (x y : Nat) (k : Int) : Int :=
  let d : Int := (x.log2 : Int) - y.log2
  let ge := if 0 ≤ d then decide (y * 2 ^ d.toNat ≤ x) else decide (y ≤ x * 2 ^ (-d).toNat)
  (if ge then d else d - 1) + k

/-- The reported ratio as a 16-bit pattern: the integer nearest to 128 × log₂(A / W), saturating (R172). -/
def ratioCode (a w : Nat) : Nat :=
  match f64.decode a, f64.decode w with
  | .fin _ ma ea, .fin _ mw ew =>
    if mw == 0 then 0x7FFF
    else if ma == 0 then 0x8000
    else
      let l := logRatio (ma ^ 256) (mw ^ 256) (256 * (ea - ew))
      unsigned 16 (max (-32768) (min ((l + 1) / 2) 32767))
  | _, _ => 0x7FFF

/-- A layer's A and W over all shards, in ascending tag order (R172). -/
def layerSums (sets : List VerdictSet) (l : Nat) : Nat × Nat :=
  (sortBy (fun a b => decide (a.tag ≤ b.tag)) ((sets.flatMap (·.ratios)).filter fun r => r.layer == l)).foldl
    (fun a r => (add64 a.1 r.d2, add64 a.2 r.w2)) (0, 0)

/-- Layers with a shard have a ratio. -/
def ratioLayers (s : State) : List Layer :=
  match s.warp.image with
  | some im => im.layers.filter fun l => (shardHanks s).any fun h => h.layer == l.id
  | none => []

/-- The manager's report of a committed step (R173). -/
def reportRatios (step : Nat) (s : State) : State :=
  let sets := sortedSets s
  (ratioLayers s).foldl (fun t l =>
    let p := layerSums sets l.id
    let c := ratioCode p.1 p.2
    let v := signed 16 c
    raiseIf (decide (v < l.ratioLo ∨ l.ratioHi < v)) 0x1201 [l.id, c, step] <|
      t.onNum fun n => { n with ratios := assocPut l.id c n.ratios }) s

-- Carding (R387).

/-- Carding of units starts; a unit already under test goes on. PLY_CARDING_STATUS shows the first of them as running. -/
def startCarding (us : List CardUnit) (y : PlyBlk) : PlyBlk :=
  match us.filter fun u => !y.carding.contains u with
  | [] => y
  | u :: more =>
    { y with carding := y.carding ++ u :: more, cardResult := 1, cardUnit := (unitCode u).1, cardPart := 0, cardTarget := (unitCode u).2 }

-- Acting on a decision.

/-- Scratch is discarded (R206): tiles in work, hand-over slots, what stands in spool and creel, bobbin frames, key and value blocks. -/
def dropScratch (s : State) : State :=
  { s with
    cores := s.cores.map fun c => (c.1, c.2.onTiles AccTile.drop)
    bob := { s.bob with stages := s.bob.stages.map fun b => { b with frames := [], popped := [], pushes := 0 } }
    reel := { s.reel with kv := [] }
    res := ResBlk.reset
    stp := { s.stp with aged := [], attn := [] } }

/-- Shadow copies and leaves are discarded (R202, R288). -/
def dropShadows (s : State) : State :=
  s.onReel fun r => { r with shards := r.shards.map fun x => { x with shadowReady := false, abandoned := false, shadowLeaf := [] } }

/-- The step controller between executions: what belonged to the execution is gone; a port that is down leaves its fault (R324). -/
def StpBlk.idleAgain (b : StpBlk) : StpBlk :=
  { b with
    running := false, nonfinite := false, noticeSent := false, fault := b.portFault, faultCause := b2n b.portFault, plyFail := false,
    twoPathFail := false, skipHeld := false, verdictSent := false, phases := Phases.none, losses := [],
    actDone := false, dead := [], lostF := false, lostB := 0, attn := [], ring := [], ringSent := [], ringBack := [] }

/-- The mode that a decision names for the next execution (R197). -/
def nameMode (d : DecHdr) (s : State) : State := s.onStp fun b => { b with nextSettled := d.nextSettled, nextReason := d.reason }

/-- ROV_DECISION and the manager's bookkeeping once an execution is decided. -/
def noteDecision (d : DecHdr) (batch : Nat) (s : State) : State :=
  s.onJob fun j =>
    { j with lastKind := d.kind, lastExec := d.exec, lastNextSettled := d.nextSettled, lastHalt := d.haltReason, lastBatch := batch,
             sets := [], gathering := false, skipNoticeSent := false, timeoutRaised := false }

/-- The outcome registers of a batch that is decided or halted (R215): a halted one has no loss. -/
def noteOutcome (outcome : Nat) (s : State) : State :=
  let l := deviceLoss s
  let s1 := noteEnd outcome s
  if outcome == 5 then s1
  else s1.onStp fun b =>
    { b with loss := l.1, lossTokens := w32 l.2, jobLoss := if isManager s then BitVec.ofNat 64 (sumLoss (sortedSets s)) else b.jobLoss }

/-- Bobbin figures of the decided batch (R215). -/
def closeBobbin (s : State) : State :=
  s.onBob fun b => { b with stages := b.stages.map fun x =>
    { x with lastHighWater := x.highWater, lastMaxFrames := x.maxFrames, highWater := 0, maxFrames := 0, reduced := 0, told := false
             frames := [] } }

/-- Events of a change of one layer's mode: 0x1105, and 0x1106 with cause 0 CLEAN or 1 DISPLACED (R175). -/
def modeEvents (old new : LayerNum) (l : Nat) (s : State) : State :=
  if old.mode != .fallback && new.mode == .fallback then raise 0x1105 [l] s
  else if old.mode == .fallback && new.mode != .fallback then raise 0x1106 [l, b2n (new.mode == .storm)] s
  else s

/-- The numeric state that a decision brings (R168 to R171) with its events (R175): NUMERIC_DEGRADED carries the index of the batch that
it marks, the others that of the decided batch. DESIGN CHOICE: HUB_NUM_DEGRADED counts here, at the decision (R174; log entry 186). -/
def bringNumeric (skip : Bool) (n : NumNext) (s : State) : State :=
  let denied := (n.modes.filter fun m => m.mode == .storm).length
  let s1 := if skip then
      let t := raise 0x1101 [unsigned 32 s.num.e, unsigned 32 n.e] (countEvt 0x850 s)
      raiseIf (n.e == s.num.e) 0x1103 [] t
    else if n.e != s.num.e then raise 0x1102 [unsigned 32 n.e] s
    else raiseIf (n.clean == 0) 0x1103 [] s
  let s2 := if denied == 0 then s1 else raiseAt ((s.stp.batch + 1) % 2 ^ 48) 0x1104 [denied] (countEvt 0x858 s1)
  let s3 := ((s.num.layers.zip n.modes).zipIdx).foldl (fun t p => modeEvents p.1.1 p.1.2 p.2 t) s2
  s3.onNum fun b => { b with next := some n, lastSkipped := skip, lastCounts := b.counts }

/-- A layer in fallback that requests it no more would still want it (R160): its run stays below HYSTERESIS_N. -/
def staysClean (s : State) (old : LayerNum) : Bool :=
  match s.warp.image with | some im => decide (old.run + 1 < im.numeric.hysteresis) | none => true

/-- A layer's state as a DECISION's map gives it to a worker (R338). The map names no run counter and no request: a layer that stays in
fallback has either requested it again or advanced its run, and one displaced from it may have requested it (log entry 45). -/
def workerMode (old : LayerNum) (m : NMode) (s : State) : LayerNum × State :=
  let asked (q : Nat × State) : Bool := q.1 == 0 || !staysClean s old
  match m, old.mode with
  | .fallback, .fallback => let q := freePick 2 s; (if asked q then ⟨m, 0, true⟩ else ⟨m, old.run + 1, false⟩, q.2)
  | .storm, .fallback => let q := freePick 2 s; (⟨m, 0, asked q⟩, q.2)
  | .fallback, _ | .storm, _ => (⟨m, 0, true⟩, s)
  | _, _ => (⟨m, 0, false⟩, s)

/-- The numeric state in a DECISION. -/
def decisionNumeric (d : DecHdr) (body : List Word) (s : State) : NumNext × State :=
  let r := (s.num.layers.zipIdx).foldl (fun (acc : List LayerNum × State) p =>
    let q := workerMode p.1 (mapMode body p.2) acc.2
    (acc.1 ++ [q.1], q.2)) ([], s)
  (⟨d.e, d.clean, r.1⟩, r.2)

/-- This device's proposals for the next batch (R227, R228), formed while E is still that of the decided batch. -/
def proposals (s : State) : List (Nat × Int) :=
  (hankPlan s).filterMap fun p => (s.hank p.tag).map fun h => (p.tag, ownProposal s p h s.num.e)

/-- The exchange of R228 begins. -/
def propose (ps : List (Nat × Int)) (s : State) : State := ps.foldl (fun t p => addProposal p.1 (rankOf t) p.2 t) s

/-- ρ after a skip (R229), from each hank's scale as the batch ends. A hank whose agreed ρ has not come goes on waiting for it. -/
def keepScales (s : State) : State :=
  s.onReel fun r => { r with hanks := r.hanks.map fun h =>
    if h.agreed then { h with rho := (if s.stp.running then h.hs else startHs h.rho s.num.e) - s.num.e } else h }

/-- Commit a shard (R204, R288): one write of its selector exchanges the buffers, and the shadow leaf becomes the committed one. -/
def commitShard (tag : Nat) (s : State) : State :=
  match s.shard tag with
  | some x =>
    if x.shadowReady then
      (flipSel tag s).onShard tag fun y =>
        { y with leaf := y.shadowLeaf, shadowReady := false, abandoned := false, shadowLeaf := [] }
    else s
  | none => s

/-- Commit every shard, one after another; the reduced Q becomes Q (R242). -/
def commitShards (s : State) : State :=
  (s.reel.shards.foldl (fun t x => commitShard x.tag t) s).onReel fun r =>
    { r with lowRank := r.lowRank.map fun x => { x with q := x.qNext } }

/-- Emit a committed hank's parameters and then its leaf (R204, R452). -/
def publish (s : State) : State :=
  ((hankPlan s).filter fun p => p.owner == rankOf s).foldl (fun t p =>
    let t1 := emitHank p t
    if p.kind == 2 then t1 else match t1.shard p.tag with | some x => sendLeaf p.tag x.leaf t1 | none => t1) s

/-- PEER_LATE (R207): the C message left early enough. -/
def cInTime (s : State) : Bool :=
  match s.warp.image with
  | some im =>
    decide (s.stp.cTick - s.stp.firstFTick ≤ 100 * (s.warp.worstUs.toNat - im.deadline.cUs - im.deadline.pUs))
  | none => false

/-- P begins with the commit token (R181). -/
def beginP (s : State) : State :=
  let now := sinceFirstF s
  s.onStp fun b =>
    { b with
      lastPhases := { b.phases with c := { b.phases.c with stop := some now }, p := ⟨some now, none⟩ }
      pActive := true, pOriginCycle := b.firstFCycle, pOriginScaled := b.firstFScaled, pOriginTick := b.firstFTick, pSettled := b.settled
      pLate := cInTime s,
      pFaulty := b.fault || decide (0 < b.exec), pEm := false, pVoid := false }

/-- A loss of committed state that has not stopped the job yet is reported again in the next C (R307). -/
def keepLost (s : State) : State := if s.skn.stk.any (·.stateLost) then faultWith 2 s else s

/-- Event 0x7201 may be raised once more (R300). -/
def clearStarved (s : State) : State := s.onSkn fun k => { k with stk := k.stk.map fun x => { x with starved := false } }

/-- The batch is decided: batch index, execution number and everything that belonged to the batch (R178, R386, R387). -/
def closeBatch (d : DecHdr) (s : State) : State :=
  let s1 := renewHanks false <| s.onStp fun b =>
    { b.idleAgain with batch := (b.batch + 1) % 2 ^ 48, stepIndex := d.step, exec := 0, desc := none, begun := false }
  keepLost <| closeBobbin <| dropScratch <| clearStarved <| s1.onPly fun y =>
    { startCarding y.cardLater y with suspects := [], excluded := [], mask := BitVec.allOnes 576, captured := [], differed := [], cardLater := [],
                                      cardReplay := [], segWaits := [] }

/-- After a device's quarantine the same verdict goes out for the next batch (R397). -/
def quarantineAgain (s : State) : State :=
  if s.ply.quarantineHalt then
    let s1 := s.onStp fun b => { b with verdictSent := true }
    if isManager s then s1.onJob fun j => { j with sets := j.sets ++ [quarantineSet s1], gathering := true }
    else sendSet (quarantineSet s) s1
  else s

/-- The commit token (R202, R204). -/
def actCommit (d : DecHdr) (n : NumNext) (s : State) : State :=
  let b := s.stp.batch
  let ps := proposals s
  let s1 := beginP <| noteOutcome (if s.stp.exec == 0 then 1 else 3) <| bringNumeric false n <|
    if isManager s then reportRatios d.step s else s
  let s2 := commitShards (noteDecision d b (closeBatch d (nameMode d s1)))
  let s3 := publish (awaitParams (s2.onReel fun r => { r with hanks := r.hanks.map fun h => { h with agreed := false, st := .awaitScale } }))
  quarantineAgain <| releaseHeld <| completeStep 0 b <| noteP <| propose ps s3

/-- Layers whose weight format a new fallback set changes (R170). -/
def reformatted (s : State) (n : NumNext) : List Nat :=
  match s.warp.image with
  | some im => (im.layers.filter fun l =>
      effFmt (modeIn s.num.layers l.id) l .weight != effFmt (modeIn n.modes l.id) l .weight ||
        slubCapOf s (modeIn s.num.layers l.id) != slubCapOf s (modeIn n.modes l.id)).map (·.id)
  | none => []

/-- Parameters of layers whose format changes are emitted again, from unchanged master weights (R170). -/
def reformat (ls : List Nat) (s : State) : State :=
  let hs := (hankPlan s).filter fun p => p.kind != 2 && ls.contains p.layer
  let again (x : ParamRt) : ParamRt := if hs.any (fun p => p.tag == x.tag) then ⟨x.tag, [], false, false⟩ else x
  let s1 := s.onReel fun r => { r with params := r.params.map again }
  (hs.filter fun p => p.owner == rankOf s).foldl (fun t p => emitHank p t) s1

/-- A skip (R166, R202, R206). -/
def actSkip (d : DecHdr) (n : NumNext) (s : State) : State :=
  let b := s.stp.batch
  let ls := reformatted s n
  let s1 := keepScales <| noteOutcome (if s.stp.exec == 0 then 2 else 4) <| bringNumeric true n s
  let s2 := s1.onStp fun x =>
    { x with inStep := x.pActive, lastPhases := { x.phases with c := { x.phases.c with stop := some (sinceFirstF s) } } }
  let s3 := dropShadows (noteDecision d b (closeBatch d (nameMode d (batchKhz s.stp.firstFScaled s.stp.firstFTick s2))))
  quarantineAgain (releaseHeld (completeStep 0 b (reformat ls s3)))

/-- A replay order (R202, R394, R395): the batch runs again. Carding of suspect cores starts (R387). -/
def actReplay (d : DecHdr) (mask : BitVec 576) (s : State) : State :=
  let s1 := dropScratch <| dropShadows <| noteDecision d s.stp.batch <| nameMode d <|
    s.onStp fun b => { b.idleAgain with exec := d.exec, inStep := b.inStep }
  quarantineAgain <| releaseHeld <| keepLost <| (renewHanks true s1).onPly fun y =>
    { startCarding y.cardReplay y with mask := mask, excluded := y.suspects, segWaits := [], cardReplay := [], differed := [] }

/-- A core of the loaded image is quarantined: the distributed structure is not kept in HALTED (R72). -/
def structureLost (s : State) : Bool := (placedCores s).any fun p => match coreOf p.core with | some c => quarantined s c.val | none => false

/-- The undecided execution ends for this device without commit, skip or replay (R206, R427): what belonged to it is dropped, and its batch
is not consumed. The batch stays undecided, so its suspects, with the tests that wait for the next
execution, and its digests are kept (R387, R391, R394; log entry 194). DESIGN CHOICE: while P of the last committed batch runs IN_STEP stays, and
with it the window closed (R144, R182; log entry 185). -/
def endExecution (s : State) : State :=
  dropScratch <| dropShadows <| renewHanks false <|
    (s.onStp fun x => { x.idleAgain with exec := 0, desc := none, inStep := x.pActive, begun := false }).onPly fun y =>
      { y with excluded := y.suspects, mask := BitVec.allOnes 576, quarantineHalt := false, segWaits := [], differed := [] }

/-- The undecided execution ends, and its STEP completes HALTED (R364). -/
def dropExecution (s : State) : State := completeStep 0x11 s.stp.batch (endExecution s)

/-- A halt (R73, R202, R206, R307, R397). -/
def actHalt (d : DecHdr) (s : State) : State :=
  let lost := s.skn.stk.any (·.stateLost)
  let s1 := dropExecution <| noteDecision d s.stp.batch <| nameMode d <| noteOutcome 5 s
  let s2 := s1.onWarp fun w =>
    { w with state := if loadRunning s then w.state else .halted, began := if loadRunning s then .halted else w.began
             dist := w.dist && !structureLost s, templates := if structureLost s then [] else w.templates }
  if lost then loseCommitted s2 else s2

/-- START (R338, R485): the job is formed, or a halted one resumes; the device then leaves HALTED once no load runs and it holds a
distributed structure (R66, log entry 180). -/
def actStart (d : DecHdr) (batch : Nat) (s : State) : State :=
  if standing s == .halted || (standing s == .loaded && !s.job.formed) then
    let s1 := noteDecision d batch <| s.onJob fun j =>
      { j with formed := true, haltedJob := false, acted := [], kept := [], resumed := standing s == .halted }
    let keepMode := s.stp.nextSettled && s.stp.nextReason == 3
    let s2 := (s1.onStp fun b =>
      { b with batch := batch, stepIndex := d.step, exec := 0, nextSettled := d.nextSettled || keepMode
               nextReason := if d.nextSettled || !keepMode then d.reason else 3 })
    releaseHeld (renewHanks false (leaveHalted s2))
  else s

/-- Carry a decision out. `num` is the manager's own numeric state; a worker reads it from the decision. -/
def carryOut (num : Option NumNext) (batch : Nat) (payload : List Word) (s : State) : State :=
  let d := readDec payload
  let body := payload.drop 8
  match d.kind with
  | 1 => match num with
    | some n => actCommit d n s
    | none => let r := decisionNumeric d body s; actCommit d r.1 r.2
  | 2 => match num with
    | some n => actSkip d n s
    | none => let r := decisionNumeric d body s; actSkip d r.1 r.2
  | 3 => actReplay d (BitVec.ofNat 576 (leNat (wordsBytes (body.take 18)))) s
  | 4 => actHalt d s
  | _ => actStart d batch s

/-- The job of the loaded image is there: the loader stands in LOADED, or a load that began there has not replaced it yet (R65, R66). -/
def jobLoaded (s : State) : Bool := standing s == .loaded

-- The manager issues its decision (R337, R339, R341, R485).

/-- The 18 words of a mask with every bit set (R394). -/
def fullMask : List Word := List.replicate 18 0xFFFFFFFF

def decMarker (kind : Nat) : BitVec 4 := if kind == 1 then 3 else if kind == 5 then 0 else 4

def decFrame (s : State) (kind dest exec batch : Nat) (payload : List Word) : Frame :=
  mkFrame ftDecision (decMarker kind) 0 0 dest (rankOf s) exec batch payload

/-- Send a decision: a REPLAY to each rank separately, the others as a broadcast (R337). -/
def sendDecision (kind exec batch : Nat) (payload : List Word) (s : State) : State :=
  if kind == 3 then
    ((List.range (deviceCount s)).filter fun r => r != rankOf s).foldl
      (fun t r => sendUnicast (decFrame t kind r exec batch payload) t) s
  else broadcast (decFrame s kind 0xFFFF exec batch payload) s

/-- Ranks whose admission a halt withdraws (R485). -/
def withdrawn (s : State) (reason : Nat) : List Nat :=
  if reason == 0 then List.range (deviceCount s)
  else (if reason == 3 then silentRanks s else []) ++ (s.job.sets.filter fun v => v.cause == 3).map (·.rank)

/-- Keep a decision until that of the next batch (R339). -/
def keepDecision (x : Decision) (s : State) : State :=
  s.onJob fun j => { j with kept := x :: j.kept.filter fun y => y.batch == x.batch }

/-- The manager's halt bookkeeping (R485). -/
def haltJob (reason : Nat) (s : State) : State :=
  let out := withdrawn s reason
  s.onJob fun j =>
    { j with haltedJob := true, admittedRanks := j.admittedRanks.filter fun r => !out.contains r.1,
             admitted := j.admitted && !out.contains (rankOf s) }

/-- Issue a decision and carry it out here. -/
def issue (d : DecHdr) (body : List Word) (num : Option NumNext) (s : State) : State :=
  let b := s.stp.batch
  let x := s.stp.exec
  let payload := d.words ++ body
  let s1 := sendDecision d.kind x b payload <| keepDecision ⟨b, x, payload⟩ <|
    if d.kind == 1 || d.kind == 5 then s else dropRevoked b x s
  let s2 := if d.kind == 4 then haltJob d.haltReason s1 else s1
  let s3 := carryOut num b payload <| s2.onJob fun j => { j with acted := (⟨b, x, payload⟩ :: j.acted).take 4 }
  if d.kind == 1 || d.kind == 2 then s3.onJob fun j => { j with settledReq := false } else s3

/-- The job-wide view of the batch's counts, on the manager (R174). -/
def noteJobCounts (s : State) : State :=
  s.onNum fun n => { n with jobCounts := sumCounts (sortedSets s) n.layers.length }

/-- A header with the scale state of the batch, which before its first F issue still stands in waiting (R168). -/
def decHdr (s : State) (kind : Nat) : DecHdr :=
  { kind := kind, exec := s.stp.exec, nextSettled := false, reason := 0, haltReason := 0, mapLayers := 0, step := s.stp.stepIndex,
    clean := match s.num.next with | some n => n.clean | none => s.num.clean, e := nextE s }

/-- Decide once every rank's set is complete (R337, R393). -/
def decideOnce (s : State) : State :=
  if isManager s && !s.job.sets.isEmpty && (silentRanks s).isEmpty && jobLoaded s then
    let k := decideKind s.stp.exec s.job.sets
    let h := decHdr s k.1
    match k.1 with
    | 1 | 2 =>
      let n := numericNext s (k.1 == 2)
      issue { h with nextSettled := s.job.settledReq, reason := b2n s.job.settledReq, mapLayers := n.modes.length,
                     step := if k.1 == 1 then (s.stp.stepIndex + 1) % 2 ^ 48 else s.stp.stepIndex, clean := n.clean, e := n.e }
        (packModes n.modes) (some n) (noteJobCounts s)
    | 3 => issue { h with exec := s.stp.exec + 1, nextSettled := true, reason := 2 } fullMask none s
    | _ => issue { h with haltReason := k.2 } [] none (raiseIf (k.2 == 0) 0x2112 [s.stp.exec] s)
  else s

/-- Decide; where the manager stops at its last commit, its verdict for the next execution may complete that set at once (R397). -/
def tryDecide (s : State) : State :=
  let t := decideOnce s
  if t.ply.quarantineHalt then decideOnce t else t

-- C (R201, R336, R391).

/-- A tile has nothing more to do: it is idle, or the rest of its work is lost. -/
def tileOver (s : State) (core : Nat) (t : AccTile) : Bool :=
  t.st == .idle || s.stp.dead.contains (core / 12) || match t.work with
    | some w => decide (w.layer < s.stp.lostB) && !workComplete w
    | none => false

/-- C may begin (R181): F, B, G and U have ended in the sense of R487, every tile has drained, and every sampled segment has come
back. -/
def cReady (s : State) : Bool :=
  s.stp.running && !s.stp.verdictSent && s.stp.phases.f.stop.isSome &&
    (s.stp.phases.b.stop.isSome || (s.stp.lostB != 0 && s.stp.phases.b.start.isNone)) && shardsOver s &&
    (s.reel.hanks.all fun h => h.st.over) && (s.ply.segWaits.isEmpty || s.stp.skipHeld) &&
    s.cores.all fun c => [c.2.e0t0, c.2.e0t1, c.2.e1t0, c.2.e1t1].all (tileOver s c.1)

/-- C begins (R181). -/
def beginC (s : State) : State :=
  let now := sinceFirstF s
  s.onStp fun b => { b with cTick := s.clk.refTimer, verdictSent := true, phases := { b.phases with c := ⟨some now, none⟩ } }

/-- Hand a verdict set to the manager: this device itself, or another. -/
def deliverSet (v : VerdictSet) (s : State) : State :=
  if isManager s then
    tryDecide (s.onJob fun j => { j with sets := (j.sets.filter fun x => x.rank != v.rank) ++ [v], gathering := true })
  else sendSet v s

/-- The device sends its verdict set as C begins. -/
def execSendVerdictSet (s : State) : Out :=
  .next (if unitsRun s && cReady s then
    let s1 := noteExecution (beginC (if s.stp.portFault then faultNow s else s))
    deliverSet (ownSet s1) s1
  else s)

/-- The device stops at its last commit because a placed core is quarantined (R397). -/
def quarantineStop (s : State) : State :=
  if s.job.formed && jobLoaded s && !s.ply.quarantineHalt then
    let s1 := s.onPly fun y => { y with quarantineHalt := true }
    if s.stp.verdictSent then s1
    else deliverSet (quarantineSet s1) (s1.onStp fun b => { b with verdictSent := true })
  else s

/-- The device stops if a placed core is out of service (R397). -/
def stopIfPlaced (s : State) : State := if structureLost s then quarantineStop s else s

-- Job-control frames at their endpoint.

/-- A frame of the present execution, which no decision has ended: after a HALT there is none until START (R488). -/
def presentExec (s : State) (f : Frame) : Bool :=
  f.batch.toNat == s.stp.batch && f.exec.toNat == s.stp.exec && jobLoaded s && s.job.formed

/-- A verdict set as its VERDICT frame opens it. -/
def readVerdict (rank : Nat) (ws : List Word) : VerdictSet :=
  let w := wordAt ws 0
  { rank := rank, nonfinite := wbit w 31, fault := wbit w 30, plyFail := wbit w 29, twoPathFail := wbit w 28, cause := wfield w 27 24,
    countFrames := wfield w 15 0, ratioFrames := wfield (wordAt ws 1) 15 0, gotCounts := 0, gotRatios := 0, loss := wordAt ws 2,
    tokens := (wordAt ws 3).toNat, counts := [], ratios := [] }

/-- VERDICT (R336). -/
def onVerdict (r : Rx) (s : State) : State :=
  let f := r.frame
  if presentExec s f && !(s.job.sets.any fun v => v.rank == f.src.toNat) then
    tryDecide <| s.onJob fun j => { j with sets := j.sets ++ [readVerdict f.src.toNat f.payload] }
  else s

/-- Change the set of a rank. -/
def onSet (rank : Nat) (g : VerdictSet → VerdictSet) (s : State) : State :=
  s.onJob fun j => { j with sets := updWhere (fun v => v.rank == rank) g j.sets }

/-- LAYER_COUNTS and SHARD_RATIOS (R336). -/
def onCounts (r : Rx) (s : State) : State :=
  if presentExec s r.frame then
    tryDecide <| onSet r.frame.src.toNat
      (fun v => { v with gotCounts := v.gotCounts + 1, counts := v.counts ++ readCounts r.frame.payload }) s
  else s

def onRatios (r : Rx) (s : State) : State :=
  if presentExec s r.frame then
    tryDecide <| onSet r.frame.src.toNat
      (fun v => { v with gotRatios := v.gotRatios + 1, ratios := v.ratios ++ readRatios r.frame.payload }) s
  else s

/-- NONFINITE_NOTICE (R335). -/
def onNotice (r : Rx) (s : State) : State := if presentExec s r.frame then noteEnds (managerNotice s) else s

/-- SKIP_NOTICE (R205). -/
def onSkipNotice (r : Rx) (s : State) : State := if presentExec s r.frame then noteEnds (holdSkip s) else s

/-- DECISION at a worker (R339). START has a form of its own; a core that was quarantined during the load stops the job as it forms (R67). -/
def onDecision (r : Rx) (s : State) : State :=
  let f := r.frame
  let x : Decision := ⟨f.batch.toNat, f.exec.toNat, f.payload⟩
  if (readDec f.payload).kind == 5 then stopIfPlaced (carryOut none f.batch.toNat f.payload s)
  else
    match s.job.acted.find? fun y => y.batch == x.batch && y.exec == x.exec with
    | some y => raiseIf (y.payload != x.payload) 0x4021 [f.src.toNat, x.batch, x.exec] s
    | none =>
      if presentExec s f then
        carryOut none x.batch x.payload (s.onJob fun j => { j with acted := (x :: j.acted).take 4 })
      else s

/-- DECISION_QUERY (R339). -/
def onQuery (r : Rx) (s : State) : State :=
  let f := r.frame
  match s.job.kept.find? fun y => y.batch == f.batch.toNat && y.exec == f.exec.toNat with
  | some y => sendUnicast (decFrame s (readDec y.payload).kind f.src.toNat y.exec y.batch y.payload) s
  | none => s

/-- The START of job formation, or the one that resumes a halted job (R334, R485), once every rank is admitted. -/
def formJob (s : State) : State :=
  if isManager s && s.job.admittedRanks.length == deviceCount s &&
      ((standing s == .loaded && !s.job.formed) || (standing s == .halted && s.job.haltedJob && s.job.lastHalt != 2)) then
    let resume := standing s == .halted
    let restored := s.stp.nextSettled && s.stp.nextReason == 3
    let d := { decHdr s 5 with exec := 0, nextSettled := resume || restored, reason := if resume then 4 else if restored then 3 else 0 }
    stopIfPlaced <| carryOut none s.stp.batch d.words (sendDecision 5 0 s.stp.batch d.words s)
  else s

/-- The answer to an admission request (R72): 1 admitted, 2 hash mismatch, 3 duplicate rank. -/
def admission (s : State) (rank : Nat) (hash : List Byte) (serial : Nat) : Nat :=
  if hash != s.warp.logicalHash then 2
  else
    match s.job.knownSerials.find? fun k => k.1 == rank with
    | some k => if k.2 == serial then 1 else 3
    | none => 1

/-- The manager admits a rank. -/
def admitRank (rank serial : Nat) (s : State) : State :=
  s.onJob fun j =>
    { j with admittedRanks := (j.admittedRanks.filter fun k => k.1 != rank) ++ [(rank, serial)],
             knownSerials := (j.knownSerials.filter fun k => k.1 != rank) ++ [(rank, serial)] }

/-- ADMIT_REQUEST (R72, R334). -/
def onAdmitRequest (r : Rx) (s : State) : State :=
  let f := r.frame
  let bs := wordsBytes f.payload
  let rank := f.src.toNat
  let serial := leNat (slice bs 64 8)
  let a := admission s rank (bs.take 64) serial
  formJob <| sendUnicast (mkFrame ftAdmitReply 0 0 0 rank (rankOf s) 0 0 [w32 (a * 2 ^ 28)]) <|
    if a == 1 then admitRank rank serial s else s

/-- ADMIT_REPLY (R72). -/
def onAdmitReply (r : Rx) (s : State) : State :=
  let a := wfield (wordAt r.frame.payload 0) 31 28
  raiseIf (a != 1) 0x5010 [rankOf s, a] (s.onJob fun j => { j with admitted := a == 1, answered := true })

/-- A worker asks for admission; the manager admits itself (R72, R334). -/
def askAdmission (s : State) : State :=
  if isManager s then formJob (admitRank (rankOf s) moduleSerial (s.onJob fun j => { j with admitted := true }))
  else
    sendUnicast (mkFrame ftAdmitRequest 0 0 0 (managerRank s) (rankOf s) 0 0
      (bytesWords 16 s.warp.logicalHash ++ words64 moduleSerial)) s

-- Rows.

def execAdmitRequest (rx : Rx) (s : State) : Out := checked (frameOf 0x20 rx) (receive onAdmitRequest rx s)
def execAdmitReply (rx : Rx) (s : State) : Out := checked (frameOf 0x21 rx) (receive onAdmitReply rx s)

/-- No reply within 1 s (R334, R343). -/
def execAdmitRetry (s : State) : Out :=
  .next (if (standing s == .loaded || standing s == .halted) && !s.job.admitted && !s.job.answered && !isManager s then askAdmission s
  else s)

def execNonfiniteNotice (rx : Rx) (s : State) : Out := checked (frameOf 0x22 rx) (receive onNotice rx s)

/-- A verdict; a frame of a reserved type comes by this row too and is refused as malformed (R326). -/
def execVerdict (rx : Rx) (s : State) : Out := checked (verdictFrame rx) (receive onVerdict rx s)
def execLayerCounts (rx : Rx) (s : State) : Out := checked (frameOf 0x24 rx) (receive onCounts rx s)
def execShardRatios (rx : Rx) (s : State) : Out := checked (frameOf 0x25 rx) (receive onRatios rx s)
def execSkipNotice (rx : Rx) (s : State) : Out := checked (frameOf 0x26 rx) (receive onSkipNotice rx s)

def execCommit (rx : Rx) (s : State) : Out := checked (commitFrame rx) (receive onDecision rx s)
def execSkip (rx : Rx) (s : State) : Out := checked (decisionOf 2 rx) (receive onDecision rx s)
def execReplay (rx : Rx) (s : State) : Out := checked (decisionOf 3 rx) (receive onDecision rx s)
def execHalt (rx : Rx) (s : State) : Out := checked (decisionOf 4 rx) (receive onDecision rx s)
def execStart (rx : Rx) (s : State) : Out := checked (decisionOf 5 rx) (receive onDecision rx s)
def execDecisionQuery (rx : Rx) (s : State) : Out := checked (frameOf 0x28 rx) (receive onQuery rx s)

/-- A worker that holds no decision asks again (R339). -/
def execDecisionQueryTimer (s : State) : Out :=
  .next (if s.stp.verdictSent && !isManager s && jobLoaded s then
    sendUnicast (mkFrame ftQuery 0 0 0 (managerRank s) (rankOf s) s.stp.exec s.stp.batch []) s
  else s)

/-- No decision for 4 s (R343). -/
def execDecisionTimeout (s : State) : Out :=
  .next (if s.stp.verdictSent && !isManager s && !s.job.timeoutRaised && jobLoaded s then
    raise 0x4031 [managerRank s] (s.onJob fun j => { j with timeoutRaised := true })
  else s)

/-- Not every rank's set within 2 s of the manager's own C (R341). -/
def execVerdictTimeout (s : State) : Out :=
  let silent := silentRanks s
  .next (if isManager s && s.job.gathering && !silent.isEmpty && jobLoaded s then
    issue { decHdr s 4 with haltReason := 3 } [] none (raise 0x4030 [silent.length, silent.headD 0] s)
  else s)

end Sys2Proof.Machine
end

