-- ==== Sys2Proof/Machine/Roving.lean ====
section
/-! DEFINITION. The commands of the roving ports (chapter 10). -/

namespace Sys2Proof.Machine


/-- A port qualifies physical training (R321) on its eight lanes (R311): from TRAINING, RETRAINING or DOWN it enters UP and sends
HELLO; a deaf port only trains (R322). -/
def execPhysicalTrainingDone (port : PortIx) (lanes : BitVec 8) (rtt : Word) (s : State) : Out :=
  let s1 := s.onPort port fun q => { q with lanes := lanes, rtt := rtt }
  .next <| if !(flyerRuns s && unitsRun s) then s else match (s.port port).st with
    | .deaf => s1
    | .training | .retraining | .down => if lanes == 0xFF then portUp port s1 else s1
    | _ => s

/-- A failed physical training attempt is followed by a new one (R343). -/
def execTrainingAttemptTimeout (port : PortIx) (s : State) : Out :=
  .next <| match (s.port port).st with
    | .training | .retraining | .down | .deaf => s.onPort port fun q => { q with attemptTick := s.clk.refTimer }
    | _ => s

/-- A partner's HELLO (R323). -/
def execHello (rx : Rx) (s : State) : Out :=
  checked (frameOf 0x03 rx) (receiveLink (fun r t => takeHello r.port (readHello r.frame.payload) t) rx s)

/-- No HELLO from the partner 10 ms after this side's own (R343): HELLO again. -/
def execHelloTimeout (port : PortIx) (s : State) : Out :=
  .next (if (s.port port).st == .up then sendHello port s else s)

/-- Loss of lock (R324): JOINED enters RETRAINING with event 0x4002, UP goes back to training. -/
def execLossOfLock (port : PortIx) (lanes : BitVec 8) (s : State) : Out :=
  .next (retrainPort port (causeCode .lock) (s.onPort port fun q => { q with lanes := lanes }))

/-- A port has not rejoined 200 ms after it entered RETRAINING (R324, R343). -/
def execPortDown (port : PortIx) (s : State) : Out :=
  let q := s.port port
  .next (if q.st == .retraining || (q.st == .up && q.resume) then portGone .down port s else s)

/-- An ALIGN frame (R316): a gap in its running count retrains the port. The codewords that the FEC has corrected since the one before are
counted with it (log entry 128). -/
def execAlign (port : PortIx) (num : Word) (s : State) : Out :=
  let q := s.port port
  let s1 := count 48 (portBase port + 0x24) (Config.fecCorrected port.val num.toNat) <|
    countEvt (portBase port + 0x1C) (s.onPort port fun x => { x with alignRx := some num })
  .next <| match q.st with
    | .up | .joined =>
      match q.alignRx with
      | some c => if num == c + 1 then s1 else retrainPort port (causeCode .alignGap) (s1.onPort port fun x => { x with alignRx := none })
      | none => s1
    | _ => s

/-- An IDLE frame is taken and deleted (R313); it is counted as a frame accepted. -/
def execIdle (port : PortIx) (s : State) : Out :=
  .next <| match (s.port port).st with
    | .up | .joined => countEvt (portBase port + 0x1C) s
    | _ => s

/-- The transmitter sends an IDLE frame (R316). -/
def execIdleSend (port : PortIx) (s : State) : Out :=
  .next <| match (s.port port).st with
    | .up | .joined => putWire port (mkFrame ftIdle 0 0 0 0 0 0 0 []) s
    | _ => s

/-- The transmitter sends an ALIGN frame with its running count in bytes 20 to 23 (R316). -/
def execAlignSend (port : PortIx) (s : State) : Out :=
  .next <| match (s.port port).st with
    | .up | .joined =>
      let n := (s.port port).alignTx + 1
      putWire port (mkFrame ftAlign 0 0 0 0 0 0 0 [n]) (s.onPort port fun q => { q with alignTx := n })
    | _ => s

/-- One second on the reference timer. -/
def oneSecond : Nat := 100000000

/-- An uncorrectable codeword (R315): counted; `discarded` frames had a block in it, and the first of them is NAKed. More than 16 on
a port within a second raise event 0x4012. -/
def execUncorrectableCodeword (port : PortIx) (discarded : Nat) (s : State) : Out :=
  let now := s.clk.refTimer
  let q := s.port port
  let recent := now :: q.uncTicks.filter fun t => decide (now < t + oneSecond)
  let many := decide (16 < recent.length)
  let s1 := s.onPort port fun x => { x with uncTicks := if many then [] else recent }
  let s2 := raiseIf many 0x4012 [port.val] (countErr (portBase port + 0x2C) s1)
  .next (if 0 < discarded ∧ (q.st = .joined ∨ q.st = .up) then nakNow port s2 else s2)

/-- LINK_CTRL (R329, R330): frames before NEXT_SEQ are released, returned credits taken, and a NAK answered by a resend. -/
def takeLinkCtrl (r : Rx) (s : State) : State :=
  let p := r.port
  let ws := r.frame.payload
  let q := s.port p
  let nseq := wfield (wordAt ws 0) 15 0
  let done := (nseq + 65536 - (q.txSeq + 65536 - q.retry.length) % 65536) % 65536
  let acked := if done ≤ q.retry.length then done else 0
  let s1 := s.onPort p fun x =>
    { x with retry := x.retry.drop acked, resends := if 0 < acked then 0 else x.resends,
             c0 := x.c0 + wfield (wordAt ws 1) 15 0, c1 := x.c1 + wfield (wordAt ws 1) 31 16,
             c2 := x.c2 + wfield (wordAt ws 2) 15 0, c3 := x.c3 + wfield (wordAt ws 2) 31 16 }
  if q.st == .joined then pump p (if wbit (wordAt ws 0) 16 then resendAll p s1 else s1) else s1

def execLinkCtrl (rx : Rx) (s : State) : Out := checked (frameOf 0x01 rx) (receiveLink takeLinkCtrl rx s)

/-- The receiver sends LINK_CTRL (R329). DESIGN CHOICE: while a NAK is outstanding each one repeats it (log entry 189). -/
def execLinkCtrlSend (port : PortIx) (s : State) : Out :=
  .next <| match (s.port port).st with
    | .up | .joined => sendLinkCtrl port (s.port port).nakSent s
    | _ => s

/-- The oldest unacknowledged frame has waited out its ACK timeout (R330). -/
def execAckTimeout (port : PortIx) (s : State) : Out :=
  .next (if (s.port port).st == .joined && !(s.port port).blocked then resendAll port s else s)

/-- A VC0 frame has waited 10 ms for credit (R330, R343). -/
def execVc0CreditTimeout (port : PortIx) (s : State) : Out :=
  let q := s.port port
  .next <| match q.q0 with
    | f :: _ => if q.st == .joined && decide (q.c0 < blocksOf f.frame) then retryLimit port .vc0Credit s else s
    | [] => s

/-- The frame that a NOT_READY names: a sequenced one by its SEQ, the HELLO, or the LINK_CTRL sent last that is not refused already. -/
def refusedFrame (s : State) (p : PortIx) (t sq : Nat) : Option Frame :=
  let q := s.port p
  if t == 3 then some (helloFrame s p)
  else if t == 1 then ((q.wire.filter fun f => f.ftype == ftLinkCtrl).drop (q.refused.filter fun f => f.ftype == ftLinkCtrl).length).head?
  else q.retry.find? fun f => f.ftype.toNat == t && f.seq.toNat == sq

/-- NOT_READY (R322): the refused frame is kept for its back-off. -/
def takeNotReady (r : Rx) (s : State) : State :=
  let w := wordAt r.frame.payload 0
  let f := refusedFrame s r.port (wfield w 23 16) (wfield w 15 0)
  s.onPort r.port fun q => { q with partnerNotReady := true, refused := q.refused ++ f.toList }

def execNotReady (rx : Rx) (s : State) : Out := checked (frameOf 0x04 rx) (receiveLink takeNotReady rx s)

/-- Frames from the first refused one on, in the order of the retry buffer. -/
def fromRefused (q : Port) : List Frame := q.retry.dropWhile fun f => !(q.refused.any fun x => sequenced x && x.seq == f.seq)

/-- The back-off of 1 ms has passed (R343): the refused frames go again, a sequenced one with the same SEQ and those behind it; no retry
counts. -/
def execNotReadyBackoff (port : PortIx) (s : State) : Out :=
  let q := s.port port
  let s1 := s.onPort port fun x => { x with refused := [] }
  .next <|
    if q.refused.isEmpty then s
    else if q.st == .up || q.st == .joined then
      let s2 := putWires port (q.refused.filter fun f => !sequenced f) s1
      if q.st == .joined then pump port (if q.blocked then putWires port (fromRefused q) s2 else s2) else s2
    else s1

/-- One port under a new PORT_DISABLE mask (R321, R344). -/
def disablePort (mask : BitVec 9) (s : State) (p : PortIx) : State :=
  let on := mask.getLsbD p.val
  let was := s.rov.disable.getLsbD p.val
  if on && !was then
    if portRole s p != 0 then portGone .disabled p s
    else s.onPort p fun q => { q with st := .disabled, retry := [], resume := false, refused := [], hello := none }
  else if was && !on then
    s.onPort p fun q => { q with st := if isReady s then .training else .deaf, attemptTick := s.clk.refTimer }
  else s

/-- A write of the PORT_DISABLE mask in ROV_CTRL (R344). -/
def writePortDisable (mask : BitVec 9) (s : State) : State :=
  ((List.finRange 9).foldl (disablePort mask) s).onRov fun r => { r with disable := mask }

def execPortDisable (mask : BitVec 9) (s : State) : Out := .next (gated 0x500004 (writePortDisable mask) s)

/-- A write of ROV_PORT_CTRL (R344). -/
def writeRetrain (port : PortIx) (val : Word) (s : State) : State := if wbit val 0 then retrainPort port 4 s else s

def execRetrain (port : PortIx) (val : Word) (s : State) : Out := .next (gated (portBase port + 4) (writeRetrain port val) s)

/-- The frame layer is no longer deaf (R321, R322): a port that has qualified physical training enters UP, another trains. -/
def portReady (s : State) (p : PortIx) : State :=
  let q := s.port p
  if q.st == .deaf then
    if s.rov.disable.getLsbD p.val then s.onPort p fun x => { x with st := .disabled }
    else if q.lanes == 0xFF then portUp p s
    else s.onPort p fun x => { x with st := .training, attemptTick := s.clk.refTimer }
  else s

/-- Every port at READY. -/
def portsReady (s : State) : State := (List.finRange 9).foldl portReady s

/-- The roving transmitters are off (R411): every JOINED port leaves JOINED, and an UP one trains again. -/
def portsOff (s : State) : State := (List.finRange 9).foldl (fun t p => retrainPort p (causeCode .lock) t) s

end Sys2Proof.Machine
end

