-- ==== Sys2Proof/Machine/Weft.lean ====
section
/-! DEFINITION. The host link and the weft queues (chapter 11), without what the descriptors do. -/

namespace Sys2Proof.Machine

/-- The event codes of the kinds of host attach reset (log entry 10). -/
def attachCode : AttachKind → Nat
  | .linkDown => 0
  | .cxlReset => 1
  | .conventional => 2
  | .flr => 3

/-- The counters of the WEFT_ block. -/
def weftCounters : List Nat := [0x10001C, 0x100128, 0x100130, 0x100228, 0x100230]

/-- Is a BAR0 offset one of the WEFT_ block? -/
def isWeft (off : Nat) : Bool := decide (0x100000 ≤ off) && decide (off < 0x200000)

/-- A host attach reset (R348): WEFT_ registers, the MSI-X table and HUB_BOOT_SCRATCH return to reset, so every queue is DISABLED and
its descriptors are gone; a started step runs on without a completion record; a load is aborted. -/
def attachReset (kind : AttachKind) (s : State) : State :=
  let s1 := { s with
    weft := WeftBlk.reset
    tel := { clearCtrs weftCounters s.tel with ring := EvRing.reset, msix := { Msix.reset with sent := s.tel.msix.sent } }
    hub :=
      let h := { s.hub with bootScratch := 0, latched := s.hub.latched.filter fun c => !isWeft c.1 }
      if kind == .linkDown then h.down else h }
  raise 0x4042 [attachCode kind] (abortLoad s1)

/-- A host attach reset (R348). -/
def execHostAttachReset (kind : AttachKind) (s : State) : Out := .next (attachReset kind s)

/-- The host link loses flit synchronisation and retrains (R349, R370). -/
def execHostLinkRetrain (s : State) : Out :=
  .next (if s.hub.linkUp then
    signal 3 <| raise 0x4040 [] <| countErr 0x1C <| s.onHub fun h => { h with retraining := true }
  else s)

/-- A retrain has not completed within 100 ms (R349): the link goes down. -/
def execHostLinkDown (s : State) : Out :=
  .next (if s.hub.retraining then attachReset .linkDown (raise 0x4041 [] s) else s)

/-- A write of WEFT_QUEUE_TAIL (R357): outside ENABLED it is ignored (log entry 15). -/
def writeTail (q : QueueIx) (val : Word) (s : State) : State :=
  let x := s.queue q
  let v := wfield val 15 0
  if x.st == .enabled then
    if x.size ≤ v then queueError q 1 s else s.onQueue q fun y => { y with tail := v }
  else s

def execDoorbell (q : QueueIx) (val : Word) (s : State) : Out := .next (gated (queueBase q + 0x18) (writeTail q val) s)

/-- Prefetch room (R360): 4 descriptors of queue 0 and 16 of queue 1. -/
def prefetchRoom (q : QueueIx) : Nat := if q == 0 then 4 else 16

/-- Consume the next posted descriptor (R358): its 32 words are copied in, HEAD advances and the credit is taken. With no
credit, no room or nothing posted, it stays in the host's ring. -/
def execDescriptorConsume (q : QueueIx) (words : List Word) (s : State) : Out :=
  let x := s.queue q
  checked (words.length == 32) <|
    if x.hasPosted && decide (0 < x.credits) && decide (x.fetched.length < prefetchRoom q) then
      s.onQueue q fun y =>
        { y with fetched := y.fetched ++ [⟨y.head, y.consumed / y.size % 2 == 0, words⟩], head := (y.head + 1) % y.size,
                 consumed := y.consumed + 1 }
    else s

/-- A write of WEFT_QUEUE_COMPL_HEAD releases completion slots (R358). A value of SIZE or more is ignored (log entry 15). -/
def writeComplHead (q : QueueIx) (val : Word) (s : State) : State :=
  let x := s.queue q
  let v := wfield val 15 0
  if x.st != .disabled && decide (v < x.size) then
    s.onQueue q fun y =>
      { y with released := y.released + (v + y.size - y.complHead) % y.size, complHead := v,
               blockedRaised := y.blockedRaised && v == y.complHead }
  else s

def execComplHeadWrite (q : QueueIx) (val : Word) (s : State) : Out :=
  .next (gated (queueBase q + 0x20) (writeComplHead q val) s)

/-- A write of WEFT_QUEUE_CTRL (R373): SIZE_LOG2 is taken from 6 to 14 and only while the queue is DISABLED (R356). Clearing ENABLE has
the queue effects of R348: what was fetched is discarded and HEAD, TAIL and COMPL_HEAD read zero. -/
def writeQueueCtrl (q : QueueIx) (val : Word) (s : State) : State :=
  let x := s.queue q
  let n := wfield val 4 0
  let sz := if x.st == .disabled && decide (6 ≤ n) && decide (n ≤ 14) then n else x.sizeLog2
  if wbit val 31 then
    if x.st == .disabled then
      let s1 := s.onQueue q fun y => { y with enable := true, sizeLog2 := sz, cause := 0 }
      if 6 ≤ sz ∧ sz ≤ 14 then s1.onQueue q fun y => { y with st := .enabled } else queueError q 4 s1
    else s
  else
    s.onQueue q fun y =>
      { Queue.reset with sizeLog2 := sz, errorSeen := y.errorSeen, baseLo := y.baseLo, baseHi := y.baseHi, complLo := y.complLo,
                         complHi := y.complHi }

/-- Setting ENABLE (R373). -/
def execQueueEnable (q : QueueIx) (val : Word) (s : State) : Out :=
  checked (wbit val 31) (gated (queueBase q) (writeQueueCtrl q val) s)

/-- Clearing ENABLE (R373). -/
def execQueueDisable (q : QueueIx) (val : Word) (s : State) : Out :=
  checked (!wbit val 31) (gated (queueBase q) (writeQueueCtrl q val) s)

/-- A write of WEFT_EVENT_CTRL (R371, R373). Disabling empties the ring; a SIZE_LOG2 out of range leaves the field as it was.
DEDUCED: ENABLE written while the ring is enabled keeps TAIL, HEAD and the pass (log entry 56). -/
def writeEventCtrl (val : Word) (s : State) : State :=
  let n := wfield val 4 0
  s.onTel fun t =>
    let sz := if 6 ≤ n ∧ n ≤ 16 then n else t.ring.sizeLog2
    let r := { t.ring with enable := wbit val 31, evInt := wbit val 30, sizeLog2 := sz }
    { t with ring := if wbit val 31 then r else { r with tail := 0, head := 0, written := 0 } }

def execEventRingEnable (val : Word) (s : State) : Out := .next (gated 0x100010 (writeEventCtrl val) s)

/-- A write of WEFT_EVENT_HEAD frees slots (R371). A value of SIZE or more is ignored (log entry 15). -/
def writeEventHead (val : Word) (s : State) : State :=
  s.onTel fun t => if wfield val 15 0 < t.ring.size then { t with ring := { t.ring with head := wfield val 15 0 } } else t

def execEventHeadWrite (val : Word) (s : State) : Out := .next (gated 0x100018 (writeEventHead val) s)

/-- A read of a descriptor slot is not answered within 2 ms (R369). -/
def execDescriptorReadTimeout (q : QueueIx) (s : State) : Out :=
  .next (if (s.queue q).hasPosted then queueError q 2 (raise 0x5023 [q.val, (s.queue q).head] s) else s)

/-- A write of a completion or event record, or of a report (R462), is not completed within 2 ms (R369). The event ring and the report have no
ERROR state (log entry 175). -/
def execHostWriteTimeout (ring : HostRing) (s : State) : Out :=
  .next (match ring with
    | .completion q =>
      if (s.queue q).st == .enabled then queueError q 3 (raise 0x5024 [q.val, (s.queue q).head] s) else s
    | .eventRing => if s.tel.ring.enable then raise 0x5024 [2, s.tel.ring.tail] s else s
    | .report => if s.sec.reporting.isSome then raise 0x5024 [3, 0] (s.onSec fun b => { b with reporting := none }) else s)

/-- A queue has had no credit for 100 ms while a descriptor waits (R360): event 0x5025 once. -/
def execCompletionBlocked (q : QueueIx) (s : State) : Out :=
  let x := s.queue q
  .next (if x.hasPosted && x.credits == 0 && !x.blockedRaised then
    raise 0x5025 [q.val, x.head] (s.onQueue q fun y => { y with blockedRaised := true })
  else s)

end Sys2Proof.Machine
end

