-- ==== Sys2Proof/Machine/Treadle.lean ====
section
/-! DEFINITION. The treadle: ladder, caps, issue throttling, emergency cap, draft modes, thermal limits, margin and the reference
clock (chapter 13; R409, R470, R471). -/

namespace Sys2Proof.Machine

-- Caps (R415 to R418).

/-- The effective cap in watts that the values set now give (R415). -/
def TrdBlk.effective (t : TrdBlk) : Nat :=
  let c := min t.hostCap t.mgmtCap
  match t.sensorCap with
  | some v => min c v
  | none => c

/-- Eight times the floor power of the loaded image in milliwatts: 7 p_static + p_full (R70, R414); zero with no image. -/
def floor8 (s : State) : Nat :=
  if s.warp.image.isSome then 7 * Config.pStatic s.trd.calib s.warp.imageHash + Config.pFull s.trd.calib s.warp.imageHash else 0

/-- The floor rounded up to a whole watt: the lowest cap that R417 accepts (TRD_FLOOR). -/
def floorWatts (s : State) : Nat := ceilDiv (floor8 s) 8000

/-- MIN_CAP_W of the loaded image, zero with none. -/
def minCap (s : State) : Nat := match s.warp.image with | some im => im.deadline.minCap | none => 0

/-- The cause with which a cap value is refused (R417): 2 CAP_RANGE, 1 CAP_BELOW_FLOOR. -/
def capRefusal (watts : Nat) (s : State) : Option Nat :=
  if watts < 900 ∨ 2600 < watts then some 2
  else if watts * 8000 < floor8 s then some 1
  else none

/-- A refused cap or state request (R412, R417): value, writer (0 host, 1 distaff) and cause. -/
def refuseCap (value writer cause : Nat) (s : State) : State :=
  raise 0x3110 [value, writer, cause] (s.onTrd fun t => { t with capRefused := true, refuseCause := cause })

/-- DEADLINE_VOID by the effective cap in force (R418). -/
def voidCheck (s : State) : State :=
  if s.trd.inForce < minCap s then
    if s.trd.deadlineVoid then s
    else raise 0x3120 [s.trd.inForce, minCap s] <|
      s.onTrd fun t => { t with deadlineVoid := true, voidDuringStep := t.voidDuringStep || s.stp.inStep }
  else s.onTrd fun t => { t with deadlineVoid := false }

/-- The caps set now come into force (R415, R417). -/
def applyCaps (s : State) : State := voidCheck (s.onTrd fun t => { t with inForce := t.effective })

/-- Set a cap that passes the checks of R417, or refuse it. It takes effect at the next control interval. -/
def setCap (writer watts : Nat) (put : TrdBlk → TrdBlk) (s : State) : State :=
  match capRefusal watts s with
  | some c => refuseCap watts writer c s
  | none => s.onTrd put

/-- A write of TRD_CAP (R417). -/
def writeCap (val : Word) (s : State) : State :=
  setCap 0 (wfield val 15 0) (fun t => { t with hostCap := wfield val 15 0 }) s

def execCapWrite (val : Word) (s : State) : Out := .next (gated 0x20000C (writeCap val) s)

/-- A management command (R457, R467): acted on from ATTEST_READY; before it, and in recovery, answered "not ready"; before distaff
firmware runs not acknowledged. -/
def managed (f : State → State) (s : State) : State :=
  if distaffRuns s && s.sec.attestReady then f s
  else if distaffRuns s || s.mod.recovery then reply .notReady s
  else s

/-- The distaff sets the management cap and returns the cause of a refusal (R417). -/
def execManagementCap (watts : BitVec 16) (s : State) : Out :=
  .next (managed (fun s =>
    reply (.capResult ((capRefusal watts.toNat s).getD 0)) <|
      setCap 1 watts.toNat (fun t => { t with mgmtCap := watts.toNat }) s) s)

-- The ladder (R411 to R413).

def ladderCode : Ladder → Nat
  | .t0 => 0
  | .t1 => 1
  | .t2 => 2
  | .t3 => 3
  | .t4 => 4

def ladderOf : Nat → Ladder
  | 0 => .t0
  | 1 => .t1
  | 2 => .t2
  | 3 => .t3
  | _ => .t4

/-- SRAM is lost (R411, T3): spools, creels, accumulators, core registers, and the distributed tables until Distribute is repeated. -/
def loseSram (s : State) : State :=
  { s with cores := [], acc := [], spool := [], creel := [], res := ResBlk.reset, warp := { s.warp with dist := false, templates := [] } }

/-- Nothing outside the distaff and module flash is retained (R411, T4; R412): the host link goes down, skein is lost, the loader is
EMPTY. -/
def loseAll (s : State) : State :=
  let a := if s.hub.linkUp then attachReset .linkDown s else abortLoad s
  let r := State.reset
  { a with hub := { r.hub with latched := [] }, warp := r.warp, nep := r.nep, num := r.num, stp := r.stp, bob := r.bob, job := r.job,
           ply := r.ply, reel := r.reel, cores := [], acc := [], spool := [], creel := [], res := r.res, skein := [],
           skn := { a.skn with bad := [], waiting := [] }, trd := { a.trd with deadlineVoid := false, atFloor := false },
           rov := { ports := Vector.replicate 9 { Port.reset with st := .training }, disable := 0, held := [] } }

/-- Repeat Distribute from the loader's copy on exit from T3 (R65). An execution lost with a hardware trip leaves the device HALTED without
structure, and its STEP completes HALTED (R364, R427). -/
def leaveT3 (s : State) : State :=
  let s1 := (s.onHub fun h => { h with l1 := false }).onTrd fun t => { t with lostStep := false }
  if s.trd.lostStep then
    completeStep 0x11 s.stp.batch (s1.onWarp fun w => { w with state := if w.image.isSome then .halted else w.state })
  else s1.onWarp fun w => { w with dist := w.image.isSome, templates := match w.image with | some im => Config.templates im.bytes | none => [] }

/-- What a ladder state switches off and loses as it is entered (R411). -/
def arrive (new : Ladder) (s : State) : State :=
  match new with
  | .t0 | .t1 => s
  | .t2 => portsOff s
  | .t3 => (loseSram (portsOff s)).onHub fun h => { h with l1 := h.linkUp }
  | .t4 => loseAll s

/-- Enter a ladder state (R411): event 0x3001 with the old state, the new state and the requester (0 host, 1 distaff, 2 treadle). -/
def enterLadder (new : Ladder) (who : Nat) (s : State) : State :=
  if s.trd.ladder == new then s
  else
    let old := s.trd.ladder
    let s1 := if old == .t3 then leaveT3 s else s
    let s2 := s1.onTrd fun t =>
      { t with ladder := new, sinceTick := s.clk.refTimer, stopping := false,
               issueN := if old == .t1 && new == .t0 then 32 else t.issueN,
               ramp := old == .t1 && new == .t0 }
    raise 0x3001 [ladderCode old, ladderCode new, who] (arrive new s2)

/-- A hardware trip, thermal or of the reference, holds T3 (R427, R471). -/
def tripHolds (s : State) : Bool := s.trd.tripped || s.mod.refFault

/-- The conditions under which a requested state is accepted (R412, R413, R427). -/
def stateAccepted (who : Requester) (new : Ladder) (s : State) : Bool :=
  let idle := !s.stp.inStep && !loadRunning s
  let exitOk := !(s.trd.ladder == .t3 && tripHolds s) && !(s.trd.ladder == .t4 && who == .host)
  exitOk && match new with
    | .t0 => !s.trd.em.any
    | .t1 => who == .distaff || !s.stp.inStep
    | .t2 | .t3 => idle
    | .t4 => who == .distaff && idle

/-- The writer code of events 0x3110 and 0x3001. -/
def whoCode : Requester → Nat
  | .host => 0
  | .distaff => 1

/-- A write of TRD_CTRL, or a request of the distaff in the same form (R412, R433): FREE_DRAFT_EN and TARGET are stored, a TARGET of 4
to 7 from the host is refused with the field unchanged, and REQUEST submits TARGET. -/
def writeTrdCtrl (who : Requester) (val : Word) (s : State) : State :=
  let tgt := wfield val 30 28
  let s1 := if who == .host then s.onTrd fun t => { t with freeDraftEn := wbit val 31 } else s
  if (who == .host && decide (4 ≤ tgt)) || decide (5 ≤ tgt) then refuseCap tgt (whoCode who) 3 s1
  else
    let s2 := if who == .host then s1.onTrd fun t => { t with target := tgt } else s1
    if wbit val 27 then
      if stateAccepted who (ladderOf tgt) s2 then enterLadder (ladderOf tgt) (whoCode who) s2
      else refuseCap tgt (whoCode who) 3 s2
    else s2

/-- A state request (R412): the host's by TRD_CTRL, the distaff's through the management interface. -/
def execStateRequest (who : Requester) (val : Word) (s : State) : Out :=
  checked (wbit val 27) <|
    match who with
    | .host => gated 0x200004 (writeTrdCtrl .host val) s
    | .distaff => managed (writeTrdCtrl .distaff val) s

-- The control interval (R414, R419, R425, R431).

/-- The accumulator of R414 over `k` cycles: what it holds after, and how many cycles were allowed to issue. -/
def issueCycles (acc n k : Nat) : Nat × Nat := ((acc + k * n) % 256, (acc + k * n) / 256)

/-- Free-draft mode is permitted (R425). -/
def freeDraftAllowed (s : State) : Bool :=
  (match s.warp.image with | some im => im.deadline.freeDraft | none => false) && s.trd.freeDraftEn && !s.trd.em.any &&
  s.trd.sensorCap.isNone

/-- A reading is at least 5 % below the cap; a reading is within 2 % of it (R425). -/
def fiveBelow (r cap : Nat) : Bool := decide (100 * r ≤ 95 * cap)
def withinTwo (r cap : Nat) : Bool := decide (98 * cap ≤ 100 * r)

/-- The root PLL after one interval (R42, R425): up towards 4.6 GHz, by a free amount of at most 200 MHz, after 100 µs of room; down by such
an amount when either reading comes within 2 % of the cap or a condition fails; never below 4.2 GHz. -/
def slew (allowed room close : Bool) (step root : Nat) : Nat :=
  if !allowed || close then max 4200000 (root - step) else if room then min 4600000 (root + step) else root

/-- The two readings disagree by more than `p` per cent of the measurement; of a measurement of zero the disagreement is infinite (R419). -/
def disagree (p : Nat) (r : Nat × Nat) : Bool :=
  r.2 == 0 || decide (p * r.2 < 100 * ((r.1 - r.2) + (r.2 - r.1)))

/-- Intervals in a row, with one more that meets a condition or ends the period (R420). -/
def nextRun (met : Bool) (n : Nat) : Nat := if met then n + 1 else 0

/-- The disagreement of one more pair of readings, and the recalibration that runs over 10 ms of them (R419, R420). -/
def TrdBlk.compare (r : Nat × Nat) (t : TrdBlk) : TrdBlk :=
  let ps := t.pairs.map fun l => l ++ [r]
  let full := match ps with | some l => decide (1000 ≤ l.length) | none => false
  { t with
    readings := (r :: t.readings).take 100
    over15 := nextRun (disagree 15 r) t.over15, over40 := nextRun (disagree 40 r) t.over40, within5 := nextRun (!disagree 5 r) t.within5
    pairs := if full then none else ps
    coeff := if full then ps.map Config.recalibrated else t.coeff }

/-- The estimate of R419: `byTrim` is what the coefficients of the trim record give. -/
def TrdBlk.estimate (byTrim : Nat) (t : TrdBlk) : Nat :=
  match t.coeff with
  | some c => Config.reEstimate c byTrim
  | none => byTrim

/-- The issue count that the control loop asks for (R414 to R416, R425): held at 32 while AT_FLOOR holds; cut at once on a governing reading
above the cap, and with a boosted root on either; else the loop's own `target` within 32 to 256. -/
def issueWant (t : TrdBlk) (estimate measurement target : Nat) (floorHolds : Bool) : Nat :=
  let cap := t.inForce
  let free := max 32 (min 256 target)
  let above := decide (cap < if t.measGoverns then measurement else estimate) ||
    (decide (4200000 < t.rootKhz) && decide (cap < max estimate measurement))
  if floorHolds then 32 else if above then max 32 (min free (t.issueN - 1)) else free

/-- One control interval of 10 µs: readings, throttled cycles, energy, the root with its rail, and n. `byTrim` is the estimate by the trim
record's coefficients, `target` the control loop's value; n follows it along the ramp of R423. The rail rises before the root and falls
an interval after it (R425). -/
def control (byTrim measurement target : Nat) (hot : Sensor) (hotQuarter : Nat) (s : State) : State :=
  let t := s.trd
  let cap := t.inForce
  let estimate := t.estimate byTrim
  let r := freePick 200000 s
  let cycles := arithKhz s / 100
  let run := issueCycles t.issueAcc t.issueN cycles
  let withheld := match t.ladder with
    | .t0 => cycles - run.2
    | .t1 => cycles
    | _ => 0
  let governing := if t.measGoverns then measurement else estimate
  let floorHolds := t.atFloor && decide (cap < governing)
  let want := issueWant t estimate measurement target floorHolds
  let n := if t.ramp then min want (t.issueN + 160) else want
  let room := if fiveBelow estimate cap && fiveBelow measurement cap then t.roomIntervals + 1 else 0
  let ok := freeDraftAllowed s && decide (hotQuarter < 360)
  let root := slew ok (decide (10 ≤ room)) (withinTwo estimate cap || withinTwo measurement cap) (r.1 + 1) t.rootKhz
  r.2.onTrd fun t =>
    { t.compare (estimate, measurement) with
      issueAcc := if t.ladder == .t0 then run.1 else t.issueAcc
      throttled := (t.throttled + withheld) % 2 ^ 64
      energy10uJ := (t.energy10uJ + if t.sensorCap.isSome then estimate else measurement) % (100 * 2 ^ 64)
      roomIntervals := room
      rootKhz := root
      railKhz := max t.rootKhz root
      atFloor := floorHolds
      issueN := if t.em.any then 32 else n
      ramp := t.ramp && decide (n < want)
      hotSensor := hot
      hotQuarter := hotQuarter }

/-- The control interval, while rails are up: accepted caps come into force (R417), and the loop acts on them. -/
def execControlInterval (byTrim measurement target : Nat) (hot : Sensor) (hotQuarter : Nat) (s : State) : Out :=
  .next (if s.mod.bring == .off || s.mod.bring == .held then s else control byTrim measurement target hot hotQuarter (applyCaps s))

/-- The readings of the last interval. -/
def lastReading (s : State) : Nat × Nat := s.trd.readings.headD (0, 0)

/-- The 1 ms average of a reading: over the intervals kept, at most 100. -/
def average (xs : List Nat) : Nat := if xs.isEmpty then 0 else xs.sum / xs.length

/-- Disagreement above 15 % for 1 ms (R420): the measurement governs and the estimator recalibrates from the following pairs, unless a
sensor-fault cap is in force, under which the estimate governs. -/
def execPowerDisagreement (s : State) : Out :=
  .next (if decide (s.trd.over15 < 100) || s.trd.measGoverns || s.trd.sensorCap.isSome then s
    else raise 0x3101 [(lastReading s).1, (lastReading s).2] <| countErr 0x200048 <|
      s.onTrd fun t => { t with measGoverns := true, pairs := some [] })

/-- Disagreement at or below 5 % for 10 ms (R420): the estimate governs again. -/
def execEstimatorRecalibrated (s : State) : Out :=
  .next (if s.trd.measGoverns && decide (1000 ≤ s.trd.within5) then raise 0x3103 [] (s.onTrd fun t => { t with measGoverns := false }) else s)

/-- Disagreement above 40 % for 100 ms (R420): the sensor-fault cap from the two 1 ms averages, not below the image's floor; the
estimate governs. -/
def execPowerSensorSuspect (s : State) : Out :=
  let estimate := average (s.trd.readings.map (·.1))
  let measurement := average (s.trd.readings.map (·.2))
  let cap := max (9 * min estimate measurement / 10) (floorWatts s)
  .next (if decide (s.trd.over40 < 10000) || s.trd.sensorCap.isSome then s
    else applyCaps <| raise 0x3102 [estimate, measurement, cap] <| countErr 0x200048 <|
      s.onTrd fun t => { t with sensorCap := some cap, measGoverns := false })

/-- The distaff clears the sensor-fault cap on a management command (R420). -/
def execSensorFaultClear (s : State) : Out :=
  .next (managed (fun s => if s.trd.sensorCap.isSome then applyCaps (s.onTrd fun t => { t with sensorCap := none }) else s) s)

/-- n = 32 leaves the governing reading above the cap for 1 ms (R416). -/
def execCapNotHeld (s : State) : Out :=
  let g := if s.trd.measGoverns then (lastReading s).2 else (lastReading s).1
  .next (if s.trd.ladder == .t0 && s.trd.issueN == 32 && decide (s.trd.inForce < g) && !s.trd.atFloor then
    raise 0x3104 [] (s.onTrd fun t => { t with atFloor := true })
  else s)

-- The emergency cap (R421 to R424).

/-- The source codes of event 0x3111. -/
def sourceCode : EmSource → Nat
  | .pin => 0
  | .command => 1
  | .thermal => 2
  | .inputLow => 3

def Emergency.get (e : Emergency) : EmSource → Bool
  | .pin => e.pin
  | .command => e.command
  | .thermal => e.thermal
  | .inputLow => e.inputLow

def Emergency.put (e : Emergency) (src : EmSource) (v : Bool) : Emergency :=
  match src with
  | .pin => { e with pin := v }
  | .command => { e with command := v }
  | .thermal => { e with thermal := v }
  | .inputLow => { e with inputLow := v }

/-- The distaff counts a qualified assertion and reports it (R421); one that came before its firmware ran waits in `emEarly`. -/
def reportEmergency (src : EmSource) (s : State) : State :=
  if distaffRuns s then raise 0x3111 [sourceCode src] (countEvt 0x200040 s)
  else s.onMod fun m => { m with emEarly := m.emEarly ++ [src] }

/-- A qualified assertion (R421, R422): n falls to 32 at once and the units stop at their next issue boundary. -/
def assertEmergency (src : EmSource) (s : State) : State :=
  if s.trd.em.get src then s
  else
    reportEmergency src <|
      s.onTrd fun t =>
        { t with em := t.em.put src true, issueN := 32, stopping := t.ladder == .t0, ramp := false,
                 emDuringStep := t.emDuringStep || s.stp.inStep }

/-- A qualified release (R423): when no source asserts the cap any more, a device that holds T1 returns to T0. -/
def releaseEmergency (src : EmSource) (s : State) : State :=
  if !s.trd.em.get src then s
  else
    let s1 := s.onTrd fun t => { t with em := t.em.put src false }
    if s1.trd.em.any then s1
    else
      raise 0x3112 [] <|
        if s1.trd.ladder == .t1 then enterLadder .t0 2 s1
        else s1.onTrd fun t => { t with stopping := false, ramp := t.ladder == .t0 }

/-- A qualified emergency cap (R422). -/
def execEmergencyAsserted (src : EmSource) (s : State) : Out := .next (assertEmergency src s)

/-- The last unit has stopped (R422): the device enters T1. -/
def execLastUnitStopped (s : State) : Out :=
  .next (if s.trd.stopping && s.trd.em.any then enterLadder .t1 2 s else s)

/-- A qualified release (R423). -/
def execEmergencyReleased (src : EmSource) (s : State) : Out := .next (releaseEmergency src s)

/-- A management command asserts or releases the cap (R421). -/
def execEmergencyCommand (on : Bool) (s : State) : Out :=
  .next (managed (fun s => if on then assertEmergency .command s else releaseEmergency .command s) s)

/-- The input below 46 V for 100 µs (R409). -/
def execInputLow (s : State) : Out := .next (assertEmergency .inputLow s)

/-- The input at or above 46.5 V for 10 ms (R409). -/
def execInputRecovered (s : State) : Out := .next (releaseEmergency .inputLow s)

-- Thermal limits (R426, R427).

/-- The limits of R426 in quarter degrees: of spindle and flyer dies, or of skein stacks. -/
def thermalAssert : Sensor → Nat
  | .spindle _ _ | .flyer _ => 400
  | .skein _ _ => 360
def thermalTripAt : Sensor → Nat
  | .spindle _ _ | .flyer _ => 440
  | .skein _ _ => 400

/-- A sensor as 16 bits of TRD_TEMP_MAX: die code in [15:12], sensor in [7:0] (R433). -/
def sensorCode : Sensor → Nat
  | .spindle d i => d.val * 4096 + i.val
  | .flyer i => 4 * 4096 + i.val
  | .skein k i => (8 + k.val) * 4096 + i.val

/-- A sensor reports a reading: it is the hottest where no reading held is as high. -/
def noteHot (x : Sensor) (quarterDeg : Nat) (t : TrdBlk) : TrdBlk :=
  if t.hotQuarter < quarterDeg then { t with hotSensor := x, hotQuarter := quarterDeg } else t

/-- A sensor above its assertion threshold for 100 µs (R426). -/
def execThermalLimit (sensor : Sensor) (quarterDeg : Nat) (s : State) : Out :=
  .next (if decide (thermalAssert sensor < quarterDeg) && distaffRuns s && !s.trd.em.thermal then
    assertEmergency .thermal <| raise 0x3301 [sensorCode sensor, quarterDeg] <|
      s.onTrd (noteHot sensor quarterDeg)
  else s)

/-- Every sensor at or below its release figure for 10 ms (R426, R427): the cap is released and a trip no longer holds T3. -/
def execThermalRelease (s : State) : Out :=
  .next (releaseEmergency .thermal (s.onTrd fun t => { t with tripped := false }))

/-- A step is cut off by a trip before its commit token: the execution is over for this device at once, and its STEP will complete at the
exit from T3 (R364, R427). -/
def loseStep (s : State) : State := (endExecution (noteOutcome 5 s)).onTrd fun t => { t with lostStep := true }

/-- A hardware trip (R427): T3 is forced, from every state above it. Before the commit token the execution is lost with its SRAM and
the exit will find HALTED; during P the committed state is lost. -/
def hardwareTrip (s : State) : State :=
  if s.trd.ladder == .t4 then s
  else enterLadder .t3 2 (if s.stp.pActive then loseCommitted s else if s.stp.inStep then loseStep s else s)

/-- A sensor above its trip figure for 100 µs (R427). -/
def execThermalTrip (sensor : Sensor) (quarterDeg : Nat) (s : State) : Out :=
  .next (if decide (thermalTripAt sensor < quarterDeg) && !(s.mod.bring == .off || s.mod.bring == .held) then
    hardwareTrip <| raise 0x3302 [sensorCode sensor, quarterDeg] <|
      s.onTrd fun t => { noteHot sensor quarterDeg t with tripped := true }
  else s)

-- Voltage margin (R428 to R430).

/-- An evaluation of the monitors (R429): `slackOk`: every monitor shows twice the slack the lower reserve needs; `shortfall` in
tenths of a per cent. It writes a pending trim record with its calibration. How much a lowering takes, up to 0.5 point, is free. -/
def execMarginEvaluation (slackOk : Bool) (shortfall : Nat) (s : State) : Out :=
  let now := s.trd.activeReserve
  let r := freePick 6 s
  let c := freePick (2 ^ 32) r.2
  let new := if 0 < shortfall then min 80 (now + 5 * ceilDiv shortfall 5) else if slackOk then max 30 (now - r.1) else now
  .next (if distaffRuns s then
    raise 0x3201 [now, new] <|
      c.2.onFlash fun f => f.putTrim new c.1
  else s)

/-- A monitor demands more slack during operation (R430): applied at once, up to 8 %. -/
def execMarginRaised (reserve : Nat) (s : State) : Out :=
  .next (if s.trd.activeReserve < reserve ∧ distaffRuns s then
    raise 0x3202 [min 80 reserve] (s.onTrd fun t => { t with activeReserve := min 80 reserve })
  else s)

-- The reference clock (R471).

/-- The reference fails (R471): holdover. -/
def execRefclkHoldover (s : State) : Out :=
  .next (if s.mod.refclk == .good && s.mod.bring != .off then raise 0x3401 [] (s.onMod fun m => { m with refclk := .holdover }) else s)

/-- The reference is back within 1 ms and good for 100 µs (R471): the PLLs relock. -/
def execRefclkRelock (s : State) : Out :=
  .next (if s.mod.refclk == .holdover then s.onMod fun m => { m with refclk := .good } else s)

/-- The reference is not back within 1 ms (R471): FAULT_N, and T3 as a hardware trip. -/
def execRefclkLost (s : State) : Out :=
  .next (if s.mod.refclk == .holdover then
    hardwareTrip (raise 0x3402 [] (s.onMod fun m => { m with refclk := .lost, refFault := true }))
  else s)

/-- The reference has been good for 10 ms (R471): T3 may be left. -/
def execRefclkRestored (s : State) : Out :=
  .next (if s.mod.refclk == .lost then s.onMod fun m => { m with refclk := .good, refFault := false } else s)

end Sys2Proof.Machine
end

