-- ==== Sys2Proof/Machine/Bringup.lean ====
section
/-! DEFINITION. Resets, bring-up and secure boot (chapters 14 and 15): R22, R435 to R445, R449, R450, R457, R464 to R475, R482. -/

namespace Sys2Proof.Machine

-- Revocation (R438).

/-- An identifier is named on the revocation list in force (R438). -/
def listRevoked (s : State) (id : Word) : Bool := s.flash.rvkNames.contains id

-- Firmware images (R442).

def stageNo : BootStage → Nat
  | .distaff => 1
  | .flyer => 2
  | .skeinBase => 3

def SecFlash.slots (f : SecFlash) : BootStage → FwSlots
  | .distaff => f.distaffFw
  | .flyer => f.flyerFw
  | .skeinBase => f.skeinFw

def SecFlash.putSlots (f : SecFlash) (st : BootStage) (x : FwSlots) : SecFlash :=
  match st with
  | .distaff => { f with distaffFw := x }
  | .flyer => { f with flyerFw := x }
  | .skeinBase => { f with skeinFw := x }

def SecFlash.floor (f : SecFlash) : BootStage → Nat
  | .distaff => f.floorDistaff
  | .flyer => f.floorFlyer
  | .skeinBase => f.floorSkein

def FwSlots.get (x : FwSlots) (slotB : Bool) : List Byte := if slotB then x.b else x.a

/-- Length of a signature block (R60): KEY_ID, 64 and 3,309 bytes, padded to a multiple of 256. -/
def sigBlockBytes : Nat := 3584

/-- Header word `i` of an image. -/
def imageWord (img : List Byte) (i : Nat) : Word := w32 (leNat (slice img (4 * i) 4))

/-- The signed region of an image that ends with a signature block. -/
def signedRegion (img : List Byte) : List Byte := img.take (img.length - sigBlockBytes)

/-- The signature block's KEY_ID, and its zero padding (R60, R442). -/
def blockKey (img : List Byte) : Word := w32 (leNat (slice img (img.length - sigBlockBytes) 4))
def blockPadOk (img : List Byte) : Bool := (slice img (img.length - sigBlockBytes + 3377) 207).all (· == 0)

/-- The signature pair in the signature block. -/
def blockEd (img : List Byte) : List Byte := slice img (img.length - sigBlockBytes + 4) 64
def blockMl (img : List Byte) : List Byte := slice img (img.length - sigBlockBytes + 68) 3309

/-- Everything R442 asks of a firmware image except its signatures; its RSV words are zero (R18). -/
def fwHeaderOk (s : State) (st : BootStage) (img : List Byte) : Bool :=
  decide (256 + sigBlockBytes ≤ img.length) && imageWord img 0 == 0x49574644 && wfield (imageWord img 1) 31 16 == 1 &&
  wfield (imageWord img 1) 15 8 == stageNo st && decide (wfield (imageWord img 1) 7 0 ≤ Config.stepping.toNat) &&
  (imageWord img 2).toNat == img.length && decide (s.flash.floor st ≤ (imageWord img 3).toNat) &&
  ((List.range 58).all fun i => imageWord img (6 + i) == 0) && blockKey img == imageWord img 4 && blockPadOk img && !listRevoked s (imageWord img 4)

/-- Verify a firmware image (R442): failed verifications, and whether it is accepted. -/
def fwVerify (s : State) (st : BootStage) (img : List Byte) : Nat × Bool :=
  match Config.firmwareKey (imageWord img 4) with
  | none => (0, false)
  | some keys =>
    let n := sigFails keys "DVK-FW" (signedRegion img) (blockEd img) (blockMl img)
    (n, fwHeaderOk s st img && n == 0)

-- Reset and power (R468 to R470).

/-- Every unit except the input stage controller in reset (R468), with what does not reset: module flash and its event ring, the test
access port, what has already left the device, and the input stage. Skein contents are not relied on afterwards (R206). -/
def resetUnits (bring : Bring) (asserted : Bool) (cause : Nat) (s : State) : State :=
  { State.reset with
    pending := s.pending
    tel := { TelBlk.reset with flash := s.tel.flash, hostWrites := s.tel.hostWrites, msix := { Msix.reset with sent := s.tel.msix.sent } }
    out := s.out
    flash := s.flash
    jtag := s.jtag
    freeCtr := s.freeCtr
    mod := { ModBlk.reset with
             bring := bring, resetAsserted := asserted, input := { s.mod.input with nextCause := cause },
             railFault := cause == 4, dieStraps := s.mod.dieStraps } }

/-- The host link goes down with the module: a host attach reset (R468). -/
def linkFalls (s : State) : State := if s.hub.linkUp then attachReset .linkDown s else s

/-- A qualified assertion of MODULE_RESET_N (R468). -/
def execModuleReset (s : State) : Out :=
  .next (if s.mod.bring == .off then s.onMod fun m => { m with resetAsserted := true }
    else resetUnits .held true 1 (linkFalls s))

/-- The distaff watchdog is not restarted within 1 s (R468): as a module reset, with its own cause. -/
def execWatchdogExpiry (s : State) : Out :=
  .next (if distaffRuns s then resetUnits .held s.mod.resetAsserted 5 (linkFalls s) else s)

/-- The input below 44 V for 1 ms (R470): the module is off. -/
def execInputLoss (s : State) : Out :=
  .next (if s.mod.bring == .off then s else resetUnits .off s.mod.resetAsserted 2 (linkFalls s))

/-- The input above 58 V for 50 µs (R470). -/
def execOvervoltage (s : State) : Out :=
  .next (if s.mod.bring == .off then s else resetUnits .off s.mod.resetAsserted 3 (linkFalls s))

/-- Rails not in regulation within 30 ms (R464). -/
def execRailFault (s : State) : Out :=
  .next (if s.mod.bring == .rails then resetUnits .off s.mod.resetAsserted 4 s else s)

-- Bring-up (R464, R466).

/-- Time zero (R464): the die straps were sampled in reset (R22), SLOT_ID at its release (R473), and the cause of this boot is reported
with one boot more (R482). -/
def execBringupStart (straps : List (Fin 4)) (slot : BitVec 5) (s : State) : Out :=
  checked (straps.length == 4) <|
    match s.mod.bring with
    | .held | .off =>
      s.onMod fun m =>
        { m with bring := .rails, resetAsserted := false, zeroTick := s.clk.refTimer, dieStraps := straps, slot := slot,
                 railFault := false, spiExternal := false,
                 input := { nextCause := 0, cause := m.input.nextCause, boots := min 0xFFFF (m.input.boots + 1) } }
    | _ => s

/-- The distaff stays in recovery (R443). -/
def enterRecovery (s : State) : State :=
  (s.onMod fun m => { m with recovery := true }).onSec fun b => { b with bootStage := 0xF }

/-- A PLL or firmware stage is late (R464): recovery. -/
def execBootStageTimeout (s : State) : Out :=
  .next (match s.mod.bring with
    | .rails | .distaff | .flyer =>
      if s.mod.recovery then s else enterRecovery (raise 0x6003 [s.sec.bootStage + 1] s)
    | _ => s)

/-- Raise the events that waited for distaff firmware: emergency assertions and an ignored SPI enable (R475, chapter 15). -/
def raiseEarly (s : State) : State :=
  let s1 := s.mod.emEarly.foldl (fun t e => raise 0x3111 [sourceCode e] (countEvt 0x200040 t)) s
  let s2 := raiseIf s.mod.spiIgnoredEarly 0x6006 [] s1
  s2.onMod fun m => { m with emEarly := [], spiIgnoredEarly := false }

/-- Failed verifications of a device-signed record under this module's own keys (R439, R440). -/
def recFails (r : DevRec) : Nat := sigFails (deviceEd, deviceMl) "DVK-REC" (recRegion r.kind r.serial r.generation r.body) r.ed r.ml

/-- A record of a kind is used (R449): both signatures verify, its serial is this module's, its generation is not below the current one,
and it holds what it is read as. -/
def recValid (kind generation : Nat) (body : List Byte) (r : DevRec) : Bool :=
  recFails r == 0 && r.kind == kind && r.serial == moduleSerial && decide (generation ≤ r.generation) && r.body == body

/-- Read one record: whether it is used, and the state after its rejection (R440, R449). -/
def readRecord (kind generation : Nat) (body : List Byte) (o : Option DevRec) (s : State) : Bool × State :=
  match o with
  | none => (false, s)
  | some r =>
    if recValid kind generation body r then (true, s)
    else (false, raise 0x6030 [kind, r.generation] (countSigFail (recFails r) s))

/-- The device-signed records read at boot (R430, R448 to R450): each rejected one raises event 0x6030. -/
def readRecords (s : State) : State :=
  let f := s.flash
  let a := readRecord 1 f.mapGen (mapBody f.map) f.mapA s
  let b := readRecord 1 f.mapGen (mapBody f.map) f.mapB a.2
  let mapOk := a.1 || b.1
  let c := readRecord 2 f.trimGen (trimBody f.trimReserve f.trimCalib) f.trimRec (raiseIf (!mapOk) 0x6031 [] b.2)
  let s1 := (raiseIf (!c.1) 0x3203 [] c.2).onTrd fun t =>
    { t with activeReserve := if c.1 then f.trimReserve else 80, calib := if c.1 then f.trimCalib else 0 }
  let d := readRecord 3 f.storeGen (storeBody f.storeGen f.warpKeys f.revokedKeys f.sealKeys) f.storeRec s1
  let s2 := if d.1 then d.2 else d.2.onFlash fun g => { g with warpKeys := [], revokedKeys := [], sealKeys := [] }
  (s2.onSec fun b => { b with mapOk := mapOk }).onMod fun m => { m with mapFault := !mapOk }

/-- A certificate chain under its algorithm's verification: the root is the one whose hash the ROM holds, both certificates verify under it,
and the device certificate carries the derived key and this module's serial (R437). -/
def chainOk (verify : List Byte → List Byte → List Byte → Bool) (rootHash deviceKey : List Byte) (c : Config.Chain) : Bool :=
  sha512 c.rootKey == rootHash && verify c.rootKey c.rootPart c.rootSig && verify c.rootKey c.devicePart c.deviceSig &&
    c.deviceKey == deviceKey && c.deviceSerial == moduleSerial

/-- Failed verifications of a chain (R440). -/
def chainFails (verify : List Byte → List Byte → List Byte → Bool) (c : Config.Chain) : Nat :=
  b2n (!verify c.rootKey c.rootPart c.rootSig) + b2n (!verify c.rootKey c.devicePart c.deviceSig)

/-- ML-DSA-65 as certificates use it: with no context. -/
def mlCertVerify (key part sig : List Byte) : Bool := Config.mlVerify key part [] sig

/-- The chains in module flash, and the root keys that they bring. -/
def edChainOf (s : State) : Config.Chain := Config.readChain s.flash.edChain
def mlChainOf (s : State) : Config.Chain := Config.readChain s.flash.mlChain
def rootKeys (s : State) : List Byte × List Byte := ((edChainOf s).rootKey, (mlChainOf s).rootKey)

/-- The identity checks of a boot (R437, R438). -/
def identityChecked (s : State) : Bool :=
  chainOk Config.edVerify Config.rootEdHash deviceEd (edChainOf s) && chainOk mlCertVerify Config.rootMlHash deviceMl (mlChainOf s) &&
    !listRevoked s (Config.moduleCertId moduleSerial)

/-- Distaff firmware starts (R435, R437, R441): the PUF secret from its helper data, the certificate checks, the records; I3C is enabled. -/
def startDistaff (pufOk : Bool) (s : State) : State :=
  if pufOk && s.flash.pufHelper == Config.pufHelper then
    let s1 := s.onMod fun m => { m with bring := .distaff }
    let s2 := countSigFail (chainFails Config.edVerify (edChainOf s) + chainFails mlCertVerify (mlChainOf s)) (readRecords (raiseEarly s1))
    (s2.onSec fun b => { b with identityOk := identityChecked s }).onI3c fun i => { i with enabled := true }
  else enterRecovery (raise 0x6004 [] s)

/-- What a verified stage brings up (R441, R464). -/
def startStage (st : BootStage) (stack : StackIx) (pufOk : Bool) (img : List Byte) (s : State) : State :=
  let d := sha512 (signedRegion img)
  let v := (imageWord img 3).toNat
  match st with
  | .distaff => startDistaff pufOk (s.onSec fun b => { b with bootStage := 1, measDistaff := d, verDistaff := v })
  | .flyer =>
    (s.onSec fun b => { b with bootStage := 2, measFlyer := d, verFlyer := v, flyerRelease := imageWord img 5 }).onMod fun m =>
      { m with bring := .flyer, sgmii := true }
  | .skeinBase =>
    let s1 := s.onStack stack fun x => { x with firmwareOk := true }
    if s1.skn.stk.all (·.firmwareOk) then
      (s1.onSec fun b => { b with bootStage := 3, measSkein := d, verSkein := v }).onMod fun m => { m with bring := .skeinBase }
    else s1

/-- The stage boots from a slot. -/
def bootFrom (st : BootStage) (stack : StackIx) (pufOk slotB : Bool) (img : List Byte) (s : State) : State :=
  startStage st stack pufOk img <| raise 0x6001 [stageNo st, b2n slotB, (imageWord img 3).toNat] <|
    s.onFlash fun f => f.putSlots st { f.slots st with bootedB := slotB }

/-- Try the slot that was last activated, then the other (R443). An update written before this boot becomes active now (R444). -/
def bootStage (st : BootStage) (stack : StackIx) (pufOk : Bool) (s : State) : State :=
  let x := s.flash.slots st
  let first := if x.staged then !x.bootedB else x.activeB
  let s0 := s.onFlash fun f => f.putSlots st { x with activeB := first, staged := false }
  let r1 := fwVerify s st (x.get first)
  let s1 := countSigFail r1.1 s0
  if r1.2 then bootFrom st stack pufOk first (x.get first) s1
  else
    let other := x.get !first
    let r2 := fwVerify s st other
    let s2 := countSigFail r2.1 (raise 0x6002 [stageNo st] (s1.onSec fun b => { b with slotFallback := true }))
    if r2.2 then bootFrom st stack pufOk (!first) other s2
    else enterRecovery (raise 0x6003 [stageNo st] s2)

/-- A boot stage verifies the next one (R441), in the order of R464; the skein base's image once for each of the 8 stacks. -/
def execBootStageVerified (stage : BootStage) (stack : StackIx) (pufOk : Bool) (s : State) : Out :=
  .next (if s.mod.recovery then s
    else match stage, s.mod.bring with
      | .distaff, .rails => bootStage .distaff stack pufOk s
      | .flyer, .distaff => bootStage .flyer stack pufOk s
      | .skeinBase, .flyer => if (s.stack stack).firmwareOk then s else bootStage .skeinBase stack pufOk s
      | _, _ => s)

/-- Milliseconds from time zero. -/
def msSinceZero (s : State) : Nat := (s.clk.refTimer - s.mod.zeroTick) / 100000

/-- A firmware floor rises to the version that runs (R445). -/
def raiseFloor (idx old new : Nat) (put : SecFlash → SecFlash) (s : State) : State :=
  if old < new then raise 0x6022 [idx, new] (s.onFlash fun f => (put f).protect) else s

/-- Failed verifications of the two test signatures (R440, R457, R466). -/
def testFails (edOk mlOk : Bool) : Nat := b2n (!edOk) + b2n (!mlOk)

/-- ATTEST_READY (R457), with the firmware floors of R445: the identity, the stages and the records hold, and the security block then signs
and verifies a test digest with both keys. -/
def execAttestationReady (edOk mlOk : Bool) (s : State) : Out :=
  let b := s.sec
  .next (if !(b.identityOk && b.bootStage == 3 && b.mapOk && !b.attestReady && !s.mod.signFault) then s
    else if 0 < testFails edOk mlOk then countSigFail (testFails edOk mlOk) s
    else
    raiseFloor 2 s.flash.floorSkein b.verSkein (fun f => { f with floorSkein := b.verSkein }) <|
    raiseFloor 1 s.flash.floorFlyer b.verFlyer (fun f => { f with floorFlyer := b.verFlyer }) <|
    raiseFloor 0 s.flash.floorDistaff b.verDistaff (fun f => { f with floorDistaff := b.verDistaff }) <|
    raise 0x6005 [] <| (s.onSec fun b => { b with attestReady := true, bootStage := 4 }).onMod fun m => { m with attestMs := msSinceZero s })

/-- All 256 skein channels are trained (R464), which begins once ATTEST_READY is set: the self-test starts, or waits for the emergency cap's
release. -/
def execSkeinTrained (s : State) : Out :=
  .next (if s.mod.bring == .skeinBase && s.sec.attestReady then
    (s.onSkn fun k => { k with stk := k.stk.map fun x => { x with trained := true, scrubActive := true } }).onMod fun m =>
      { m with bring := .selfTest }
  else s)

/-- Skein training not done by 700 ms (R464): READY withheld, FAULT_N. -/
def execSkeinTrainingFailed (stack : StackIx) (channels : BitVec 32) (s : State) : Out :=
  .next (if s.mod.bring == .skeinBase || s.mod.bring == .noSkein then
    raise 0x2407 [stack.val, channels.toNat] (s.onMod fun m => { m with bring := .noSkein, trainFault := true })
  else s)

/-- The base that the HDM decoder takes: a multiple of 256 MiB (log entry 155). -/
def hdmBaseOf (addr : BitVec 64) : Nat := addr.toNat / 2 ^ 28 * 2 ^ 28

/-- The UCIe link completes training (R346, R464), or a retrain (R349); not in T4. Which modules use a redundant lane is free. The host
driver then programs the HDM decoder for 32 GiB from `hdmBase` (R353). -/
def execHostLinkUp (hdmBase : BitVec 64) (s : State) : Out :=
  let r := freePick 16 s
  .next (if flyerRuns s && s.trd.ladder != .t4 then
    r.2.onHub fun h =>
      { h with linkUp := true, retraining := false, flitMode := true, modulesTrained := 0xF, lanesRepaired := BitVec.ofNat 4 r.1
               l1 := s.trd.ladder == .t3
               cfg := { h.cfg with hdmBase := hdmBaseOf hdmBase, hdmBytes := 2 ^ 35, hdmWays := 1 } }
  else s)

/-- The host link is not trained by 600 ms (R464): event 0x4043 once. -/
def execHostLinkNotTrained (s : State) : Out :=
  .next (if flyerRuns s && !s.hub.linkUp && !s.mod.linkLateRaised then
    raise 0x4043 [] (s.onMod fun m => { m with linkLateRaised := true })
  else s)

-- Quarantine (R388 to R390).

/-- The causes that event 0x2121 carries (log entry 10). -/
inductive QCause where
  | reproduced | creel | intermittent
  deriving DecidableEq, Repr

def QCause.code : QCause → Nat
  | .reproduced => 0
  | .creel => 1
  | .intermittent => 2

/-- Quarantine one core: the map is written with the next generation in both copies (R390, R450). -/
def quarantineCore (cause : QCause) (s : State) (c : CoreIx) : State :=
  if quarantined s c.val then s
  else
    raiseExec 0x2121 [coreCode c.val, cause.code] <|
      s.onFlash fun f => f.putMap (f.map ||| BitVec.ofNat 576 (2 ^ c.val))

/-- The 12 cores of a cluster. -/
def clusterCores (cl : ClusterIx) : List CoreIx := (List.finRange 576).filter fun c => c.val / 12 == cl.val

/-- What a lasting fault does to its unit (R388). -/
def lastingFault (s : State) (u : CardUnit) : State :=
  match u with
  | .core c => quarantineCore .reproduced s c
  | .creel cl => (clusterCores cl).foldl (quarantineCore .creel) s
  | .update _ | .reelEngine _ =>
    raiseExec 0x2122 [(unitCode u).1, (unitCode u).2] (s.onPly fun p => { p with unitUnfit := true })

/-- Units that fail the self-test (R466); the cores it quarantines are counted. -/
def selfTestFails (units : List CardUnit) (s : State) : State :=
  let t := units.foldl lastingFault s
  t.onMod fun m => { m with selfTestQuar := m.selfTestQuar + (quarantineCount t.flash.map - quarantineCount s.flash.map) }

/-- HUB_RESET_CAUSE and HUB_BRINGUP_MS (R482). -/
def resetCauseWord (s : State) : Word := w32 (s.mod.input.cause * 2 ^ 28 + s.mod.input.boots)
def bringupMsWord (s : State) : Word := w32 (s.mod.readyMs % 65536 * 65536 + s.mod.attestMs % 65536)

/-- The self-test ends (R464, R466): failing units, and READY unless the signature test or the quarantine map withholds it. While the
emergency cap is asserted the self-test has not begun. -/
def execBringupComplete (failed : List CardUnit) (edOk mlOk : Bool) (s : State) : Out :=
  .next (if s.mod.bring == .selfTest && !s.trd.em.any then
    let t := selfTestFails failed s
    if 0 < testFails edOk mlOk then
      ((countSigFail (testFails edOk mlOk) t).onMod fun m => { m with signFault := true }).onSec fun b => { b with attestReady := false }
    else if !t.sec.mapOk then t
    else
      let u := portsReady (t.onMod fun m => { m with bring := .ready, readyMs := msSinceZero s })
      raise 0x7010 [(resetCauseWord u).toNat, (bringupMsWord u).toNat, u.mod.selfTestQuar] u
  else s)

/-- The self-test is not done by 1,000 ms (R464): every unit still under test has reproduced a fault. -/
def execSelfTestTimeout (untested : List CardUnit) (s : State) : Out :=
  .next (if s.mod.bring == .selfTest && !s.trd.em.any then selfTestFails untested s else s)

/-- SPI_EXT_EN_N low for 1 ms (R475): connected in module reset; ignored otherwise, with event 0x6006 once the distaff runs. -/
def execSpiExternalEnable (s : State) : Out :=
  .next (if s.mod.resetAsserted then s.onMod fun m => { m with spiExternal := true }
    else if distaffRuns s then raise 0x6006 [] s
    else s.onMod fun m => { m with spiIgnoredEarly := true })

/-- FAULT_N is asserted (R473). -/
def faultN (s : State) : Bool :=
  s.mod.recovery || tripHolds s || s.mod.railFault || s.mod.mapFault || s.mod.trainFault || s.mod.signFault

end Sys2Proof.Machine
end

