-- ==== Sys2Proof/Machine/Integrity.lean ====
section
/-! DEFINITION. Integrity (R376 to R397): usable cores and checkers, detections with their suspects, carding, and what protected
storage and paths report (R303 to R306). -/

namespace Sys2Proof.Machine

-- Usable cores and checkers (R378, R394).

/-- A core that the running execution may use (R394). -/
def usable (s : State) (c : CoreIx) : Bool :=
  !quarantined s c.val && s.ply.mask.getLsbD c.val && !s.ply.excluded.contains c

/-- Usable placed cores in PLACE order; of one stage, or of the device. -/
def usablePlaced (s : State) (stage : Option Nat) : List CoreIx :=
  (placedCores s).filterMap fun p =>
    match coreOf p.core with
    | some c => if usable s c && (stage.isNone || stage == some p.stage) then some c else none
    | none => none

/-- The list L of R378. -/
def checkerList (s : State) (stage : Nat) : List CoreIx :=
  let l := usablePlaced s (some stage)
  if l.length < 2 then usablePlaced s none else l

/-- Position of a core in a list, −1 where it is not in it. -/
def positionOf (c : CoreIx) : List CoreIx → Int → Int
  | [], _ => -1
  | x :: xs, i => if x == c then i else positionOf c xs (i + 1)

/-- The checker of a unit (R378): `ranBy` are the cores that ran a part of it, the first part's first; `h` is the offset. -/
def chooseChecker (s : State) (stage h : Nat) (ranBy : List CoreIx) : Option CoreIx :=
  let l := checkerList s stage
  let n := l.length
  let first := ranBy.headD 0
  let outside := (List.finRange 576).find? fun c =>
    usable s c && !ranBy.contains c && !((placedCores s).any fun p => coreOf p.core == some c)
  if n == 0 then outside
  else
    let step : Int := if n == 1 then 0 else (h % (n - 1) : Nat)
    let start := ((positionOf first l 0 + 1 + step) % n).toNat
    let cyc := l.drop start ++ l.take start
    match cyc.find? fun c => !ranBy.contains c with
    | some c => some c
    | none => outside

-- Detections (R383, R389).

/-- Batches, among the last 4,096, in which a core was a suspect. -/
def suspectBatches (s : State) (c : CoreIx) : List Nat :=
  ((s.ply.detections.filter fun d => d.1 == c && decide (d.2 ≤ s.stp.batch ∧ s.stp.batch < d.2 + 4096)).map (·.2)).eraseDups

/-- Quarantine of a core that has been a suspect in three batches (R389). -/
def intermittent (s : State) (c : CoreIx) : State :=
  if 3 ≤ (suspectBatches s c).length then quarantineCore .intermittent s c else s

/-- A detection names suspects: cores, units to card with the next execution, and engines to card after the decision (R383, R387). -/
def detect (cores : List CoreIx) (replay later : List CardUnit) (s : State) : State :=
  let fresh := cores.filter fun c => !s.ply.suspects.contains c
  let s1 := s.onPly fun y =>
    { y with suspects := y.suspects ++ fresh
             detections := (cores.map fun c => (c, s.stp.batch)) ++ y.detections
             cardReplay := y.cardReplay ++ (fresh.map CardUnit.core ++ replay).filter fun u => !y.cardReplay.contains u
             cardLater := y.cardLater ++ later.filter fun u => !y.cardLater.contains u }
  stopIfPlaced (cores.foldl intermittent s1)

/-- PLY_LAST_MISMATCH (R407). -/
structure Mismatch where
  phase : Phase
  segment : Bool
  layer : Nat
  original : Nat
  checker : Nat
  row : Nat
  col : Nat
  microBatch : Nat
  element : Nat
  was : Word
  got : Word
  deriving DecidableEq, Repr

def Mismatch.words (m : Mismatch) (s : State) : List Word :=
  [w32 (2 ^ 31 + s.stp.exec * 2 ^ 29 + (if m.segment then 0 else phaseCode m.phase) * 2 ^ 26 + b2n m.segment * 2 ^ 25 + m.layer),
   w32 (m.original * 65536 + m.checker), w32 m.row, w32 m.col, w32 (m.microBatch * 65536 + m.element), w32 s.stp.batch, m.was, m.got]

/-- A failed ply check of a unit (R380, R383). -/
def plyMismatch (m : Mismatch) (c : Capture) (original checker : CoreIx) (s : State) : State :=
  let ws := m.words s
  let s1 := (countErr 0x300018 s).onPly fun y => { y with lastMismatch := ws }
  let s2 := capture (original.val / 12) { c with suspects := [.core original, .core checker] } (s1.onStp fun b => { b with plyFail := true })
  detect [original, checker] [] [] (raise 0x2101 (ws.map (·.toNat)) s2)

/-- The stack of a shard's master buffer (R218). -/
def shardStack (s : State) (tag : Nat) : StackIx :=
  match s.warp.image with
  | some im => match im.memory.find? fun e => e.kind == 9 && e.tag == tag with
    | some e => Fin.ofNat 8 e.stack
    | none => 0
  | none => 0

/-- First position in which two lists of words differ. -/
def firstWord : Nat → List Word → List Word → Option (Nat × Word × Word)
  | i, a :: as, b :: bs => if a == b then firstWord (i + 1) as bs else some (i, a, b)
  | i, a :: _, [] => some (i, a, 0)
  | i, [], b :: _ => some (i, 0, b)
  | _, [], [] => none

/-- What the neighbour computes from the inputs it was sent (R381): the shadow's master values, m and v, by R245 to R247. -/
def segmentShadow (s : State) (w : SegWait) : List Word :=
  match s.warp.image, findHank s w.tag with
  | some im, some p =>
    let n := w.expected.length / (if im.hanks.adamw then 3 else 2)
    let word (i : Nat) : Word := wordAt w.inputs i
    let part (i : Nat) : List Word := (w.inputs.drop (4 + i * n)).take n
    let gs := if p.kind == 0 then
        (part 0).map fun c => (gradOf (isExact s) (signed 32 (word 0).toNat) (signed 32 (word 1).toNat) im.hanks.gradNorm
          (ofWireCode (isExact s) c.toNat)).val.bits
      else part 0
    let old : ShardBuf := ⟨word 2, word 3, part 1, part 2, part 3⟩
    let r := (updateBuf (recipeOf s im.hanks p old) old gs).1
    segmentWords im.hanks.adamw r 0
  | _, _ => []

/-- The neighbour's recomputation of a sampled segment comes back (R381). -/
def segmentCheck (w : SegWait) (returned : List Word) (s : State) : State :=
  let s1 := countEvt 0x30001C (s.onPly fun y => { y with segWaits := y.segWaits.filter fun x => x != w })
  match firstWord 0 w.expected returned with
  | none => s1
  | some (i, a, b) =>
    let k := shardStack s w.tag
    let layer := match findHank s w.tag with | some p => p.layer | none => 0
    let m : Mismatch := ⟨.fwd, true, layer, k.val, (k.val + 1) % 8, w.tag, w.segment, 0, i % 1024, a, b⟩
    let c : Capture := ⟨leBytes 3 w.tag ++ leBytes 4 w.segment ++ List.replicate 9 0, i, a, b, [.wide w.inputs], [], 0,
      [.update k, .update (k + 1)]⟩
    let s2 := (countErr 0x300024 s1).onPly fun y => { y with lastMismatch := m.words s }
    detect [] [] [.update k, .update (k + 1)] <|
      raise 0x2102 ((m.words s).map (·.toNat)) <| capture (48 + k.val) c (s2.onStp fun x => { x with plyFail := true })

/-- UPDATE_SEGMENT_CHECK: `faulty` is what an update engine with a fault returns in place of its computation. -/
def execUpdateSegmentCheck (tag : BitVec 20) (segment : Nat) (faulty : Option (List Word)) (s : State) : Out :=
  .next (match if unitsRun s then s.ply.segWaits.find? fun w => w.tag == tag.toNat && w.segment == segment else none with
    | some w => segmentCheck w (faulty.getD (segmentShadow s w)) s
    | none => s)

-- Carding (R384 to R388).

def partCode : CardPart → Nat
  | .none => 0
  | .retry => 1
  | .pattern => 2
  | .march => 3
  | .limit => 3

/-- A test can end in this part: a retry is run on a capture for the suspect, and not in a test that the host asked for (R384, R407). -/
def partRuns (s : State) (u : CardUnit) (part : CardPart) : Bool :=
  part != .retry || (s.ply.cardHost != some u && s.ply.capture.any fun c => c.suspects.contains u)

/-- A suspect of the capture still has its test before it. -/
def captureNeeded (y : PlyBlk) (u : CardUnit) (c : Capture) : Bool :=
  c.suspects.any fun v => v != u && (y.carding ++ y.cardReplay ++ y.cardLater).contains v

/-- A suspect's carding test has ended (R386, R388): the last of its suspects consumes a capture, and a test that the host asked for
none. -/
def cardingEnds (u : CardUnit) (part : CardPart) (s : State) : State :=
  let bad := part != .none
  let code := unitCode u
  let host := s.ply.cardHost == some u
  let s1 := s.onPly fun y =>
    { y with carding := y.carding.filter fun x => x != u
             cardHost := if host then none else y.cardHost
             cardResult := if bad then 3 else 2, cardUnit := code.1, cardPart := partCode part, cardTarget := code.2
             capture := match y.capture with
               | some c => if !host && c.suspects.contains u && !captureNeeded y u c then none else some c
               | none => none }
  let s2 := raiseExec 0x2120 [code.1, code.2, if bad then 3 else 2, partCode part] s1
  if bad then stopIfPlaced (lastingFault (countErr 0x300034 s2) u) else s2

def execCardingResult (unit : CardUnit) (part : CardPart) (s : State) : Out :=
  .next (if s.ply.carding.contains unit && partRuns s unit part then cardingEnds unit part s else s)

/-- A test that exceeds its limit counts as a reproduction (R384). -/
def execCardingTimeout (unit : CardUnit) (s : State) : Out :=
  .next (if s.ply.carding.contains unit then cardingEnds unit .limit s else s)

/-- The unit that PLY_CARDING_CTRL names (R407). -/
def cardTargetOf (unit target : Nat) : Option CardUnit :=
  match unit with
  | 0 => (coreOf target).map CardUnit.core
  | 1 => some (.update (Fin.ofNat 8 (field target 14 12)))
  | _ => if field target 3 0 < 12 then some (.reelEngine (Fin.ofNat 12 (field target 3 0))) else none

/-- A write of PLY_CARDING_CTRL (R407): START runs parts 2 and 3 on the target while no step and no carding runs. -/
def writeCardingCtrl (val : Word) (s : State) : State :=
  let u := wfield val 17 16
  let s1 := s.onPly fun y =>
    { y with ctrlRefused := (y.ctrlRefused && !wbit val 30) || u == 3, ctrlUnit := if u == 3 then y.ctrlUnit else u
             ctrlTarget := wfield val 15 0 }
  if wbit val 31 then
    match cardTargetOf u (wfield val 15 0) with
    | some t =>
      if u != 3 && !s.stp.inStep && s.ply.carding.isEmpty then
        s1.onPly fun y => { y with carding := [t], cardHost := some t, cardResult := 1, cardUnit := u, cardPart := 0, cardTarget := wfield val 15 0 }
      else s1.onPly fun y => { y with ctrlRefused := true }
    | none => s1.onPly fun y => { y with ctrlRefused := true }
  else s1

def execCardingStart (val : Word) (s : State) : Out := .next (gated 0x300008 (writeCardingCtrl val) s)

-- Protected storage and paths (R303 to R306, R383).

/-- Counter of a cluster's corrected SRAM words: no register shows it. -/
def kSramCorrected (cluster : Nat) : Nat := 2 ^ 60 + cluster

/-- Corrected words of a cluster's SRAM are counted (R303): event 0x2401 above 1,024 in one second (R303). -/
def sramCorrected (cluster words : Nat) (s : State) : State :=
  let now := s.clk.refTimer
  let recent := List.replicate words now ++ (assocGet [] cluster s.skn.sram).filter fun t => decide (now < t + 100000000)
  let many := decide (1024 < recent.length)
  raiseIf many 0x2401 [8 + cluster] (count 48 (kSramCorrected cluster) words <|
    s.onSkn fun k => { k with sram := assocPut cluster (if many then [] else recent) k.sram })

end Sys2Proof.Machine
end

