-- ==== Sys2Proof/Machine/Skein.lean ====
section
/-! DEFINITION. Skein memory (R278 to R285, R292, R302 to R308, R353 to R355): the map, access by requester class, errors, the patrol
scrub and the host-visible window. -/

namespace Sys2Proof.Machine

-- The window (R283).

/-- Window offset to skein address (R283), and back. -/
def windowAddr (h : Nat) : Nat := field h 14 12 * 2 ^ 37 + 0x1700000000 + h / 2 ^ 15 * 4096 + h % 4096
def windowOff (addr : Nat) : Nat :=
  let r := skeinOff addr - 0x1700000000
  r / 4096 * 2 ^ 15 + (skeinStack addr).val * 4096 + r % 4096

-- Errors (R303, R305 to R308).

/-- A corrected word: counted; more than 1,024 in a stack within one second raise event 0x2401. -/
def correctedWord (addr : Nat) (byScrub : Bool) (cls symbol : Nat) (s : State) : State :=
  let k := skeinStack addr
  let now := s.clk.refTimer
  let recent := now :: (s.stack k).corrTicks.filter fun t => decide (now < t + 100000000)
  let many := decide (1024 < recent.length)
  raiseIf many 0x2401 [k.val] <| countEvt (sknReg addr 0x10) <|
    (noteError addr 1 byScrub cls symbol s).onStack k fun x => { x with corrTicks := if many then [] else recent }

/-- Committed state is lost (R307): a device that is halted, or has been as its load began, discards its job at once; the others report the
loss in their next C. -/
def stateLost (addr : Nat) (byScrub : Bool) (cls : Nat) (s : State) : State :=
  let s1 := faultWith 2 <| raise 0x2403 [addr, cls] <|
    (noteError addr 3 byScrub cls 0x3F s).onStack (skeinStack addr) fun x => { x with stateLost := true }
  if s.warp.state == .halted || (loadRunning s && s.warp.began == .halted) then loseCommitted s1 else s1

/-- A region that holds committed state (R306). -/
def Rgn.committed : Rgn → Bool
  | .master | .optimiser | .system => true
  | _ => false

/-- The shards whose narrow parameters hold an address. -/
def shardsAt (s : State) (layer addr : Nat) : List Hank :=
  match layerOf s layer, paramBase s layer with
  | some l, some base =>
    let fmt := effFmt (modeIn s.num.layers l.id) l .weight
    (shardHanks s).filter fun p => p.layer == layer && (shardTiles l p).any fun t =>
      (List.range 2).any fun copy => (List.range 16).any fun seg =>
        (segPlaces l fmt base copy t seg).any fun x => decide (x.1 ≤ addr ∧ addr < x.1 + x.2)
  | _, _ => []

/-- Narrow parameters are emitted again (R306): by this device's update engine, or by the owner that it asks. -/
def renewParams (layer addr : Nat) (s : State) : State :=
  (shardsAt s layer addr).foldl (fun t p => if p.owner == rankOf s then reEmit p t else requestResend p.tag t) s

/-- An uncorrectable word met by a request (R306). -/
def uncorrectable (addr cls : Nat) (s : State) : State :=
  let r := regionOf s addr
  let s1 := countErr (sknReg addr 0x18) s
  if r.committed then stateLost addr false cls s1
  else
    let s2 := raise 0x2402 [addr, cls] (noteError addr 2 false cls 0x3F s1)
    match r with
    | .params layer => renewParams layer addr s2
    | .loader => loseCommitted s2
    | .window => if cls == 4 then s2 else faultNow s2
    | _ => faultNow s2

-- Requests.

/-- A parity failure on the way (R305), seen by the requester class `cls`: at a skein port (boundary 5) or channel (6) it is counted there. -/
def pathParity (boundary addr cls : Nat) (s : State) : State :=
  let here := boundary == 5 || boundary == 6
  let s1 := if here then countErr (sknReg addr 0x1C) (noteError addr 4 false cls 0x3F s) else s
  faultNow (raise 0x2405 [boundary, addr] s1)

/-- The data of a read that returns nothing. -/
def noData (s : State) : State := s.onOut fun o => { o with lastRead := none }

/-- A CXL.mem write into the staged image while it is guarded (R285). -/
def guarded (s : State) (h n : Nat) : Bool :=
  match guardedRange s with
  | some g => overlaps g.1 g.2 h n
  | none => false

/-- Read granules that a stack holds at once (R292). -/
def readSlots : Nat := 8192

/-- Read granules are accepted, as many as there are slots for at once: they stay outstanding until the next tick (R292, log entry 134). -/
def noteReads (addr n : Nat) (s : State) : State :=
  s.onStack (skeinStack addr) fun x =>
    let k := min readSlots (x.outstanding + n)
    { x with outstanding := k, highWater := max x.highWater k }

/-- The granules that a range of bytes touches (R278). -/
def granules (addr n : Nat) : Nat := if n == 0 then 0 else (addr + n - 1) / 256 - addr / 256 + 1

/-- The word at an address has bad check bits until it is written (R302, R308). -/
def markBad (addr : Nat) (s : State) : State := s.onSkn fun k => { k with bad := addr / 32 * 32 :: k.bad.filter (· != addr / 32 * 32) }

/-- The 32-byte words that a range of bytes touches (R302). -/
def wordsOf (addr n : Nat) : List Nat := if n == 0 then [] else (List.range ((addr + n - 1) / 32 - addr / 32 + 1)).map fun i => (addr / 32 + i) * 32

/-- What the decoder makes of one word that is read (R302, R303, R306): the state after it, and whether its data can be used. -/
def decodeWord (cls : Nat) (x : State × Bool) (w : Nat × Ecc) : State × Bool :=
  if x.1.skn.bad.contains w.1 then (uncorrectable w.1 cls x.1, false)
  else
    match w.2 with
    | .good => x
    | .corrected sym => (correctedWord w.1 false cls sym.val x.1, x.2)
    | .uncorrectable => (uncorrectable w.1 cls (markBad w.1 x.1), false)

/-- What the decoder makes of a read: `ecc` says how its words decode, in order. -/
def decodeRead (cls addr len : Nat) (ecc : List Ecc) (s : State) : State × Bool :=
  ((wordsOf addr len).zipIdx.map fun w => (w.1, ecc.getD w.2 .good)).foldl (decodeWord cls) (s, true)

/-- A read that a unit of the device makes in its class (R284, R292, R302, R306): the state after it, and the bytes, if there are any. -/
def skeinTake (cls addr n : Nat) (s : State) : State × Option (List Byte) :=
  match firstForbidden s cls false addr n with
  | some x => (refuseRequest x cls s, none)
  | none =>
    let r := decodeRead cls addr n [] (noteReads addr (granules addr n) s)
    (r.1, if r.2 then some (s.skein.readBytes addr n) else none)

/-- Several such reads, one after another: the bytes of all of them, if none lacks its own. -/
def skeinTakes (cls : Nat) (ps : List (Nat × Nat)) (s : State) : State × Option (List Byte) :=
  ps.foldl (fun x p =>
    let r := skeinTake cls p.1 p.2 x.1
    (r.1, match x.2, r.2 with | some a, some b => some (a ++ b) | _, _ => none)) (s, some [])

/-- A request without a result: the bus gets no data, the host's read fails poisoned (R306, R355). -/
def SkeinReq.fails (q : SkeinReq) (s : State) : State :=
  match q.op with
  | .read _ => if q.cls == 4 then busRead [] true s else noData s
  | _ => s

/-- A read that may proceed: on the bus, or into spool or creel (R28); without data the destination receives nothing. -/
def skeinRead (q : SkeinReq) (s : State) : State :=
  match q.op with
  | .read len =>
    let r := decodeRead q.cls q.addr len q.ecc (noteReads q.addr 1 s)
    if r.2 then busRead (r.1.skein.readBytes q.addr len) false r.1 else q.fails r.1
  | .fetch len dst =>
    let r := decodeRead q.cls q.addr len q.ecc (noteReads q.addr 1 s)
    if r.2 then r.1.storeAt dst (r.1.skein.readBytes q.addr len) else r.1
  | _ => s

/-- The cluster whose SRAM a place is, and the bank there (R290, R291). -/
def Loc.sram : Loc → Nat × Nat
  | .spool c o => (c.val / 12, o / 32768)
  | .creel c o => (c.val, o / 262144)
  | _ => (0, 0)

/-- What the code of a spool or creel makes of bytes that the cluster DMA reads there (R303, R306): the state after it, and whether they can
be used. -/
def sramRead (l : Loc) (ecc : List Ecc) (s : State) : State × Bool :=
  let n := (ecc.filter fun e => match e with | .corrected _ => true | _ => false).length
  let s1 := if n == 0 then s else sramCorrected (Loc.sram l).1 n s
  if ecc.contains .uncorrectable then (faultNow (raise 0x2404 [(Loc.sram l).1, (Loc.sram l).2] s1), false) else (s1, true)

/-- A write that may proceed. -/
def skeinWrite (cls addr : Nat) (data : List Byte) (s : State) : State :=
  if cls == 4 && guarded s (windowOff addr) data.length then countErr (sknReg addr 0x4C) s else s.putSkein addr data

def SkeinReq.isWrite (q : SkeinReq) : Bool := match q.op with | .read _ | .fetch _ _ | .move _ _ _ => false | .write _ | .store _ _ => true

/-- Bytes that the cluster DMA has read from spool or creel, where they are resident (R28, R43), go on with `k`. -/
def fromSram (len : Nat) (src : Loc) (ecc : List Ecc) (k : List Byte → State → State) (s : State) : State :=
  if s.resident src len then
    let r := sramRead src ecc s
    if r.2 then k (s.readAt src len) r.1 else r.1
  else s

/-- A request that its requester class may make (R284, R292, R305). -/
def serveRequest (q : SkeinReq) (s : State) : State :=
  match q.parity with
  | some b => q.fails (pathParity b.val q.addr q.cls s)
  | none =>
    match q.op with
    | .write data => skeinWrite q.cls q.addr data s
    | .store len src => fromSram len src q.ecc (skeinWrite q.cls q.addr) s
    | .move len src dst => fromSram len src q.ecc (fun bs t => t.storeAt dst bs) s
    | _ =>
      if readSlots ≤ (s.stack (skeinStack q.addr)).outstanding then s.onSkn fun k => { k with waiting := k.waiting ++ [q] }
      else skeinRead q s

/-- What the cluster DMA moves between spools and creels does not go to a skein base (R28). -/
def SkeinReq.local (q : SkeinReq) : Bool := match q.op with | .move _ _ _ => q.cls == 0 | _ => false

/-- A write of the update engines' class into committed values: once a job has its shards, those change with the commit token only, which
exchanges the buffers (R47, R204), so no request that writes there is made (log entry 181). -/
def SkeinReq.untimely (s : State) (q : SkeinReq) : Bool :=
  q.cls == 3 && q.isWrite && s.reel.initialised && match regionOf s q.addr with | .master | .optimiser => true | _ => false

/-- A request to a skein base (R284): one that reaches an untrained stack finds nothing there. -/
def skeinRequest (q : SkeinReq) (s : State) : State :=
  let k := skeinStack q.addr
  if q.local then serveRequest q s
  else if !(s.stack k).trained then s
  else if !mayReach q.cls q.byLoader q.isWrite k.val (regionOf s q.addr) then q.fails (refuseRequest q.addr q.cls s)
  else if q.untimely s then s
  else serveRequest q s

def execSkeinRequest (cls : ClassIx) (byLoader : Bool) (addr : BitVec 40) (op : SkeinOp) (ecc : List Ecc) (parity : Option (Fin 8))
    (s : State) : Out :=
  checked (requestShaped addr.toNat op) (if unitsRun s then skeinRequest ⟨cls.val, byLoader, addr.toNat, op, ecc, parity⟩ s else s)

/-- A tick of the reference timer passes in the skein bases: granules read before it are no longer outstanding, and the reads that
waited for a slot are made in their order (R292). -/
def skeinTick (s : State) : State :=
  let qs := s.skn.waiting
  let s1 := s.onSkn fun k => { k with waiting := [], stk := k.stk.map fun x => { x with outstanding := 0 } }
  qs.foldl (fun t q => serveRequest q t) s1

-- CXL.mem (R283, R352, R355).

/-- The window offset of a host address (R353): none outside the decoded range. -/
def hdmOffset (s : State) (addr : Nat) : Option Nat :=
  let c := s.hub.cfg
  if c.hdmBase ≤ addr ∧ addr < c.hdmBase + c.hdmBytes then some (addr - c.hdmBase) else none

/-- A host read of the window, which waits like any other read for a slot (R292): one that finds no usable data fails poisoned. -/
def cxlRead (off len : Nat) (ecc : List Ecc) (parity : Option (Fin 8)) (s : State) : State :=
  if !isReady s then busRead (List.replicate len 0) true s else serveRequest ⟨4, false, windowAddr off, .read len, ecc, parity⟩ s

/-- A read of an address that the HDM decoder does not claim is not the device's. -/
def execCxlMemRead (addr : BitVec 64) (len : Nat) (ecc : List Ecc) (parity : Option (Fin 8)) (s : State) : Out :=
  checked (lineShaped addr.toNat len)
    (match if unitsRun s then hdmOffset s addr.toNat else none with
     | some h => cxlRead h len ecc parity s
     | none => s)

/-- A host write of the window; one that fails parity on its way is not used (R305). -/
def cxlWrite (off : Nat) (data : List Byte) (parity : Option (Fin 8)) (s : State) : State :=
  if !isReady s then s
  else
    match parity with
    | some b => pathParity b.val (windowAddr off) 4 s
    | none => skeinWrite 4 (windowAddr off) data s

def execCxlMemWrite (addr : BitVec 64) (data : List Byte) (parity : Option (Fin 8)) (s : State) : Out :=
  checked (lineShaped addr.toNat data.length)
    (match if unitsRun s then hdmOffset s addr.toNat else none with
     | some h => cxlWrite h data parity s
     | none => s)

-- Refresh and scrub (R280, R308).

/-- Refresh affects time only. -/
def execRefresh (_stack : StackIx) (_chan : ChanIx) (_bank : Fin 48) (s : State) : Out := .next s

/-- Progress of the pass after the word at `off` (SKN_SCRUB_STATUS). -/
def scrubProgress (off : Nat) (x : Stack) : Stack :=
  if stackBytes ≤ off + 32 then
    { x with scrubActive := false, scrubProgress := 0, scrubPasses := min (x.scrubPasses + 1) 0xFFFF }
  else { x with scrubActive := true, scrubProgress := (off + 32) * 1024 / stackBytes }

/-- What a scrub read finds (R308): a write-back restores check bits and changes no data; a word with bad check bits is uncorrectable. -/
def scrubWord (addr : Nat) (kind : ScrubKind) (s : State) : State :=
  match if s.skn.bad.contains addr then .uncorrectable else kind with
  | .clean => s
  | .corrected sym | .overtaken sym => correctedWord addr true 0 sym.val s
  | .uncorrectable =>
    let s1 := countErr (sknReg addr 0x18) (markBad addr s)
    if (regionOf s addr).committed then stateLost addr true 0 s1
    else raise 0x2402 [addr, 0] (noteError addr 2 true 0 0x3F s1)

def execScrub (stack : StackIx) (off : BitVec 37) (kind : ScrubKind) (s : State) : Out :=
  checked (scrubShaped off.toNat) <|
    if (s.stack stack).trained && s.trd.ladder != .t3 && s.trd.ladder != .t4 then
      scrubWord (stack.val * 2 ^ 37 + off.toNat) kind (s.onStack stack (scrubProgress off.toNat))
    else s

-- What protection finds in the units (R303 to R306, R383).

/-- What protection finds while a unit works in a tile of a core. -/
def unitError (a : AccRef) (e : UnitError) (s : State) : State :=
  let c := a.core.val
  match e with
  | .accumulator =>
    detect [a.core] [] [] <| faultNow <| raise 0x1024 [c, b2n a.eng, b2n a.tile] <|
      s.onTile a fun t => { t with flags := { t.flags with fault := true } }
  | .spool bank => detect [a.core] [] [] (faultNow (raise 0x2404 [c, bank] s))
  | .creel bank =>
    let cl : ClusterIx := Fin.ofNat 48 (clusterOf a.core)
    detect (clusterCores cl) [.creel cl] [] (faultNow (raise 0x2404 [clusterOf a.core, bank] s))
  | .table n => faultNow (raise 0x2404 [c, n] s)
  | .parity b addr => detect (if b.val ≤ 1 then [a.core] else []) [] [] (pathParity b.val addr 0 s)
  | .nepKey g stream => faultNow (raise 0x1402 [g, stream.toNat] s)
  | .corrected words => sramCorrected (clusterOf a.core) words s
  | .skein addr e => (decodeWord 0 (s, true) (addr.toNat / 32 * 32, e)).1

def unitErrors (a : AccRef) (e : Option UnitError) (s : State) : State :=
  match e with
  | some x => unitError a x s
  | none => s

/-- The counter under which corrected words of the key, scale and route tables stand, beside those of the 48 clusters. -/
def tableUnit : Nat := 48

/-- What protection finds while an engine outside the cores works in a class, for a cluster where it works in one (R303 to R306): the state
after it, and whether its data can be used. -/
def engineError (cls cluster : Nat) (e : Option UnitError) (s : State) : State × Bool :=
  match e with
  | none | some .accumulator | some (.spool _) => (s, true)
  | some (.creel bank) => (faultNow (raise 0x2404 [cluster, bank] s), false)
  | some (.table n) => (faultNow (raise 0x2404 [cluster, n] s), false)
  | some (.parity b addr) => (pathParity b.val addr cls s, false)
  | some (.nepKey g stream) => (faultNow (raise 0x1402 [g, stream.toNat] s), true)
  | some (.corrected words) => (sramCorrected cluster words s, true)
  | some (.skein addr x) => decodeWord cls (s, true) (addr.toNat / 32 * 32, x)

end Sys2Proof.Machine
end

