-- ==== Sys2Proof/Machine/Bobbin.lean ====
section
/-! DEFINITION. The bobbin (R187 to R194): frames and their reservations, records and their granules in creel and skein, pushes, spills,
pops and prefetch. -/

namespace Sys2Proof.Machine

-- Where a stage's bobbin stands (R59, R194).

def State.bobbin (s : State) (stage : Nat) : Option BobStage := s.bob.stages.find? fun b => b.stage == stage

/-- The bobbin region of a stage. -/
def bobbinRegion (s : State) (stage : Nat) : Option Region :=
  match s.warp.image with
  | some im => im.memory.find? fun e => e.kind == 1 && e.stage == stage
  | none => none

/-- Bobbin size of a stage, from the MEMORY section (R215). -/
def bobbinSize (s : State) (stage : Nat) : Nat := match bobbinRegion s stage with | some e => e.size | none => 0

/-- Skein address of a granule of a stage's bobbin region. -/
def grainAddr (s : State) (stage g : Nat) : Nat := match bobbinRegion s stage with | some e => e.addr + 256 * g | none => 0

/-- The creel allocations of a stage, one per cluster that runs it: address in the creels and granules. -/
def creelAllocs (s : State) (stage : Nat) : List (Nat × Nat) :=
  match s.warp.image with
  | some im => (im.memory.filter fun e => e.kind == 12 && e.stage == stage).map fun e =>
      ((field e.cluster 11 10 * 12 + field e.cluster 9 6) * creelBytes + e.offset, e.size / 256)
  | none => []

/-- Address of granule `i` of a list of allocations. -/
def allocAt : Nat → List (Nat × Nat) → Option Nat
  | _, [] => none
  | i, a :: as => if i < a.2 then some (a.1 + 256 * i) else allocAt (i - a.2) as

/-- The lowest number from `i` up, within `n` tries, that is not in use. -/
def firstFree (used : List Nat) : Nat → Nat → Option Nat
  | 0, _ => none
  | n + 1, i => if used.contains i then firstFree used n (i + 1) else some i

-- Records and granules.

/-- Bytes of a record: its granules. -/
def BobRecord.bytes (r : BobRecord) : Nat := 256 * r.grains.length

/-- Space a frame takes: what is still reserved and what its records hold. -/
def BobFrame.used (f : BobFrame) : Nat := f.reserved + (f.records.map BobRecord.bytes).sum

/-- Space a stage's bobbin has in use. -/
def BobStage.used (b : BobStage) : Nat := (b.frames.map BobFrame.used).sum

/-- Granules of a stage in its skein region and in its creel allocation that are in use. -/
def BobStage.grains (b : BobStage) : List Grain := b.frames.flatMap fun f => f.records.flatMap (·.grains)
def BobStage.skeinUsed (b : BobStage) : List Nat := b.grains.filterMap (·.skein)
def BobStage.creelUsed (b : BobStage) : List Nat := b.grains.filterMap (·.creel)

/-- Note the largest use and the most frames. -/
def BobStage.noteUse (b : BobStage) : BobStage :=
  { b with highWater := max b.highWater b.used, maxFrames := max b.maxFrames b.frames.length }

/-- Change a stage's bobbin and note its largest use and most frames. -/
def onBobbin (stage : Nat) (f : BobStage → BobStage) (s : State) : State :=
  s.onBob fun b => { b with stages := updWhere (fun x => x.stage == stage) (fun x => (f x).noteUse) b.stages }

/-- Change the records of a stage. -/
def BobStage.mapRecords (f : BobRecord → BobRecord) (b : BobStage) : BobStage :=
  { b with frames := b.frames.map fun x => { x with records := x.records.map f } }

/-- Put granule `i` of the record with a push number. -/
def BobStage.setGrain (number i : Nat) (g : Grain) : BobStage → BobStage :=
  BobStage.mapRecords fun r => if r.number == number then { r with grains := r.grains.set i g } else r

/-- The creel-held granule pushed first: record number, index, granule. -/
def BobStage.oldest (b : BobStage) : Option (Nat × Nat × Grain) :=
  let held := b.frames.flatMap fun f => f.records.flatMap fun r =>
    (r.grains.zipIdx.filter fun p => p.1.creel.isSome).map fun p => (r.number, p.2, p.1)
  held.foldl (fun best x =>
    match best with
    | none => some x
    | some y => if x.1 < y.1 ∨ (x.1 = y.1 ∧ x.2.1 < y.2.1) then some x else best) none

/-- A free granule of a stage's bobbin region, and of its creel allocation. -/
def freeSkein (s : State) (b : BobStage) : Option Nat :=
  let used := b.skeinUsed
  firstFree used (min (bobbinSize s b.stage / 256) (used.length + 1)) 0
def freeCreel (s : State) (b : BobStage) : Option Nat :=
  let used := b.creelUsed
  firstFree used (min ((creelAllocs s b.stage).map (·.2)).sum (used.length + 1)) 0

/-- Creel address of a granule number of a stage. -/
def creelGrain (s : State) (stage i : Nat) : Nat := (allocAt i (creelAllocs s stage)).getD 0

/-- The bytes of a granule, from creel while it is there, else read from skein in the bobbin class (R293, R306). -/
def takeGrain (stage : Nat) (g : Grain) (s : State) : State × Option (List Byte) :=
  match g.creel, g.skein with
  | some i, _ => (s, some (s.creel.readBytes (creelGrain s stage i) 256))
  | none, some k => skeinTake 1 (grainAddr s stage k) 256 s
  | none, none => (s, some [])

/-- The bytes of granules in order, if none lacks its own. -/
def takeGrains (stage : Nat) (gs : List Grain) (s : State) : State × Option (List Byte) :=
  gs.foldl (fun x g =>
    let r := takeGrain stage g x.1
    (r.1, match x.2, r.2 with | some a, some b => some (a ++ b) | _, _ => none)) (s, some [])

/-- The granule pushed first leaves creel (R194): one that is not in skein yet is written there. -/
def spillOldest (stage : Nat) (s : State) : State :=
  match s.bobbin stage with
  | none => s
  | some b =>
    match b.oldest with
    | none => s
    | some (number, i, g) =>
      match g.skein, freeSkein s b with
      | some k, _ => onBobbin stage (BobStage.setGrain number i ⟨some k, none⟩) s
      | none, some k =>
        (onBobbin stage (BobStage.setGrain number i ⟨some k, none⟩) s).putSkein (grainAddr s stage k) ((takeGrain stage g s).2.getD [])
      | none, none => s

/-- Put 256 bytes behind the granules of the record with a push number: in creel, or in skein where the stage has no creel. -/
def addGrain (stage number : Nat) (bs : List Byte) (s : State) : State :=
  let put (g : Grain) (t : State) : State :=
    onBobbin stage (BobStage.mapRecords fun r => if r.number == number then { r with grains := r.grains ++ [g] } else r) t
  let full := match s.bobbin stage with | some b => (freeCreel s b).isNone | none => false
  let s1 := if full then spillOldest stage s else s
  match s1.bobbin stage with
  | none => s1
  | some b =>
    match freeCreel s1 b, freeSkein s1 b with
    | some i, _ => (put ⟨none, some i⟩ s1).putCreel (creelGrain s1 stage i) bs
    | none, some k => (put ⟨some k, none⟩ s1).putSkein (grainAddr s1 stage k) bs
    | none, none => s1

-- What a record holds (R188).

/-- What a layer's record holds of its input: nothing where the input is the token data (log entry 135), a wide input, two narrow
copies, or the attention stash. -/
inductive InputForm where
  | tokens | wide | narrow | attention
  deriving DecidableEq, Repr

def inputForm (s : State) (l : Layer) : InputForm :=
  if l.kind == 1 || l.kind == 2 then .attention
  else if l.kind == 4 then .tokens
  else if l.wide || (NFmt.ofCode (effFmt (modeIn (nextModes s) l.id) l .act)).isNone then .wide
  else .narrow

/-- The three arrays of a narrow copy of `n` values in an operand's format (R100). -/
def copyPieces (s : State) (l : Layer) (r : Role) (n : Nat) (a : NarrowAt) : List (Loc × Nat) :=
  match NFmt.ofCode (effFmt (modeIn (nextModes s) l.id) l r) with
  | some f =>
    let z := stapleSize (roleStaple l r)
    [(a.elem, n * f.bits / 8), (a.hdr, n / z * 2), (a.slub, n / z * 6)]
  | none => [(a.elem, n * wideBytes (effFmt (modeIn (nextModes s) l.id) l r))]

/-- Bytes of one value of a wide input. -/
def wideInput (l : Layer) : Nat := if l.wide then 4 else wideBytes l.actFmt

/-- The pre-activation values of a layer whose activation is not the identity, as BF16. -/
def prePieces (l : Layer) (tokens : Nat) (pre : Loc) : List (Loc × Nat) :=
  if l.activation == 0 then [] else [(pre, 2 * tokens * l.nExtent)]

/-- The content of a record in full or reduced form, as the places it is copied from; none where the layer's record has another form
(R188). -/
def recordPieces (s : State) (l : Layer) (mb : Nat) (reduced : Bool) (p : PushSpec) : Option (List (Loc × Nat)) :=
  let t := mbTokens s mb
  let pre (x : Loc) : List (Loc × Nat) := if reduced then [] else prePieces l t x
  match inputForm s l, p with
  | .narrow, .narrow tok feat x =>
    some (copyPieces s l .act (t * l.kExtent) tok ++
      (if reduced then copyPieces s l .act (t * l.kExtent) feat else pre x))
  | .wide, .wide input x => some ((input, t * l.kExtent * wideInput l) :: pre x)
  | .tokens, .wide _ x => some (pre x)
  | .attention, .attention q k v qt kt vf ml x =>
    let n := t * l.heads * l.headDim
    let other := if reduced then copyPieces s l .act n qt ++ copyPieces s l .weight n kt ++ copyPieces s l .weight n vf else []
    some (copyPieces s l .act n q ++ copyPieces s l .weight n k ++ copyPieces s l .weight n v ++ other ++ (ml, 8 * t * l.heads) :: pre x)
  | _, _ => none

/-- Granules of a record with so many bytes of content, header included (R189). -/
def recordUnits (bytes : Nat) : Nat := ceilDiv (16 + bytes) 256

/-- Granules of the reduced form of a layer's record (R190): places do not matter to its length. -/
def reducedUnits (s : State) (mb : Nat) (l : Layer) : Nat :=
  let z : Loc := .skein 0
  let a : NarrowAt := ⟨z, z, z, 0⟩
  let p : PushSpec := match inputForm s l with
    | .narrow => .narrow a a z
    | .attention => .attention a a a a a a z z
    | _ => .wide z z
  match recordPieces s l mb true p with
  | some ps => recordUnits (ps.map (·.2)).sum
  | none => 0

/-- The reduced-form size of a micro-batch's whole frame in the formats of the batch (R190). -/
def frameBytes (s : State) (stage mb : Nat) : Nat :=
  match s.warp.image with
  | some im => ((im.layers.filter fun l => l.stage == stage).map fun l => 256 * reducedUnits s mb l).sum
  | none => 0

-- FRAME_RESERVE.

/-- Reserve a frame for a micro-batch of the batch (R190). -/
def reserveFrame (stage mb : Nat) (s : State) : State :=
  match s.bobbin stage with
  | some b =>
    let n := frameBytes s stage mb
    if unitsRun s && decide (mb < mbCount s) && !(b.frames.any fun f => f.microBatch == mb) && decide (b.used + n ≤ bobbinSize s stage) then
      onBobbin stage (fun x => { x with frames := x.frames ++ [⟨mb, n, [], false⟩] }) s
    else s
  | none => s

def execFrameReserve (stage microBatch : Nat) (s : State) : Out := .next (reserveFrame stage microBatch s)

/-- A micro-batch has its reservation in a stage, so that its F may start there (R190). -/
def reserved (s : State) (stage mb : Nat) : Bool :=
  match s.bobbin stage with
  | some b => b.frames.any fun f => f.microBatch == mb
  | none => true

-- Pushes (R188, R189, R192, R194).

/-- Words of a record header (R189). -/
def recordHeader (reduced : Bool) (stage layer mb length batch : Nat) : List Word :=
  let w0 := b2n reduced * 2 ^ 31 + stage % 256 * 2 ^ 22 + layer % 2 ^ 14
  let ones := popcount 32 w0 + popcount 32 (mb % 65536) + popcount 32 (length % 2 ^ 32) + popcount 32 (batch % 2 ^ 32)
  [w32 (w0 + ones % 2 * 2 ^ 30), w32 (mb % 65536), w32 length, w32 batch]

/-- A record's bytes: header, content, zeros up to whole granules (R189). -/
def recordBytes (s : State) (reduced : Bool) (l : Layer) (mb : Nat) (content : List Byte) : List Byte :=
  let units := recordUnits content.length
  wordsBytes (recordHeader reduced l.stage l.id mb units s.stp.batch) ++ content ++
    List.replicate (256 * units - 16 - content.length) 0

/-- Counter of reduced records of a stage (R215). -/
def kRecompute (stage : Nat) : Nat := 0x9A4 + 2 ^ 28 * (1 + stage)

/-- The frame of a layer's micro-batch, with its stage's bobbin. -/
def frameOfWork (s : State) (l : Layer) (mb : Nat) : Option (BobStage × BobFrame) :=
  match s.bobbin l.stage with
  | some b => (b.frames.find? fun f => f.microBatch == mb).map fun f => (b, f)
  | none => none

/-- A record goes in reduced form when an earlier one of the frame did, or when its full form does not fit now (R192). -/
def goesReduced (s : State) (l : Layer) (mb : Nat) (b : BobStage) (f : BobFrame) (p : PushSpec) : Bool :=
  f.reducedOnly ||
    match recordPieces s l mb false p with
    | some ps =>
      decide (bobbinSize s l.stage < b.used - min f.reserved (256 * reducedUnits s mb l) + 256 * recordUnits (ps.map (·.2)).sum)
    | none => false

/-- What a push would copy can be read: it is resident, or it stands in skein (R43). -/
def piecesHere (s : State) (ps : List (Loc × Nat)) : Bool :=
  ps.all fun p => match p.1 with | .skein _ => true | _ => s.resident p.1 p.2

/-- A layer's record can be pushed: its frame is reserved, the record is the next in the F order of the layers (R187; DEDUCED to be
ascending LAYER_ID, log entry 187), it has the layer's
form, and its parts are there. -/
def pushReady (s : State) (l : Layer) (mb : Nat) (p : PushSpec) : Bool :=
  match frameOfWork s l mb with
  | none => false
  | some (b, f) =>
    (f.records.all fun r => decide (r.layer < l.id)) &&
      match recordPieces s l mb (goesReduced s l mb b f p) p with
      | some ps => piecesHere s ps
      | none => false

/-- What a push copies (R43, R284, R306): skein is read in the engine DMA class; without all of it there is no record. -/
def takePieces (ps : List (Loc × Nat)) (s : State) : State × Option (List Byte) :=
  ps.foldl (fun x p =>
    let r : State × Option (List Byte) := match p.1 with | .skein a => skeinTake 0 a p.2 x.1 | l => (x.1, some (x.1.readAt l p.2))
    (r.1, match x.2, r.2 with | some a, some b => some (a ++ b) | _, _ => none)) (s, some [])

/-- Push a layer's record in the frame of its micro-batch. -/
def pushRecord (l : Layer) (mb : Nat) (p : PushSpec) (s : State) : State :=
  match frameOfWork s l mb with
  | none => s
  | some (b, f) =>
    let red := goesReduced s l mb b f p
    match recordPieces s l mb red p with
    | none => s
    | some ps =>
      let r := takePieces ps s
      match r.2 with
      | none => r.1
      | some content =>
        let bytes := recordBytes s red l mb content
        let s1 := onBobbin l.stage (fun x =>
          { x with
            frames := updWhere (fun g => g.microBatch == mb)
              (fun g => { g with reserved := g.reserved - 256 * reducedUnits s mb l, records := ⟨l.id, red, b.pushes, []⟩ :: g.records
                                 reducedOnly := red }) x.frames
            pushes := x.pushes + 1, reduced := x.reduced + b2n red }) r.1
        let s2 := (List.range (bytes.length / 256)).foldl (fun t i => addGrain l.stage b.pushes ((bytes.drop (256 * i)).take 256) t) s1
        if red then countEvt (kRecompute l.stage) s2 else s2

-- Pops (R187, R189, R190, R194).

/-- Parity and content of a header that the pop engine reads, against the pop it expects (R189). -/
def headerOk (s : State) (stage mb layer units : Nat) (hdr : List Word) : Bool :=
  (hdr.map fun w => popcount 32 w.toNat).sum % 2 == 0 && wfield (wordAt hdr 0) 29 22 == stage && wfield (wordAt hdr 0) 21 14 == 0 &&
    wfield (wordAt hdr 0) 13 0 == layer && wordAt hdr 1 == w32 mb && wordAt hdr 2 == w32 units && wordAt hdr 3 == w32 s.stp.batch

/-- Take the last pushed record out of a frame; a frame with nothing left goes. -/
def BobStage.pop (mb : Nat) (b : BobStage) : BobStage :=
  let fs := updWhere (fun f => f.microBatch == mb) (fun f => { f with records := f.records.drop 1 }) b.frames
  { b with frames := fs.filter fun f => f.microBatch != mb || !f.records.isEmpty || f.reserved != 0 }

/-- The record that a frame pops next. -/
def nextRecord (s : State) (stage mb : Nat) : Option BobRecord :=
  match s.bobbin stage with
  | some b => match b.frames.find? fun f => f.microBatch == mb with | some f => f.records.head? | none => none
  | none => none

/-- Bring one granule of a record to creel, where a slot is free. -/
def prefetchGrain (stage number i : Nat) (s : State) : State :=
  match s.bobbin stage with
  | none => s
  | some b =>
    match (b.frames.flatMap (·.records)).find? fun r => r.number == number with
    | none => s
    | some r =>
      match r.grains[i]?, freeCreel s b with
      | some g, some k =>
        if g.creel.isSome then s
        else
          let r := takeGrain stage g s
          match r.2 with
          | some bs => (onBobbin stage (BobStage.setGrain number i { g with creel := some k }) r.1).putCreel (creelGrain s stage k) bs
          | none => r.1
      | _, _ => s

/-- The next record that a frame will pop is prefetched into creel (R194). -/
def prefetchNext (stage mb : Nat) (s : State) : State :=
  match nextRecord s stage mb with
  | some r => (List.range r.grains.length).foldl (fun t i => prefetchGrain stage r.number i t) s
  | none => s

/-- Words with the damage that a storage or path error did to them. -/
def damaged (ws damage : List Word) : List Word := (ws.zipIdx).map fun p => p.1 ^^^ damage.getD p.2 0

/-- The record behind a pop in B (R193). -/
def notePopped (stage mb layer : Nat) (reduced : Bool) (s : State) : State :=
  onBobbin stage (fun b => { b with popped := b.popped ++ [⟨layer, mb, reduced, false⟩] }) s

/-- A pop (R187, R189, R190): the record's space is free at once, its content goes to `dst`, and the frame's next record is prefetched.
A record that fails the check, or whose bytes cannot be read whole (R305, R306), is not used. -/
def popRecord (stage mb layer : Nat) (dst : Loc) (damage : List Word) (err : Option UnitError) (s : State) : State :=
  match nextRecord s stage mb with
  | none => s
  | some r =>
    if unitsRun s && s.stp.running && Loc.fits (256 * r.grains.length) dst then
      let e := engineError 1 (Loc.sram dst).1 err s
      let x := takeGrains stage r.grains e.1
      let s1 := prefetchNext stage mb (onBobbin stage (BobStage.pop mb) x.1)
      match if e.2 then x.2 else none with
      | none => s1
      | some bytes =>
        let hdr := damaged (bytesWords 4 bytes) damage
        if headerOk s stage mb layer r.grains.length hdr then
          (notePopped stage mb layer (wbit (wordAt hdr 0) 31) s1).storeAt dst (bytes.drop 16)
        else faultNow (raise 0x1306 [stage, layer, mb] s1)
    else s

def execBobbinPop (stage microBatch layer : Nat) (dst : Loc) (damage : List Word) (err : Option UnitError) (s : State) : Out :=
  checked (damage.length == 4 && Loc.near dst && Loc.fits 0 dst) (popRecord stage microBatch layer dst damage err s)

/-- B may use a layer of a micro-batch (R188, R193): its record has been popped and, if it was reduced, the layer recomputed. -/
def stashReady (s : State) (l : Layer) (mb : Nat) : Bool :=
  match s.bobbin l.stage with
  | some b => b.popped.any fun p => p.layer == l.id && p.microBatch == mb && (!p.reduced || p.recomputed)
  | none => true

/-- A recomputation of a layer may run: its reduced record has been popped. -/
def popReduced (s : State) (l : Layer) (mb : Nat) : Bool :=
  match s.bobbin l.stage with
  | some b => b.popped.any fun p => p.layer == l.id && p.microBatch == mb && p.reduced
  | none => true

/-- The last drain of a recomputation has been made (R193). -/
def noteRecomputed (l : Layer) (mb : Nat) (s : State) : State :=
  onBobbin l.stage (fun b =>
    { b with popped := updWhere (fun p => p.layer == l.id && p.microBatch == mb) (fun p => { p with recomputed := true }) b.popped }) s

end Sys2Proof.Machine
end

