-- ==== Sys2Proof/Machine/Shards.lean ====
section
/-! DEFINITION. UPDATE_SHARD and INITIALISATION (R200, R270, R454): the work of Update and Params on what the skein gives it (R302, R306). -/

namespace Sys2Proof.Machine

/-- What an update engine reads of a shard: the state headers, then the master's values (R204, R249). -/
def shardReads (s : State) (p : Hank) : List (Nat × Nat) :=
  let n := shardCount s p
  match shardRegion s 9 p.tag, sidePlace s p (shardSel s p.tag) with
  | some e, some x => [(e.addr, 4), (x.hdr, 12), (x.w, 4 * n), (x.m, if isAdamw s then 8 * n else 4 * n)]
  | _, _ => []

/-- Read a shard in the class of the update engines: the state after it, and whether its values can be used. -/
def readShard (p : Hank) (s : State) : State × Bool :=
  let r := skeinTakes 3 (shardReads s p) s
  (r.1, r.2.isSome)

/-- The update engine may take a shard up (R200, R205, R487): this device owns it, its reduced slice is complete, and no skip notice is held. -/
def updateReady (s : State) (p : Hank) (x : Shard) : Bool :=
  unitsRun s && p.owner == rankOf s && p.kind != 2 && s.stp.running && !s.stp.skipHeld && !x.shadowReady && !x.abandoned && sliceReady s p

/-- A shard whose reduced slice is complete is updated into its shadow copy, from values that could be read (R200, R306). -/
def execUpdateShard (tag : BitVec 20) (err : Option UnitError) (s : State) : Out :=
  .next (match s.warp.image, findHank s tag.toNat, s.shard tag.toNat, s.hank tag.toNat with
    | some im, some p, some x, some h =>
      match layerOf s p.layer with
      | some l =>
        if updateReady s p x then
          let e := engineError 3 tableUnit err s
          let r := readShard p e.1
          if e.2 && r.2 then updateShard im.hanks l p h r.1 else r.1
        else s
      | none => s
    | _, _, _, _ => s)

/-- What protection finds as stream keys are read (R277, R303): event 0x1402 for a key table entry that fails parity. The draws are those of
the derived key (log entry 153). -/
def keyError (e : Option UnitError) (s : State) : State := (engineError 3 tableUnit e s).1

/-- The start of a job that has no checkpoint to restore. -/
def execInitialisation (err : Option UnitError) (s : State) : Out :=
  .next (if unitsRun s && s.warp.state == .loaded && s.nep.seed.isSome && !s.reel.initialised && !s.stp.running then
    sendLeaves (emitOwn (awaitParams (initJob (keyError err s))))
  else s)

end Sys2Proof.Machine
end

