-- ==== Sys2Proof/Machine/Sched.lean ====
section
/-! DEFINITION. The step controller and the bobbin (R180 to R194): the first F issue, frame reservations, pushes and pops, and aged tiles. -/

namespace Sys2Proof.Machine

-- The first F issue (R180).

/-- The first layer of each stage: no layer of the stage has a lower LAYER_ID. -/
def firstLayers (s : State) : List Nat :=
  match s.warp.image with
  | some im => (im.layers.filter fun l => im.layers.all fun k => k.stage != l.stage || decide (l.id ≤ k.id)).map (·.id)
  | none => []

/-- Carding of an update engine or a reel engine delays the next first F issue (R387). -/
def engineCarding (s : State) : Bool :=
  s.ply.carding.any fun u => match u with | .update _ | .reelEngine _ => true | _ => false

/-- R180, with the carding that R387 puts first. -/
def firstFReady (s : State) : Bool :=
  s.warp.state == .loaded && s.warp.dist && s.nep.seed.isSome && s.job.formed && s.stp.desc.isSome && !s.stp.running && s.reel.initialised &&
    ((firstLayers s).all (paramsResident s)) && !s.ply.quarantineHalt && !engineCarding s && arithmeticOn s

/-- The numeric state of the batch comes into force, and its counts start (R168, R171, R152). -/
def NumBlk.begin (n : NumBlk) : NumBlk :=
  let m : NumNext := match n.next with | some x => x | none => ⟨n.e, n.clean, n.layers⟩
  { n with e := m.e, clean := m.clean, layers := m.modes, next := none, degraded := m.modes.any fun l => l.mode == .storm,
           counts := m.modes.map fun _ => Counts.zeros }

/-- A core at the first F issue of an execution (R142, R266). What is raised once in a batch stays raised in its replay. -/
def CoreState.begin (replay : Bool) (k : CoreState) : CoreState :=
  { k with stepFlags := TileFlags.clear, raisedInvalid := replay && k.raisedInvalid, raisedInf := replay && k.raisedInf,
           raisedOvf := replay && k.raisedOvf, raisedUnderflow := replay && k.raisedUnderflow, lanes := [] }

/-- The step controller at the first F issue (R181, R197). -/
def StpBlk.begin (cycles ticks scaled : Nat) (em void : Bool) (b : StpBlk) : StpBlk :=
  { b with
    inStep := true, running := true, settled := b.nextSettled, settledReason := b.nextReason
    phases := { Phases.none with f := ⟨some 0, none⟩ }, firstFCycle := cycles, firstFTick := ticks, firstFScaled := scaled, losses := []
    actDone := false, dead := [], lostF := false, lostB := 0, attn := [], ring := [], ringSent := [], ringBack := []
    execRecords := b.execRecords.filter fun e => e.batch == b.batch
    begun := true
    updateOvfRaised := decide (0 < b.exec) && b.updateOvfRaised, aged := [], pEm := b.pEm || (b.pActive && em), pVoid := b.pVoid || (b.pActive && void) }

/-- A hank at the first F issue (R227, R228, R239): it starts at the agreed scale, or awaits it. -/
def HankRt.begin (e : Int) (sampled : Bool) (h : HankRt) : HankRt :=
  { h with sampled := sampled, hs := if h.agreed then hsAfter h.attempt (startHs h.rho e) else h.hs,
           st := if h.agreed then (if h.adders.isEmpty then .idle else .first) else .awaitScale }

/-- The first F issue of an execution. Of a skip notice that is held already, its hanks are abandoned at once (R205). -/
def firstF (s : State) : State :=
  let num := s.num.begin
  let s1 : State :=
    { s with
      num := num
      stp := s.stp.begin (arithCycles s) s.clk.refTimer s.clk.arithScaled s.trd.emDuringStep s.trd.voidDuringStep
      trd := { s.trd with emDuringStep := s.trd.em.any, voidDuringStep := s.trd.deadlineVoid }
      cores := s.cores.map fun c => (c.1, c.2.begin (decide (0 < s.stp.exec)))
      reel := { s.reel with
        hanks := s.reel.hanks.map fun h => h.begin num.e (twoPathSampled s h.tag s.stp.batch) } }
  let s2 := raiseIf s.stp.nextSettled 0x1301 [s.stp.nextReason] (s1.onPly fun y => { startCarding y.cardReplay y with cardReplay := [] })
  let s3 := if s.stp.skipHeld then holdSkip s2 else s2
  if s.stp.exec == 0 then s3 else raiseExec 0x2110 [s.ply.excluded.length] (countEvt 0x300028 s3)

def execFirstFIssue (s : State) : Out := .next (if firstFReady s then firstF s else s)

-- The scheduler's waits (R184, R186).

/-- A ready tile has waited 65,536 cycles: it goes before all others. -/
def execAgedTilePriority (cluster : ClusterIx) (layer tileRow tileCol microBatch : Nat) (phase : Phase) (s : State) : Out :=
  .next (if s.stp.running then
    s.onStp fun b => { b with aged := b.aged ++ [⟨cluster.val, layer, tileRow, tileCol, microBatch, phase⟩] }
  else s)

end Sys2Proof.Machine
end

