-- ==== Sys2Proof/Machine/Unpack.lean ====
section
/-! DEFINITION. The operand unpack (R79, R85 to R102, R107, R108, R111, R125, R131): staples and wide values as memory holds them, what is
resident of them (R183), and the positions and events that a unit reads. -/

namespace Sys2Proof.Machine

/-- The mode of a layer in the running batch (R158). -/
def layerMode (s : State) (layer : Nat) : NMode := modeIn s.num.layers layer

/-- The format code of an operand of a layer in the running batch. -/
def fmtIn (s : State) (l : Layer) (r : Role) : Nat := effFmt (layerMode s l.id) l r

-- Staples in memory (R100).

/-- Element codes in bytes: two K4 codes share a byte, the even position low. -/
def unpackCodes (f : NFmt) (bs : List Byte) : List Byte :=
  if f.bits == 4 then bs.flatMap fun b => [b &&& 0x0F, b >>> 4] else bs

/-- Where staple `j` of a row has its elements, its header and its side list. -/
def elemLoc (f : NFmt) (size : Nat) (t : NarrowAt) (row j : Nat) : Loc := Loc.on t.elem ((row * t.kLen + j * size) * f.bits / 8)
def hdrLoc (size : Nat) (t : NarrowAt) (row j : Nat) : Loc := Loc.on t.hdr ((row * (t.kLen / size) + j) * 2)
def slubLoc (size : Nat) (t : NarrowAt) (row j : Nat) : Loc := Loc.on t.slub ((row * (t.kLen / size) + j) * 6)

/-- Little-endian halfwords. -/
def halfAt (bs : List Byte) (i : Nat) : Half := BitVec.ofNat 16 (leNat (slice bs (2 * i) 2))

/-- A staple as memory holds it. -/
def stapleAt (s : State) (f : NFmt) (size : Nat) (t : NarrowAt) (row j : Nat) : Staple :=
  let slots := s.readAt (slubLoc size t row j) 6
  ⟨halfAt (s.readAt (hdrLoc size t row j) 2) 0, unpackCodes f (s.readAt (elemLoc f size t row j) (size * f.bits / 8)),
   [halfAt slots 0, halfAt slots 1, halfAt slots 2]⟩

/-- A staple is resident with its header and, where its header says that it has entries, its side list (R102, R183). -/
def stapleHere (s : State) (f : NFmt) (size : Nat) (t : NarrowAt) (row j : Nat) : Bool :=
  s.resident (elemLoc f size t row j) (size * f.bits / 8) && s.resident (hdrLoc size t row j) 2 &&
    (slubN (halfAt (s.readAt (hdrLoc size t row j) 2) 0) == 0 || s.resident (slubLoc size t row j) 6)

-- Rows.

/-- Some positions of one operand row: its logical number, the positions, and the events of the staples that hold them. -/
structure RowPart where
  row : Nat
  pos : List Pos
  events : List (Nat × Nat)
  deriving DecidableEq, Repr

/-- The staples that hold K positions `lo` up to `hi` of a row. -/
def staplesOf (size lo hi : Nat) : List Nat := (List.range (ceilDiv hi size)).drop (lo / size)

/-- Positions `lo` up to `hi` of a narrow row. -/
def narrowPart (s : State) (f : NFmt) (l : Layer) (r : Role) (t : NarrowAt) (row lo hi : Nat) : RowPart :=
  let size := stapleSize (roleStaple l r)
  let rs := (staplesOf size lo hi).map fun j => (j, readStaple f size (roleTwist l r) (stapleAt s f size t row j))
  ⟨row, ((rs.flatMap (·.2.pos)).drop (lo % size)).take (hi - lo), (rs.filter fun x => x.2.event != 0).map fun x => (x.1, x.2.event)⟩

/-- Place of value (row, k) of a wide operand; in transposed order the axes change places (R102, R125). -/
def wideLoc (half : Bool) (base : Loc) (stride row k : Nat) (transposed : Bool) : Loc :=
  Loc.on base ((if transposed then k * stride + row else row * stride + k) * if half then 2 else 4)

/-- Positions `lo` up to `hi` of a wide row. -/
def widePart (s : State) (half : Bool) (base : Loc) (stride row lo hi : Nat) (transposed : Bool) : RowPart :=
  ⟨row, (List.range (hi - lo)).map fun i => widePos (wideAt s half (wideLoc half base stride row (lo + i) transposed)), []⟩

/-- The rows of a source at K positions `lo` up to `hi`, in the format that the layer's operand has in the batch. -/
def srcRows (s : State) (l : Layer) (r : Role) (src : TileSrc) (lo hi : Nat) : List RowPart :=
  match src, NFmt.ofCode (fmtIn s l r) with
  | .narrow t row0 rows k0, some f => (List.range rows).map fun i => narrowPart s f l r t (row0 + i) (k0 + lo) (k0 + hi)
  | .wide half base stride row0 rows k0 tr, none =>
    (List.range rows).map fun i => widePart s half base stride (row0 + i) (k0 + lo) (k0 + hi) tr
  | _, _ => []

/-- What `srcRows` reads is resident (R183); a source whose form is not the operand's format never is. -/
def srcHere (s : State) (l : Layer) (r : Role) (src : TileSrc) (lo hi : Nat) : Bool :=
  match src, NFmt.ofCode (fmtIn s l r) with
  | .narrow t row0 rows k0, some f =>
    let size := stapleSize (roleStaple l r)
    (List.range rows).all fun i => (staplesOf size (k0 + lo) (k0 + hi)).all (stapleHere s f size t (row0 + i))
  | .wide half base stride row0 rows k0 tr, none =>
    let n := if half then 2 else 4
    if tr then (List.range (hi - lo)).all fun k => s.resident (wideLoc half base stride row0 (k0 + lo + k) true) (rows * n)
    else (List.range rows).all fun i => s.resident (wideLoc half base stride (row0 + i) (k0 + lo) false) ((hi - lo) * n)
  | _, _ => false

-- The two sides of a part.

def TileWork.lo (w : TileWork) : Nat := 32 * w.chunkLo
def TileWork.hi (w : TileWork) : Nat := min w.kExtent (32 * w.chunkHi)

/-- K positions of a part. -/
def TileWork.span (w : TileWork) : Nat := TileWork.hi w - TileWork.lo w

/-- Role and source of the first or second operand. -/
def TileWork.side (first : Bool) (w : TileWork) : Role × TileSrc := if first then (w.aRole, w.a) else (w.bRole, w.b)

/-- One side of a part as the unpack gives it: the positions of its chunk range, the events by row and staple, and the flags of the
rounding of a multipass operand (R131). A wide operand of a layer without PLY goes to the lane as it is (log entry 142). -/
structure Unpacked where
  pos : List (List Pos)
  events : List (Nat × Nat × Nat)
  flags : Flags
  deriving DecidableEq, Repr

def unpackSide (s : State) (l : Layer) (first : Bool) (w : TileWork) : Unpacked :=
  let x := TileWork.side first w
  let rs := srcRows s l x.1 x.2 0 (TileWork.span w)
  let evs := rs.flatMap fun r => r.events.map fun e => (r.row, e.1, e.2)
  if l.ply == 0 then ⟨rs.map (·.pos), evs, {}⟩
  else
    let us := rs.map fun r => r.pos.map unpackWide
    ⟨us.map fun u => u.map (·.1), evs, us.foldl (fun f u => u.foldl (fun g p => g.or p.2) f) {}⟩

/-- Both sides of a part are resident. -/
def operandsHere (s : State) (l : Layer) (w : TileWork) : Bool :=
  srcHere s l w.aRole w.a 0 (TileWork.span w) && srcHere s l w.bRole w.b 0 (TileWork.span w)

/-- Each row of one side over all parts of a tile, from K position 0 on. -/
def wholeRows (s : State) (l : Layer) (first : Bool) (parts : List TileWork) : List (List Pos) :=
  match parts.map fun w => (unpackSide s l first w).pos with
  | [] => []
  | x :: xs => xs.foldl (fun acc y => acc.zipWith (· ++ ·) y) x

/-- Raise the events of R108 for staples that a core has read. -/
def readEvents (core layer : Nat) (evs : List (Nat × Nat × Nat)) (s : State) : State :=
  evs.foldl (fun t e =>
    let t1 := raise (BitVec.ofNat 16 e.2.2) [core, layer, e.1, e.2.1] t
    if e.2.2 == 0x1013 then t1 else faultNow t1) s

/-- A staple of these could not be used: the tile is faulted (R108). -/
def readFault (evs : List (Nat × Nat × Nat)) : Bool := evs.any fun e => e.2.2 != 0x1013

/-- An operand row as a capture keeps it, with its staples (R385): row `i` of one side over all parts. -/
def rawRow (s : State) (l : Layer) (first : Bool) (parts : List TileWork) (i : Nat) : List ORow :=
  parts.flatMap fun w =>
    let x := TileWork.side first w
    match x.2, NFmt.ofCode (fmtIn s l x.1) with
    | .narrow t row0 _ k0, some f =>
      let size := stapleSize (roleStaple l x.1)
      [.narrow ((staplesOf size k0 (k0 + TileWork.span w)).map (stapleAt s f size t (row0 + i)))]
    | .wide half base stride row0 _ k0 tr, none =>
      [.wide ((List.range (TileWork.span w)).map fun k => wideAt s half (wideLoc half base stride (row0 + i) (k0 + k) tr))]
    | _, _ => []

end Sys2Proof.Machine
end

