-- ==== Sys2Proof/Machine/Write.lean ====
section
/-! DEFINITION. What a drain or a whorl operation writes: narrow destinations with their draws and counts (R100, R145, R149 to R153, R159,
R264 to R268), and the ply check of the unit that wrote (R376 to R380). -/

namespace Sys2Proof.Machine

-- Draws of a narrow write (R149, R150, R264 to R266, R268).

/-- One draw of a free-running lane: what it has left of its evaluation, where that was of the same stream, else a new evaluation. -/
def LaneRun.draw (s : State) (key : Word × Word) (id : Word) (core lane : Nat) (k : LaneRun) : Nat × LaneRun :=
  let k1 : LaneRun := if k.stream == id && k.taken < 8 then k else ⟨id, k.evals + 1, 0⟩
  ((philox key.1 key.2 (counterLane s.stp.batch core lane (k1.evals - 1))).half k1.taken, { k1 with taken := k1.taken + 1 })

/-- Draws of a free-running stream for `n` values in order: value `i` of the row goes to lane `i` mod 64 (log entry 16). -/
def freeDraws (id : Word) (core n : Nat) (s : State) : List Nat × State :=
  let key := streamKey (seedOf s) id
  let r := (List.range n).foldl (fun (acc : List Nat × List (Nat × LaneRun)) i =>
    let lane := i % 64
    let d := (assocGet LaneRun.reset lane acc.2).draw s key id core lane
    (acc.1 ++ [d.1], assocPut lane d.2 acc.2)) ([], (s.core core).lanes)
  (r.1, s.onCore core fun k => { k with lanes := r.2 })

/-- Draws for `n` values of a stream at given coordinates (SEQ, POS, FEAT). -/
def streamDraws (id : Word) (core n : Nat) (coord : Nat → Nat × Nat × Nat) (s : State) : Option (List Nat) × State :=
  match findStream s id with
  | none => (none, s)
  | some e =>
    if e.mode == 2 then
      let r := freeDraws id core n s
      (some r.1, r.2)
    else
      let key := streamKey (seedOf s) id
      (some ((List.range n).map fun i => let c := coord i; draw16 e.mode key s.stp.batch c.1 c.2.1 c.2.2), s)

/-- A stochastic-rounding stream that draws free-running: its written bits are not compared (R267, R380). -/
def isFree (s : State) (id : Word) : Bool := match findStream s id with | some e => e.mode == 2 | none => false

-- Narrow writes (R100, R145, R152, R153, R159).

/-- Who writes: the core, the producing layer, micro-batch, phase, the tensor code and the slot of its stream (R257), and the logical row (a
token of the micro-batch) and feature of the first value. -/
structure Writer where
  core : Nat
  layer : Layer
  microBatch : Nat
  phase : Phase
  tensor : Nat
  slot : Nat
  row : Nat
  feat : Nat
  deriving DecidableEq, Repr

/-- What writing leaves: the state, the values in the order written, each with its element of the unit (i × 128 + j), the flags, and
whether a draw was free-running. -/
structure Wrote where
  st : State
  made : List (Nat × Nat)
  flags : Flags
  free : Bool

def Writer.stream (w : Writer) (d : NarrowDest) : Word := streamId 0 (b2n d.tokenAxis) w.tensor w.layer.id w.slot

/-- Writes of low-rank operands and results round to nearest even (R243); the others as the layer's STOCHASTIC says. -/
def Writer.draws (w : Writer) : Bool := w.layer.stochastic && w.phase != .lowRank

/-- Logical coordinates (SEQ, POS, FEAT) of position `k` of row `i` (R262): of a token-axis copy the positions are tokens, of a
feature-axis copy the rows are (log entry 133). -/
def Writer.coord (s : State) (w : Writer) (tokenAxis : Bool) (i k : Nat) : Nat × Nat × Nat :=
  if tokenAxis then let t := tokenAt s w.microBatch (w.row + k); (t.1, t.2, w.feat + i)
  else let t := tokenAt s w.microBatch (w.row + i); (t.1, t.2, w.feat + k)

/-- The element of the unit that position `k` of written row `i` comes from: of a token-axis copy the positions are tokens. -/
def Writer.elem (w : Writer) (tokenAxis : Bool) (i k : Nat) : Nat :=
  if tokenAxis then (w.row + k) % 128 * 128 + (w.feat + i) % 128 else (w.row + i) % 128 * 128 + (w.feat + k) % 128

/-- The counts of a row: those of the written staples, or, in fallback, those of the layer's K4 formats (R159). -/
def countedRow (s : State) (c : Layer) (r : Role) (us : Option (List Nat)) (row : List Word) (rw : RowWrite) : Counts :=
  if layerMode s c.id == .fallback && effFmt .k4 c r == 0 then
    match operandWrite s .k4 c r with
    | some w => (writeRow w us row).counts
    | none => rw.counts
  else rw.counts

/-- Add counts to the consuming layer; recomputation and self-test writes are not counted (R152, R193). -/
def countFor (p : Phase) (layer : Nat) (c : Counts) (s : State) : State :=
  match p with
  | .bRecomp | .selfTest => s
  | _ => s.onNum fun n => { n with counts := addCounts layer c n.counts }

/-- The seven counts as the comparator takes them (R380): they belong to no element. -/
def countsMade (c : Counts) : List (Nat × Nat) := c.list.flatMap fun n => [(0, n % 2 ^ 32), (0, n / 2 ^ 32)]

/-- What a written row produced: its element codes, then its tex headers and side lists, each with the first element of its staple. -/
def rowMade (elem : Nat → Nat) (staples : List Staple) : List (Nat × Nat) :=
  let n := (staples.headD ⟨0, [], []⟩).elems.length
  (((staples.flatMap (·.elems)).zipIdx).map fun p => (elem p.2, p.1.toNat)) ++
    ((staples.zipIdx).map fun p => (elem (p.2 * n), p.1.header.toNat)) ++
    (staples.zipIdx).flatMap fun p => p.1.slots.map fun h => (elem (p.2 * n), h.toNat)

/-- The operand a write makes: low-rank products take theirs in the layer's WEIGHT format (R243). -/
def Writer.role (w : Writer) (d : NarrowDest) : Role := if w.phase == .lowRank then .weight else d.role

/-- Write row `i` of a narrow destination. -/
def writeNarrowRow (w : Writer) (d : NarrowDest) (c : Layer) (wf : WriteFmt) (x : Wrote × Counts) (p : List Word × Nat) : Wrote × Counts :=
  let dr := if w.draws then streamDraws (w.stream d) w.core p.1.length (w.coord x.1.st d.tokenAxis p.2) x.1.st else (none, x.1.st)
  let rw := writeRow wf dr.1 p.1
  let size := stapleSize wf.staple
  let row := d.row0 + p.2
  let j := d.k0 / size
  let es := rw.staples.flatMap (stapleElemBytes wf.fmt)
  let hs := rw.staples.flatMap stapleHdrBytes
  let ss := rw.staples.flatMap stapleSlubBytes
  let s1 := ((dr.2.storeAt (elemLoc wf.fmt size d.tensor row j) es).storeAt (hdrLoc size d.tensor row j) hs).storeAt
    (slubLoc size d.tensor row j) ss
  ({ x.1 with st := s1, made := x.1.made ++ rowMade (w.elem d.tokenAxis p.2) rw.staples, flags := x.1.flags.or { ovf := rw.ovf != 0 } },
   x.2.add (countedRow x.1.st c (w.role d) dr.1 p.1 rw))

/-- Write rows into a narrow destination; each row runs along the copy's reduction axis. -/
def writeNarrow (w : Writer) (d : NarrowDest) (rows : List (List Word)) (x : Wrote) : Wrote :=
  match layerOf x.st d.layer with
  | none => x
  | some c =>
    match operandWrite x.st (layerMode x.st c.id) c (w.role d) with
    | none => x
    | some wf =>
      let r := (rows.zipIdx).foldl (writeNarrowRow w d c wf) (x, Counts.zeros)
      { r.1 with st := countFor w.phase d.layer r.2 r.1.st, made := r.1.made ++ countsMade r.2
                 free := x.free || (w.draws && isFree x.st (w.stream d)) }

/-- Rows as a BF16 or binary32 array at a place with a row stride (R102, R105). -/
def writeWide (half : Bool) (base : Loc) (stride : Nat) (rows : List (List Word)) (x : Wrote) : Wrote :=
  let n := if half then 2 else 4
  (rows.zipIdx).foldl (fun y p =>
    let rs := if half then p.1.map toBf16 else p.1.map fun v => (⟨v, {}⟩ : FRes)
    let bs := rs.flatMap fun r => if half then leBytes 2 (r.bits.toNat / 65536) else leBytes 4 r.bits.toNat
    { y with st := y.st.storeAt (Loc.on base (p.2 * stride * n)) bs
             made := y.made ++ (rs.zipIdx).map fun r => (128 * p.2 + r.2, if half then r.1.bits.toNat / 65536 else r.1.bits.toNat)
             flags := rs.foldl (fun f r => f.or r.flags) y.flags }) x

-- The ply check (R376 to R380).

/-- A ply unit as the comparator holds it. -/
structure PlyUnit where
  layer : Nat
  phase : Phase
  microBatch : Nat
  keyBlock : Nat
  row : Nat
  col : Nat
  ranBy : List CoreIx
  acc : List Word
  status : Nat
  made : List (Nat × Nat)
  /-- Compare what the drain produced (R380 step 2). -/
  step2 : Bool
  /-- This comparison counts the unit. -/
  counts : Bool
  deriving DecidableEq, Repr

/-- The 16-byte identity (R377). -/
def PlyUnit.identity (u : PlyUnit) : List Byte :=
  leBytes 2 u.layer ++ leBytes 1 (phaseCode u.phase) ++ [0] ++ leBytes 2 u.microBatch ++ leBytes 2 u.keyBlock ++ leBytes 4 u.row ++
    leBytes 4 u.col

/-- The first of the values a drain produced in which two executions differ, with its element. -/
def firstMade : List (Nat × Nat) → List Nat → Option (Nat × Word × Word)
  | a :: as, b :: bs => if a.2 == b then firstMade as bs else some (a.1, w32 a.2, w32 b)
  | a :: _, [] => some (a.1, w32 a.2, 0)
  | [], b :: _ => some (0, 0, w32 b)
  | [], [] => none

/-- The first difference (R380): its element (i × 128 + j) and both words. -/
def PlyUnit.differs (u : PlyUnit) (e : ReExec) : Option (Nat × Word × Word) :=
  match firstWord 0 u.acc e.acc with
  | some d => some d
  | none =>
    if u.status != e.status then some (0, w32 u.status, w32 e.status)
    else if u.step2 then firstMade u.made e.made
    else none

/-- Recomputation, carding and self-test work is never sampled (R376). -/
def plySampled (s : State) (u : PlyUnit) : Bool :=
  let n := match s.warp.image with | some im => im.plyLog2 | none => 16
  u.phase != .bRecomp && u.phase != .selfTest && s.stp.running && sampledAt n (unitDigest s u.identity)

/-- The comparison of a sampled unit with its re-execution (R378, R380): the first difference of a unit is its mismatch, so the later rows
of a whorl tile add none. `rows` gives the operand rows behind an element. -/
def plyCheck (u : PlyUnit) (rows : Nat → List ORow × List ORow) (re : Option ReExec) (s : State) : State :=
  if plySampled s u then
    let stage := match layerOf s u.layer with | some l => l.stage | none => 0
    match chooseChecker s stage (leNat (slice (unitDigest s u.identity) 2 2)) u.ranBy with
    | none => faultNow (raiseExec 0x2103 [u.layer, phaseCode u.phase, u.microBatch, u.keyBlock, u.row, u.col] s)
    | some c =>
      let s1 := if u.counts then countEvt 0x300010 s else s
      match re with
      | none => s1
      | some e =>
        match if s.ply.differed.contains u.identity then none else u.differs e with
        | none => s1
        | some (i, x, y) =>
          let o := u.ranBy.headD 0
          plyMismatch ⟨u.phase, false, u.layer, coreCode o.val, coreCode c.val, u.row, u.col, u.microBatch, i % 65536, x, y⟩
            ⟨u.identity, i, x, y, (rows i).1, (rows i).2, 0, []⟩ o c (s1.onPly fun z => { z with differed := u.identity :: z.differed })
  else s

end Sys2Proof.Machine
end

