-- ==== Sys2Proof/Machine/Tiles.lean ====
section
/-! DEFINITION. Engine tiles (R23, R109 to R137, R145 to R153, R177, R182 to R185, R188, R376 to R380): what makes a part of a tile ready,
where it runs, its issue, the slub pass and the drain. -/

namespace Sys2Proof.Machine

-- Running elements.

/-- What an operation leaves in a tile: its elements, row by row. -/
structure TileRun where
  words : List Word
  flags : Flags
  poison : Bool
  settings : List InvalidAt
  deriving DecidableEq, Repr

/-- The place of a setting in element (i, j) of a tile (R129). -/
def invalidAt (a : AccRef) (w : TileWork) (i j cause : Nat) (chunk : Option Nat) : InvalidAt :=
  { cause := cause, eng := a.eng, layer := w.layer, phase := w.phase, tileRow := w.tileRow, elemRow := i, tileCol := w.tileCol,
    elemCol := j, chunk := chunk }

/-- Do an operation in every element of a tile; a row or column that the operand does not have is empty. -/
def runTile (at' : AccRef) (w : TileWork) (f : List Pos → List Pos → ElemAcc → ElemAcc) (start : List Word) (a b : List (List Pos)) :
    TileRun :=
  let es := (List.range 16384).map fun n => (n, f (a.getD (n / 128) []) (b.getD (n % 128) []) (ElemAcc.start (start.getD n 0)))
  { words := es.map (·.2.bits)
    flags := es.foldl (fun x e => x.or e.2.flags) {}
    poison := es.any (·.2.poison)
    settings := es.flatMap fun e => e.2.settings.map fun x => invalidAt at' w (e.1 / 128) (e.1 % 128) x.1 x.2 }

/-- Put a run into a tile, with its flags and reports. -/
def putRun (a : AccRef) (r : TileRun) (s : State) : State :=
  let s1 : State := { s with acc := s.acc.writeWords (accBase a) r.words }
  coreReports a.core.val r.flags r.settings (s1.onTile a fun t => { t with flags := t.flags.merge r.flags r.poison })

/-- FAULT in a tile's status word (R141). -/
def faultTile (on : Bool) (a : AccRef) (s : State) : State :=
  if on then s.onTile a fun t => { t with flags := { t.flags with fault := true } } else s

/-- The data an operation needed did not come: a storage word is uncorrectable, or a transfer failed (R305, R306). -/
def dataLost : Option UnitError → Bool
  | some (.spool _) | some (.creel _) | some (.table _) | some (.parity _ _) | some (.skein _ .uncorrectable) => true
  | _ => false

-- Where work runs (R183, R184, R394).

/-- The stage of a layer. -/
def stageOf (s : State) (layer : Nat) : Nat := match layerOf s layer with | some l => l.stage | none => 0

/-- Cores of a cluster that may run a stage's work: the usable cores of the stage in PLACE order; where it has none left, any usable core of
the cluster. -/
def stageCores (s : State) (cl : ClusterIx) (stage : Nat) : List CoreIx :=
  match (usablePlaced s (some stage)).filter fun c => c.val / 12 == cl.val with
  | [] => (clusterCores cl).filter (usable s)
  | cs => cs

/-- The accumulator tiles of a core in the order of its engines. -/
def coreTiles (c : CoreIx) : List AccRef := [⟨c, false, false⟩, ⟨c, false, true⟩, ⟨c, true, false⟩, ⟨c, true, true⟩]

/-- The tile that takes a part: the one whose work it continues, where that core may go on, else the first idle one (R183, R184). -/
def placeWork (s : State) (cl : ClusterIx) (t : TileWork) : Option AccRef :=
  let cs := stageCores s cl (stageOf s t.layer)
  let idle := (cs.flatMap coreTiles).find? fun a => (s.tile a).st == .idle
  match t.start with
  | .handOver src => if cs.contains src.core then some src else idle
  | _ => idle

-- What makes work ready (R177, R182, R183, R185, R190, R193, R205, R487).

/-- A work as a template has it (R183): without what only its run decides. -/
def Work.template : Work → Work
  | .tile t => .tile { t with start := .zero, park := none }
  | .drain d => .drain { d with acc := ⟨0, false, false⟩, reExec := none, err := none }
  | .whorl w => .whorl { w with reExec := none, err := none }

/-- The scheduler of a cluster holds the work's descriptor template (R183). -/
def held (s : State) (cl : Nat) (w : Work) : Bool := s.warp.dist && s.warp.templates.contains (cl, Work.template w)

/-- Work of a phase, layer and micro-batch may run. A device that stops at its last commit issues none (R397). -/
def phaseReady (s : State) (l : Layer) (p : Phase) (mb : Nat) : Bool :=
  let on := s.stp.running && !s.ply.quarantineHalt
  match p with
  | .fwd => on && decide (mb < mbCount s) && paramsResident s l.id && reserved s l.stage mb && !s.stp.lostF
  | .bRecomp => on && popReduced s l mb && decide (s.stp.lostB ≤ l.id)
  | .bAct => on && decide (mb < mbCount s) && stashReady s l mb && decide (s.stp.lostB ≤ l.id)
  | .bWgt | .lowRank => on && decide (mb < mbCount s) && stashReady s l mb && decide (s.stp.lostB ≤ l.id) && !s.stp.skipHeld
  | .selfTest => true

/-- A tile of this phase sums over micro-batches (R177). -/
def sumsBatches (p : Phase) : Bool := p == .bWgt || p == .lowRank

/-- Two parts belong to one output tile: a weight-gradient or low-rank tile takes parts of every micro-batch, one after another (R177,
R185). -/
def sameTile (x y : TileWork) : Bool :=
  x.layer == y.layer && x.phase == y.phase && x.tileRow == y.tileRow && x.tileCol == y.tileCol && x.aRole == y.aRole && x.bRole == y.bRole &&
    x.kExtent == y.kExtent && (x.microBatch == y.microBatch || (sumsBatches x.phase && y.microBatch == x.microBatch + 1))

/-- The next key block is the one after a block in the order of a query row (R213). -/
def blockAfter (r : RowKeys) (x y : Nat) : Bool :=
  match r.order.findIdx? (· == x) with
  | some i => r.order[i + 1]? == some y
  | none => false

/-- The key blocks of a tile's parts: one, or in B those of its query rows in their order, each whole before the next (R185, R212). The last
row of the tile meets the most blocks. -/
def blocksInOrder (s : State) (x y : TileWork) : Bool :=
  x.keyBlock == y.keyBlock ||
    (x.phase == .bAct && x.chunkHi % 32 == 0 && match rowKeys s x.microBatch (128 * x.tileRow + TileSrc.rows x.a - 1) with
      | some r => blockAfter r x.keyBlock y.keyBlock
      | none => false)

/-- A part goes on where the last of `parts` ended (R116, R120, R185, R212). -/
def continues (s : State) (parts : List TileWork) (t : TileWork) : Bool :=
  match parts.getLast? with
  | some w => sameTile w t && w.chunkHi == t.chunkLo && blocksInOrder s w t
  | none => false

/-- The key block of an attention tile lies in the shard of the layer's ring step (R211 to R213). -/
def keyTurn (s : State) (l : Layer) (t : TileWork) : Bool :=
  (l.kind != 1 && l.kind != 2) || (mbSeqs s t.microBatch).any fun e => t.keyBlock / max 1 (shardBlocks s e) == shardNow s l.id

/-- Contribution group of a micro-batch (R222). -/
def groupOf (s : State) (mb : Nat) : Nat :=
  match s.warp.image with
  | some im => if isExact s then mb * mbSize s / max 1 im.hanks.exactGroupSeqs else 0
  | none => 0

/-- The micro-batch is the first of its contribution group: a gradient tile begins there (R185, R222). -/
def groupStart (s : State) (mb : Nat) : Bool := mb == 0 || groupOf s (mb - 1) != groupOf s mb

/-- What a hand-over slot holds. -/
def State.slotAt (s : State) (r : SlotRef) : Option SlotRt := s.res.slots.find? fun x => x.ref == r

/-- The part starts as its output tile stands: at chunk 0 from +0, or where the part before it ended. -/
def startsRight (s : State) (t : TileWork) : Bool :=
  match t.start with
  | .zero => t.chunkLo == 0 && (!sumsBatches t.phase || groupStart s t.microBatch)
  | .handOver src => (s.tile src).st == .accumulating && continues s (s.tile src).parts t
  | .slot r => match s.slotAt r with | some x => continues s x.parts t | none => false

/-- The slot that takes the tile after this part is free, or the part frees it. -/
def parkFree (s : State) (t : TileWork) : Bool :=
  match t.park with
  | some p => (s.slotAt p).isNone || t.start == .slot p
  | none => true

/-- A part of a tile is ready in a cluster (R183): its operands are resident with their headers and side lists, a tile can take it, and the
ordering rules allow it. -/
def tileReady (s : State) (cl : ClusterIx) (t : TileWork) : Bool :=
  match layerOf s t.layer with
  | some l =>
    held s cl.val (.tile t) && phaseReady s l t.phase t.microBatch && startsRight s t && keyTurn s l t && parkFree s t &&
      operandsHere s l t && (placeWork s cl t).isSome && !s.stp.dead.contains cl.val
  | none => false

/-- B begins (R181). -/
def beginB (p : Phase) (s : State) : State :=
  match p with
  | .fwd | .selfTest => s
  | _ =>
    if s.stp.phases.b.start.isNone then s.onStp fun b => { b with phases := { b.phases with b := ⟨some (sinceFirstF s), none⟩ } } else s

-- TILE_ISSUE.

/-- Creel offset of a hand-over slot (R291, log entry 150). -/
def slotOff (r : SlotRef) : Nat := 60 * 262144 + 65536 * r.slot.val

/-- Load the start of a tile (R120): a hand-over empties the tile or slot it comes from. -/
def loadStart (a : AccRef) (t : TileWork) (s : State) : State :=
  match t.start with
  | .zero =>
    let s1 : State := { s with acc := s.acc.writeWords (accBase a) (List.replicate 16384 0) }
    s1.onTile a fun _ => ⟨.accumulating, TileFlags.clear, [t], [a.core]⟩
  | .handOver src =>
    let x := s.tile src
    let s1 : State := { s with acc := s.acc.writeWords (accBase a) (accWords s src) }
    (s1.onTile src AccTile.drop).onTile a fun _ => ⟨.accumulating, x.flags, x.parts ++ [t], x.ranBy ++ [a.core]⟩
  | .slot r =>
    match s.slotAt r with
    | some x =>
      let ws := s.creel.readWords (creelAddr r.cluster (slotOff r)) 16384
      let s1 : State := { s with acc := s.acc.writeWords (accBase a) ws }
      (s1.onRes fun b => { b with slots := b.slots.filter fun y => y.ref != r }).onTile a fun _ =>
        ⟨.accumulating, x.flags, x.parts ++ [t], x.ranBy ++ [a.core]⟩
    | none => s

/-- A part-way tile leaves its engine for a hand-over slot, with its status word (R120, R177). -/
def parkTile (p : Option SlotRef) (a : AccRef) (s : State) : State :=
  match p with
  | none => s
  | some r =>
    let x := s.tile a
    let s1 : State := { s with creel := s.creel.writeWords (creelAddr r.cluster (slotOff r)) (accWords s a) }
    (s1.onRes fun b => { b with slots := ⟨r, x.flags, x.parts, x.ranBy⟩ :: b.slots.filter fun y => y.ref != r }).onTile a AccTile.drop

/-- The work leaves the aged list (R184). -/
def noteIssued (t : TileWork) (s : State) : State :=
  let same (x : AgedTile) : Bool :=
    x.layer == t.layer && x.tileRow == t.tileRow && x.tileCol == t.tileCol && x.microBatch == t.microBatch && x.phase == t.phase
  s.onStp fun x => { x with aged := x.aged.filter fun y => !same y }

/-- Run the chunks of a part in ascending order (R116), with the events of what it read (R108). -/
def runPart (a : AccRef) (t : TileWork) (l : Layer) (s : State) : State :=
  let x := unpackSide s l true t
  let y := unpackSide s l false t
  let shift (c : Nat) : Nat := c - t.chunkLo
  let r := runTile a t (elemChunks l.ply (TileWork.hi t - TileWork.lo t) (shift t.chunkLo) (shift t.chunkHi)) (accWords s a) x.pos y.pos
  let named : List InvalidAt := r.settings.map fun i => { i with chunk := i.chunk.map (· + t.chunkLo) }
  let s1 := putRun a { r with flags := (r.flags.or x.flags).or y.flags, settings := named } s
  readEvents a.core.val t.layer y.events <| readEvents a.core.val t.layer x.events <|
    faultTile (readFault x.events || readFault y.events) a s1

/-- Issue one part of a tile. -/
def issueTile (a : AccRef) (t : TileWork) (err : Option UnitError) (s : State) : State :=
  match layerOf s t.layer with
  | none => s
  | some l =>
    let s1 := loadStart a t (noteIssued t (beginB t.phase s))
    let s2 := if dataLost err then faultTile true a s1 else runPart a t l s1
    parkTile t.park a (unitErrors a err s2)

-- SLUB_PASS.

/-- Every part of a tile is resident: the slub pass reads the operands of the whole tile again (log entry 149). -/
def partsHere (s : State) (l : Layer) (parts : List TileWork) : Bool := parts.all (operandsHere s l)

/-- The events of what a slub pass reads, with the layer of its tile (R108). -/
def partEvents (s : State) (l : Layer) (parts : List TileWork) : List (Nat × Nat × Nat) :=
  parts.flatMap fun p => (unpackSide s l true p).events ++ (unpackSide s l false p).events

/-- The slub unit's reading and arithmetic (R88, R108, R121). -/
def slubRun (a : AccRef) (w : TileWork) (l : Layer) (parts : List TileWork) (s : State) : State :=
  let evs := partEvents s l parts
  readEvents a.core.val w.layer evs <| faultTile (readFault evs) a <|
    putRun a (runTile a w (elemSlub w.kExtent) (accWords s a) (wholeRows s l true parts) (wholeRows s l false parts)) s

/-- The slub pass of a finished tile (R121), on a core in service (R49). -/
def slubPass (a : AccRef) (err : Option UnitError) (s : State) : State :=
  match (s.tile a).st, (s.tile a).work with
  | .accumulating, some w =>
    match layerOf s w.layer with
    | some l =>
      let parts := (s.tile a).parts
      if workComplete w && !quarantined s a.core.val && partsHere s l parts then
        let s1 := s.onTile a fun t => { t with st := .slub }
        unitErrors a err <| if dataLost err then faultTile true a s1 else slubRun a w l parts s1
      else s
    | none => s
  | _, _ => s

def execSlubPass (acc : AccRef) (err : Option UnitError) (s : State) : Out :=
  .next (if tilesGoOn s then noteEnds (slubPass acc err s) else s)

-- TILE_DRAIN.

/-- Weight-gradient tiles drain with steps 1 to 3 as identity (R135, R195); low-rank products too (log entry 59). -/
def plainDrain (p : Phase) : Bool := p == .bWgt || p == .lowRank

/-- The column scale and the bias of a layer, as a drain of the phase uses them. -/
def usesScale (w : TileWork) (l : Layer) : Bool := l.colScale && !plainDrain w.phase
def usesBias (w : TileWork) (l : Layer) : Bool := l.bias && !plainDrain w.phase

/-- A vector that the epilogue needs is resident in the core's spool for every column of the tile (R137). -/
def vectorHere (s : State) (a : AccRef) (needs : Bool) (v : Option Loc) (n : Nat) : Bool :=
  !needs || match v with
    | some (.spool c o) => c == a.core && s.resident (.spool c o) (4 * n)
    | _ => false

/-- Value `j` of such a vector. -/
def vectorAt (s : State) (needs : Bool) (v : Option Loc) (j : Nat) : Option Word :=
  if needs then match v with | some b => some (w32 (leNat (s.readAt (Loc.on b (4 * j)) 4))) | none => none else none

/-- A hank's scale is agreed, so that a drain into it need not wait (R222, R228); one that takes nothing more drops the tile. -/
def hanksAgreed (s : State) (d : DrainSpec) : Bool :=
  d.dests.all fun x => match x with
    | .wire tag _ _ => match s.hank tag with | some h => h.agreed || hankShut s tag | none => true
    | _ => true

/-- A gradient tile drains as the tile of its hank that it is: by its place in the layer's gradient, or in the factor (R195, R217, R222,
R243). -/
def wireRight (s : State) (w : TileWork) (tag tile group : Nat) : Bool :=
  match findHank s tag, layerOf s w.layer with
  | some p, some l =>
    let cols := if p.kind == 0 then l.nExtent else p.rank
    p.layer == w.layer && (p.kind != 0) == (w.phase == .lowRank) && sumsBatches w.phase && group == groupOf s w.microBatch &&
      tile == w.tileRow * gridCols cols + w.tileCol && decide (p.firstTile ≤ tile ∧ tile < p.firstTile + p.tileCount)
  | _, _ => false

/-- Every gradient destination of a drain is the tile's own. -/
def wiresRight (s : State) (w : TileWork) (d : DrainSpec) : Bool :=
  d.dests.all fun x => match x with | .wire tag tile group => wireRight s w tag tile group | _ => true

/-- A record can be pushed with this work, if it pushes one. -/
def pushable (s : State) (l : Layer) (mb : Nat) (p : Option PushSpec) : Bool :=
  match p with
  | some x => pushReady s l mb x
  | none => true

/-- The ring takes the block that this work sends, and the step that it ends (R213). -/
def ringReady (s : State) (layer mb : Nat) (p : Phase) (r : Option RingSend) (m : Option RingMove) : Bool :=
  (match r with | some x => sendReady s layer mb p x | none => true) && match m with | some x => ringComplete s layer mb p x | none => true

/-- The drain of a finished tile may start (R137, R183, R190, R228). -/
def drainReady (s : State) (d : DrainSpec) : Bool :=
  let t := s.tile d.acc
  match t.work with
  | none => false
  | some w =>
    match layerOf s w.layer with
    | none => false
    | some l =>
      held s (d.acc.core.val / 12) (.drain d) && !quarantined s d.acc.core.val && wiresRight s w d && workComplete w &&
        (t.st == .slub || (t.st == .accumulating && partsHere s l t.parts)) &&
        vectorHere s d.acc (usesScale w l) d.sigma (TileSrc.rows w.b) && vectorHere s d.acc (usesBias w l) d.beta (TileSrc.rows w.b) &&
        hanksAgreed s d && pushable s l w.microBatch d.push && ringReady s l.id w.microBatch w.phase d.ring d.ringMove

/-- Steps 1 to 3 of the epilogue in column `j` (R135). -/
def epilogueAt (s : State) (d : DrainSpec) (w : TileWork) (l : Layer) (j : Nat) (acc : Word) : EpiRes :=
  epilogue (vectorAt s (usesScale w l) d.sigma j) (vectorAt s (usesBias w l) d.beta j) (if plainDrain w.phase then 0 else l.activation) acc

/-- A tile as wire values at its hank's scale (R104), each with its element. -/
def wireMade (s : State) (tag : Nat) (words : List Word) : List (Nat × Nat) :=
  let hs := match s.hank tag with | some h => h.hs | none => 0
  (words.zipIdx).map fun w => (w.2, wireCode (isExact s) (convertValue s hs w.1).1)

/-- The tensor code of what a tile or row writes (R257): output or activation gradient. -/
def tensorCode (p : Phase) : Nat := match p with | .bAct => 1 | _ => 0

/-- One destination of a drain (R135 step 4). `rows` are the results, `pre` the outputs of epilogue step 2. -/
def drainDest (d : DrainSpec) (w : TileWork) (l : Layer) (rows pre : List (List Word)) (x : Wrote) (dest : Dest) : Wrote :=
  match dest with
  | .narrow nd =>
    writeNarrow ⟨d.acc.core.val, l, w.microBatch, w.phase, tensorCode w.phase, 0, 128 * w.tileRow, 128 * w.tileCol⟩ nd
      (if nd.tokenAxis then transposed (TileSrc.rows w.b) rows else rows) x
  | .wide half base stride => writeWide half base stride rows x
  | .preAct base stride => writeWide true base stride pre x
  | .wire tag tile group =>
    let vals := accWords x.st d.acc
    { x with st := contribute tag tile group vals x.st, made := x.made ++ wireMade x.st tag vals }

/-- Settings of INVALID that the epilogue makes (R135). -/
def epilogueSettings (a : AccRef) (w : TileWork) (es : List (Nat × Nat × EpiRes)) : List InvalidAt :=
  es.flatMap fun e => List.replicate e.2.2.settings (invalidAt a w e.1 e.2.1 causeEpilogue none)

/-- A tile that drains to a hank sums over micro-batches (R377). -/
def drainsToWire (d : DrainSpec) : Bool := d.dests.any fun x => match x with | .wire _ _ _ => true | _ => false

/-- Counters of a layer's drained tiles with OVF and with UNDERFLOW (R155). -/
def kLayerOvf (layer : Nat) : Nat := 2 ^ 61 + 2 ^ 28 * layer
def kLayerUnderflow (layer : Nat) : Nat := 2 ^ 62 + 2 ^ 28 * layer
def layerTiles (layer : Nat) (t : TileFlags) (s : State) : State :=
  let s1 := if t.ovf then countEvt (kLayerOvf layer) s else s
  if t.underflow then countEvt (kLayerUnderflow layer) s1 else s1

/-- The last work of a phase on the device has been done (R181); of a recomputation, of its layer and micro-batch (R193). -/
def noteLast (last : Bool) (p : Phase) (l : Layer) (mb : Nat) (s : State) : State :=
  if last then
    match p with
    | .fwd => endF s
    | .bAct | .bWgt => s.onStp fun b => { b with actDone := true }
    | .bRecomp => noteRecomputed l mb s
    | .lowRank | .selfTest => s
  else s

/-- What follows work once its results are written: its record, its ring block, the ring's next step, the ends of phases. -/
def afterWork (l : Layer) (p : Phase) (mb : Nat) (push : Option PushSpec) (ring : Option RingSend) (m : Option RingMove) (last : Bool)
    (before s : State) : State :=
  let s1 := match push with | some x => pushRecord l mb x s | none => s
  let s2 := match ring with | some r => ringSend r s1 | none => s1
  noteEnds (sendNewFactors before (noteLast last p l mb (moveRing l.id p m s2)))

/-- Drain a tile whose slub pass is done. A transfer that is lost writes nothing. -/
def drainTile (d : DrainSpec) (w : TileWork) (l : Layer) (s : State) : State :=
  let words := accWords s d.acc
  let rowsN := List.range (TileSrc.rows w.a)
  let cols := List.range (TileSrc.rows w.b)
  let es := rowsN.flatMap fun i => cols.map fun j => (i, j, epilogueAt s d w l j (words.getD (128 * i + j) 0))
  let rows := rowsN.map fun i => (es.filter fun e => e.1 == i).map (·.2.2.bits)
  let pre := rowsN.map fun i => cols.map fun j =>
    (preActivation (vectorAt s (usesScale w l) d.sigma j) (vectorAt s (usesBias w l) d.beta j) (words.getD (128 * i + j) 0)).bits
  let fl := es.foldl (fun (f : Flags) e => f.or e.2.2.flags) {}
  let s1 := coreReports d.acc.core.val fl (epilogueSettings d.acc w es) (unitErrors d.acc d.err s)
  let o : Wrote := if dataLost d.err then ⟨faultTile true d.acc s1, [], {}, false⟩
    else d.dests.foldl (drainDest d w l rows pre) ⟨s1, [], {}, false⟩
  let s2 := o.st.onTile d.acc fun t => { t with flags := t.flags.merge (fl.or o.flags) false }
  let t := s2.tile d.acc
  let s3 := plyCheck
    { layer := w.layer, phase := w.phase, microBatch := if drainsToWire d then 0xFFFF else w.microBatch, keyBlock := w.keyBlock, row := w.tileRow,
      col := w.tileCol, ranBy := t.ranBy, acc := words, status := t.flags.bits % 128, made := o.made, step2 := !o.free, counts := true }
    (fun i => (rawRow s l true t.parts (i / 128), rawRow s l false t.parts (i % 128))) d.reExec s2
  let s4 := layerTiles w.layer t.flags ((drainFlags d.acc t.flags s3).onTile d.acc AccTile.drop)
  afterWork l w.phase w.microBatch d.push d.ring d.ringMove d.last s s4

/-- TILE_DRAIN (R135): a drain that is not ready does not start. -/
def tileDrain (d : DrainSpec) (s : State) : State :=
  if tilesGoOn s && drainReady s d then
    let s1 := slubPass d.acc none s
    match (s1.tile d.acc).st, (s1.tile d.acc).work with
    | .slub, some w =>
      match layerOf s1 w.layer with
      | some l => drainTile d w l s1
      | none => s
    | _, _ => s
  else s

def execTileDrain (d : DrainSpec) (s : State) : Out := .next (tileDrain d s)

end Sys2Proof.Machine
end

