-- ==== Sys2Proof/Machine/Whorl.lean ====
section
/-! DEFINITION. Whorl operations (R138 to R140, R164, R165, R198, R199, R211 to R213, R269): their operands in spool and creel, attention
block by block, and what an operation leaves. -/

namespace Sys2Proof.Machine

-- Attention (R209, R211 to R213).

/-- The causal mask of a key block as a test on logical positions (R211). -/
def keyMask (r : RowKeys) (block : Nat) : List Bool :=
  (List.range (min 1024 (r.seq.length - 1024 * block))).map fun k => decide (1024 * block + k ≤ r.pos)

/-- The running state of the row and head that a work names. -/
def AttnRow.is (w : WhorlWork) (x : AttnRow) : Bool :=
  x.layer == w.layer && x.phase == w.phase && x.microBatch == w.microBatch && x.head == w.head && x.row == w.row
def attnAt (s : State) (w : WhorlWork) : AttnRow :=
  match s.stp.attn.find? (AttnRow.is w) with
  | some x => x
  | none => ⟨w.layer, w.phase, w.microBatch, w.head, w.row, 0, none, false⟩
def putAttn (w : WhorlWork) (x : Option AttnRow) (s : State) : State :=
  s.onStp fun b => { b with attn := x.toList ++ b.attn.filter fun y => !(AttnRow.is w y) }

/-- The block is the row's next, and its shard is that of the ring step (R211 to R213). -/
def blockTurn (s : State) (w : WhorlWork) (r : RowKeys) : Bool :=
  let x := attnAt s w
  r.order[x.met]? == some w.keyBlock && !x.owesValue && w.keyBlock / max 1 (shardBlocks s r.seq) == shardNow s w.layer

-- What an operation gives.

/-- The words for the spool, the values that go through the twist unit, the flags, and what reading a narrow operand showed. -/
structure WhorlOut where
  spool : List Word
  twist : List Word
  flags : Flags
  events : List (Nat × Nat × Nat)
  deriving DecidableEq, Repr

def VRes.out (r : VRes) : WhorlOut := ⟨r.vals, r.vals, r.flags, []⟩
def FRes.out (r : FRes) : WhorlOut := ⟨[r.bits], [r.bits], r.flags, []⟩

/-- Unpack `n` positions of a narrow row and unrotate them (R99, R107). -/
def unpackRow (s : State) (l : Layer) (r : Role) (t : NarrowAt) (row k0 n : Nat) : WhorlOut :=
  match NFmt.ofCode (fmtIn s l r) with
  | none => ⟨[], [], {}, []⟩
  | some f =>
    let x := narrowPart s f l r t row k0 (k0 + n)
    let v := VRes.of (x.pos.map Pos.to32)
    let blocks := (pieces (twistSize (roleTwist l r)) v.vals).map (rotate (roleTwist l r))
    let vals := blocks.flatMap (·.1)
    let fl := vals.foldl (fun (f : Flags) y => f.or (readFlags y)) v.flags
    ⟨vals, vals, { fl with ovf := fl.ovf || blocks.any fun b => b.2 != 0 }, x.events.map fun e => (row, e.1, e.2)⟩

/-- Dropout (R269) of values from feature `feat` on, of one token: a layer without the stream keeps its values. -/
def dropoutVals (s : State) (l : Layer) (tensor slot : Nat) (token : Nat × Nat) (feat : Nat) (a : List Word) : VRes :=
  let id := streamId 1 2 tensor l.id slot
  match findStream s id with
  | none => ⟨a, {}⟩
  | some e =>
    let key := streamKey (seedOf s) id
    VRes.of ((a.zipIdx).map fun p =>
      if draw16 e.mode key s.stp.batch token.1 token.2 (feat + p.2) < e.dropRate then ⟨0, {}⟩ else fmul p.1 (dropKappa e.dropRate))

/-- Dropout of the values of a work: of a layer's output, or of the probabilities of its head, where FEAT is the key position. -/
def dropWork (s : State) (l : Layer) (w : WhorlWork) (probs : Bool) (feat : Nat) (a : List Word) : VRes :=
  dropoutVals s l (if probs then 4 else 0) (if probs then w.head else 0) (tokenAt s w.microBatch w.row) feat a

/-- Probabilities as they stand: whole into the spool, with dropout through the twist unit (R269). -/
def probsOut (s : State) (l : Layer) (w : WhorlWork) (p : List Word) (f : Flags) : WhorlOut :=
  let d := dropWork s l w true (1024 * w.keyBlock) p
  ⟨p, d.vals, f.or d.flags, []⟩

/-- The score scale of R57. -/
def scaleOf (l : Layer) : Word := scoreScale l.scaleShift l.headDim

/-- m and ℓ as stashed (R212); of a row with an empty state both are +0. -/
def stashed (s : State) (ml : Loc) : Word × Word := (wideAt s false ml, wideAt s false (Loc.on ml 4))

/-- Losses of the tokens of a micro-batch: a token without a target contributes none (R198, R362). -/
def lossVals (s : State) (mb : Nat) (a : List Word) : List Word := (a.zipIdx).map fun p => if targetCounts s mb p.2 then p.1 else 0

/-- The result of an operation on the state before it. -/
def whorlEval (s : State) (l : Layer) (w : WhorlWork) : WhorlOut :=
  let v (x : Vec) : List Word := s.readVec x
  match w.op with
  | .add a b => (map2 fadd (v a) (v b)).out
  | .sub a b => (map2 fsub (v a) (v b)).out
  | .mul a b => (map2 fmul (v a) (v b)).out
  | .fma a b c => (map3 ffma (v a) (v b) (v c)).out
  | .div a b => (map2 fdiv (v a) (v b)).out
  | .sqrt a => (map1 fsqrt (v a)).out
  | .rsqrt a => (map1 frsqrt (v a)).out
  | .max a b => (map2 fmax (v a) (v b)).out
  | .min a b => (map2 fmin (v a) (v b)).out
  | .exp2 a => (map1 exp2 (v a)).out
  | .sigmoid a => (map1 sigmoid (v a)).out
  | .activation code a => (map1 (activation code) (v a)).out
  | .reduce a none => (reduce (v a)).out
  | .reduce a (some r) => (reduceFrom (wideAt s false r) (v a)).out
  | .softmax a => (softmax (v a)).out
  | .copy _ a => ⟨v a, v a, {}, []⟩
  | .unpack role src row k0 n => unpackRow s l role src row k0 n
  | .dropout probs a => (dropWork s l w probs w.feat (v a)).out
  | .loss a => (reduce (lossVals s w.microBatch (v a))).out
  | .lossGrad a => (map1 (fun x => scalePow2 x s.num.e) (v a)).out
  | .residualAdd addr a => (map2 fadd (s.readVec ⟨.skein addr, a.len, 1, false⟩) (v a)).out
  | .attnBlock scores =>
    match rowKeys s w.microBatch w.row with
    | some r =>
      let x := attnBlock (scaleOf l) (v scores) (keyMask r w.keyBlock) (attnAt s w).state
      { probsOut s l w x.probs x.flags with spool := [] }
    | none => ⟨[], [], {}, []⟩
  | .attnValue pv => ⟨[], [], (attnValue (attnAt s w).state (v pv)).flags, []⟩
  | .attnFinish width =>
    let x := (attnAt s w).state
    let o := attnFinish x width
    ⟨o.vals ++ (match x with | some y => [y.1, y.2.1] | none => [0, 0]), o.vals, o.flags, []⟩
  | .attnProbs scores ml =>
    match rowKeys s w.microBatch w.row with
    | some r =>
      let x := stashed s ml
      let p := attnProbs (scaleOf l) (v scores) (keyMask r w.keyBlock) x.1 x.2 (x.2 == 0)
      probsOut s l w p.vals p.flags
    | none => ⟨[], [], {}, []⟩

-- What makes an operation ready.

/-- Operands that an operation reads from spool and creel. -/
def WhorlOp.vecs : WhorlOp → List Vec
  | .add a b | .sub a b | .mul a b | .div a b | .max a b | .min a b => [a, b]
  | .fma a b c => [a, b, c]
  | .sqrt a | .rsqrt a | .exp2 a | .sigmoid a | .activation _ a | .softmax a | .copy _ a | .dropout _ a | .loss a | .lossGrad a
  | .residualAdd _ a | .attnBlock a | .attnValue a => [a]
  | .reduce a r => a :: (r.map fun x => ⟨x, 1, 1, false⟩).toList
  | .attnProbs a ml => [a, ⟨ml, 2, 1, false⟩]
  | .unpack _ _ _ _ _ | .attnFinish _ => []

/-- The order that an operation must keep, and the form of its operands: losses of the whole micro-batch in one sum; the blocks of an
attention row one after another, each with its scores, then its product p·V (R185, R198, R211, R212). -/
def opTurn (s : State) (l : Layer) (w : WhorlWork) : Bool :=
  match w.op with
  | .loss a => a.len == mbTokens s w.microBatch
  | .unpack role src row k0 n =>
    match NFmt.ofCode (fmtIn s l role) with
    | some f =>
      let size := stapleSize (roleStaple l role)
      NarrowAt.inCluster (w.core.val / 12) src && k0 % twistSize (roleTwist l role) == 0 && n % twistSize (roleTwist l role) == 0 &&
        (staplesOf size k0 (k0 + n)).all (stapleHere s f size src row)
    | none => false
  | .attnBlock a | .attnProbs a _ =>
    match rowKeys s w.microBatch w.row with
    | some r => blockTurn s w r && a.len == (keyMask r w.keyBlock).length
    | none => false
  | .attnValue _ => (attnAt s w).owesValue
  | .attnFinish _ =>
    match rowKeys s w.microBatch w.row with
    | some r => (attnAt s w).met == r.order.length && !(attnAt s w).owesValue
    | none => false
  | _ => true

/-- A whorl operation is ready (R183): on a core that its stage may use, with its operands resident and its order kept. -/
def whorlReady (s : State) (w : WhorlWork) : Bool :=
  match layerOf s w.layer with
  | some l =>
    held s (w.core.val / 12) (.whorl w) && phaseReady s l w.phase w.microBatch &&
      (stageCores s (Fin.ofNat 48 (w.core.val / 12)) l.stage).contains w.core &&
      !s.stp.dead.contains (w.core.val / 12) && (WhorlOp.vecs w.op).all (s.vecHere w.core) && opTurn s l w &&
      pushable s l w.microBatch w.push && ringReady s w.layer w.microBatch w.phase w.ring w.ringMove
  | none => false

-- What an operation leaves.

/-- What an operation changes besides the spool: the residual stream (R164), the loss of a micro-batch (R198, R199), the running state
of an attention row (R211). -/
def whorlEffect (w : WhorlWork) (l : Layer) (vals : List Word) (s : State) : State :=
  let x := attnAt s w
  match w.op with
  | .residualAdd addr _ => s.storeAt (.skein addr) (wordsBytes vals)
  | .loss _ =>
    let v := vals.getD 0 0
    let s1 := s.onStp fun b =>
      { b with losses := (b.losses.filter fun y => y.microBatch != w.microBatch) ++ [⟨w.microBatch, v, lossTokens s w.microBatch⟩] }
    if (dec32 v).isNan || (dec32 v).isInf then noteNonfinite (raise 0x1304 [w.microBatch] s1) else s1
  | .attnBlock scores =>
    match rowKeys s w.microBatch w.row with
    | some r =>
      let y := attnBlock (scaleOf l) (s.readVec scores) (keyMask r w.keyBlock) x.state
      putAttn w (some { x with met := x.met + 1, state := y.state, owesValue := true }) s
    | none => s
  | .attnValue pv => putAttn w (some { x with state := (attnValue x.state (s.readVec pv)).state, owesValue := false }) s
  | .attnFinish _ => putAttn w none s
  | .attnProbs _ _ =>
    match rowKeys s w.microBatch w.row with
    | some r => putAttn w (if x.met + 1 == r.order.length then none else some { x with met := x.met + 1 }) s
    | none => s
  | _ => s

/-- Settings of INVALID of an operation (R129, cause WHORL): one for each NaN it leaves, at least one. -/
def whorlSettings (w : WhorlWork) (o : WhorlOut) : List InvalidAt :=
  let at' (f : Nat) : InvalidAt :=
    { cause := causeWhorl, eng := false, layer := w.layer, phase := w.phase, tileRow := w.row / 128, elemRow := w.row % 128,
      tileCol := f / 128, elemCol := f % 128, chunk := none }
  let nans := ((o.twist.zipIdx).filter fun p => (dec32 p.1).isNan).map fun p => at' (w.feat + p.2)
  if !o.flags.invalid then [] else if nans.isEmpty then [at' w.feat] else nans

/-- The operation writes attention probabilities, which have a stream per head (R257). -/
def WhorlOp.probs : WhorlOp → Bool
  | .attnBlock _ | .attnProbs _ _ => true
  | .copy p _ | .dropout p _ => p
  | _ => false

/-- Who writes a whorl result through the twist unit. The feature of a probability is its key position (R262). -/
def whorlWriter (w : WhorlWork) (l : Layer) : Writer :=
  let probs := WhorlOp.probs w.op
  let feat := match w.op with | .attnBlock _ | .attnProbs _ _ => 1024 * w.keyBlock | _ => w.feat
  ⟨w.core.val, l, w.microBatch, w.phase, if probs then 4 else tensorCode w.phase, if probs then w.head else 0, w.row, feat⟩

/-- What protection finds while a whorl works: it has no accumulator storage. -/
def whorlError (core : CoreIx) (e : Option UnitError) (s : State) : State :=
  match e with
  | some .accumulator => s
  | _ => unitErrors ⟨core, false, false⟩ e s

/-- The inputs of an operation's row, as a capture holds them (R385). -/
def whorlInputs (s : State) (l : Layer) (w : WhorlWork) : List ORow :=
  let x := (attnAt s w).state
  ((WhorlOp.vecs w.op).map fun a => .wide (s.readVec a)) ++
    match w.op with
    | .unpack role src row k0 n =>
      match NFmt.ofCode (fmtIn s l role) with
      | some f =>
        let size := stapleSize (roleStaple l role)
        [.narrow ((staplesOf size k0 (k0 + n)).map (stapleAt s f size src row))]
      | none => []
    | .residualAdd addr a => [.wide (s.readVec ⟨.skein addr, a.len, 1, false⟩)]
    | .attnBlock _ | .attnValue _ | .attnFinish _ => [.wide (match x with | some y => y.1 :: y.2.1 :: y.2.2 | none => [])]
    | _ => []

/-- The skein that an operation reads itself, in the engine DMA class (R164, R284, R306): the state after it, and whether it has its data. -/
def whorlSkein (w : WhorlWork) (s : State) : State × Bool :=
  match w.op with
  | .residualAdd addr a => let r := skeinTake 0 addr (4 * a.len) s; (r.1, r.2.isSome)
  | _ => (s, true)

/-- One whorl operation. Where its data is lost it writes nothing and its core's step flags take FAULT (R305, R306). -/
def whorlOp (w : WhorlWork) (l : Layer) (before : State) : State :=
  let x := whorlSkein w (whorlError w.core w.err (beginB w.phase before))
  let s := x.1
  let c := w.core.val
  if dataLost w.err || !x.2 then stepFlags c { TileFlags.clear with fault := true } s
  else
    let o := whorlEval s l w
    let s1 := (whorlEffect w l o.spool s).storeAt (.spool w.core w.dst) (wordsBytes o.spool)
    let s2 := readEvents c w.layer o.events s1
    let x := w.dests.foldl (fun y nd => writeNarrow (whorlWriter w l) nd [o.twist] y)
      ⟨coreReports c o.flags (whorlSettings w o) s2, (o.spool.zipIdx).map fun p => ((whorlWriter w l).elem false 0 p.2, p.1.toNat), {}, false⟩
    let fl := TileFlags.clear.merge (o.flags.or x.flags) false
    let s3 := stepFlags c { fl with fault := readFault o.events } x.st
    let s4 := plyCheck
      { layer := w.layer, phase := w.phase, microBatch := w.microBatch, keyBlock := w.keyBlock, row := w.row / 128, col := 2 ^ 32 - 1,
        ranBy := [w.core], acc := [], status := fl.bits % 128, made := x.made, step2 := !x.free, counts := w.row % 128 == 0 }
      (fun _ => (whorlInputs s l w, [])) (w.reExec.map fun e => { e with acc := [] }) s3
    afterWork l w.phase w.microBatch w.push w.ring w.ringMove w.last before s4

/-- WHORL_OP: an operation that is not ready does not start. The results fit into the core's spool. -/
def execWhorlOp (w : WhorlWork) (s : State) : Out :=
  checked (whorlShaped w)
    (match layerOf s w.layer with
     | some l => if arithmeticOn s && whorlReady s w then whorlOp w l s else s
     | none => s)

end Sys2Proof.Machine
end

