-- ==== Sys2Proof/Machine/Descriptors.lean ====
section
/-! DEFINITION. What the descriptors do (R356, R361 to R368): STEP, INFER with token sampling (R272 to R275), SEED and the copies. -/

namespace Sys2Proof.Machine

-- The head of a queue.

/-- Types that a queue carries (R356). -/
def carries (q : QueueIx) (type : Nat) : Bool :=
  if q == 0 then decide (1 ≤ type ∧ type ≤ 5) else type == 0x10 || type == 0x11

/-- Treat the descriptor at the head of a queue (R367, R368): one of a type the queue does not carry is refused; one of another type
than `type` waits for its own row. Queue 0 starts a descriptor only after the one before it has completed. -/
def atHead (q : QueueIx) (type : Nat) (k : Desc → State → State) (s : State) : State :=
  let x := s.queue q
  match x.fetched with
  | [] => s
  | d :: _ =>
    if x.st != .enabled || x.running.isSome || !unitsRun s then s
    else if !carries q d.type then refuseHead q 1 0 s
    else if d.type == type then k d s
    else s

/-- The first status that applies (R368): each check gives the DETAIL with which it fails. -/
def firstStatus : List (Nat × Option Nat) → Option (Nat × Nat)
  | [] => none
  | c :: cs => match c.2 with | some d => some (c.1, d) | none => firstStatus cs

/-- The first word of a list of conditions that does not hold. -/
def firstBad (cs : List (Nat × Bool)) : Option Nat := (cs.find? fun c => !c.2).map (·.1)

/-- Refuse with the first status that applies, or go on. -/
def checkedHead (q : QueueIx) (cs : List (Nat × Option Nat)) (k : State → State) (s : State) : State :=
  match firstStatus cs with
  | some c => refuseHead q c.1 c.2 s
  | none => k s

/-- RSV of the common header (R361). -/
def hdrClear (w : Word) : Bool := wfield w 23 16 == 0 && wfield w 14 1 == 0

/-- Words from `n` on are zero, each by its index. -/
def zeroFrom (n : Nat) (ws : List Word) : List (Nat × Bool) := ((List.range 32).drop n).map fun i => (i, wordAt ws i == 0)

/-- A condition that fails without a detail. -/
def failIf (b : Bool) : Option Nat := if b then some 0 else none

def aligned64 (n : Nat) : Bool := n % 64 == 0

-- Sequences and tokens (R208, R209, R361, R362).

/-- A table entry as written: the entry and whether its RSV bits are clear. -/
def readSeq (ws : List Word) (i : Nat) : SeqEntry :=
  ⟨(wordAt ws (4 * i)).toNat, wfield (wordAt ws (4 * i + 1)) 24 0, nat64 ws (4 * i + 2)⟩

/-- The extent that bounds INPUT (layer of KIND 0x04) or TARGET (KIND 0x05). -/
def vocab (s : State) (kind : Nat) : Nat :=
  match s.warp.image with
  | some im => match im.layers.find? fun l => l.kind == kind with
    | some l => if kind == 4 then l.kExtent else l.nExtent
    | none => 0
  | none => 0

/-- Bytes that the batch takes in the token-data region. -/
def batchBytes (s : State) (es : List SeqEntry) : Nat := (es.map fun e => 8 * shardLen s e).sum

/-- The first position, in table order, whose INPUT or TARGET lies outside R362. -/
def badToken (s : State) (targets : Bool) (tokens : List Word) (es : List SeqEntry) : Option Nat :=
  let kin := vocab s 4
  let nout := vocab s 5
  (es.flatMap fun e => (List.range (shardLen s e)).map fun i => e.offset / 8 + i).find? fun p =>
    decide (kin ≤ (wordAt tokens (2 * p)).toNat) ||
      (targets && decide (nout ≤ (wordAt tokens (2 * p + 1)).toNat) && wordAt tokens (2 * p + 1) != 0xFFFFFFFF)

/-- The first entry with a property. -/
def firstEntry (es : List SeqEntry) (bad : Nat → SeqEntry → Bool) : Option Nat :=
  ((es.zipIdx).find? fun p => bad p.2 p.1).map (·.2)

/-- What STEP and INFER share: the tables they name and where their fields stand. `at'` is the word index of SEQ_TABLE. -/
structure BatchIn where
  at' : Nat
  es : List SeqEntry
  table : List Word
  tokens : List Word
  tokenBytes : Nat
  targets : Bool
  /-- The data that could not be read: the word that names it. -/
  poison : Option Nat
  deriving DecidableEq, Repr

def BatchIn.hasTable (b : BatchIn) : Bool := b.poison != some b.at'

/-- Reserved bits of the sequence table: DETAIL is the word index in the table. -/
def seqRsv (b : BatchIn) : Option Nat :=
  if b.hasTable then (firstEntry b.es fun i _ => wfield (wordAt b.table (4 * i + 1)) 31 25 != 0).map fun i => 4 * i + 1 else none

/-- Alignment of the addresses and of every TOKEN_OFFSET. -/
def seqAlign (d : Desc) (b : BatchIn) (more : List (Nat × Bool)) : Option Nat :=
  match firstBad ([(b.at', aligned64 (nat64 d.words b.at')), (b.at' + 2, aligned64 (nat64 d.words (b.at' + 2)))] ++ more) with
  | some w => some w
  | none =>
    if b.hasTable then (firstEntry b.es fun _ e => !aligned64 e.offset).map fun i => 4 * i + 2 else none

/-- The checks of sequences and tokens, in the order of R368. -/
def seqChecks (s : State) (b : BatchIn) (groups : Option Nat) : List (Nat × Option Nat) :=
  let n := ctxGroup s
  let onTable (x : Option Nat) : Option Nat := if b.hasTable then x else none
  [(0x09, onTable (firstEntry b.es fun _ e => e.length == 0 || decide (2 ^ 24 < e.length) || e.length % (1024 * n) != 0)),
   (0x0A, onTable (firstEntry b.es fun i e => decide (0 < i) && decide (e.seq ≤ (wordAt b.table (4 * (i - 1))).toNat))),
   (0x0B, groups),
   (0x0C, onTable (firstEntry b.es fun _ e => decide (b.tokenBytes < e.offset + 8 * shardLen s e))),
   (0x0D, if b.poison.isSome then none else badToken s b.targets b.tokens b.es),
   (0x0E, onTable (if (tokenRegion s).2 < batchBytes s b.es then some (batchBytes s b.es) else none))]

/-- NO_IMAGE (0x04). -/
def noImage (s : State) : Option Nat := failIf (s.warp.state != .loaded)

-- STEP (R179, R361 to R364).

/-- GROUP_LIMIT (0x0B). -/
def groupLimit (s : State) (count : Nat) : Option Nat :=
  match s.warp.image with
  | some im =>
    failIf (isExact s && (count % im.hanks.exactGroupSeqs != 0 || decide (2 ^ groupsLog2 s < count / im.hanks.exactGroupSeqs)))
  | none => none

def stepIn (d : Desc) (table tokens : List Word) (poison : Option Nat) : BatchIn :=
  { at' := 5, es := (List.range (wfield (wordAt d.words 4) 15 0)).map (readSeq table), table := table, tokens := tokens
    tokenBytes := nat64 d.words 9, targets := true, poison := poison }

/-- BATCH of a STEP descriptor. -/
def stepBatch (d : Desc) : Nat := (wordAt d.words 2).toNat + 2 ^ 32 * wfield (wordAt d.words 3) 15 0

/-- Every check of a STEP descriptor, in the order of R368. -/
def stepChecks (s : State) (d : Desc) (b : BatchIn) : List (Nat × Option Nat) :=
  let fields := [(0, hdrClear (wordAt d.words 0)), (3, wfield (wordAt d.words 3) 31 16 == 0),
    (4, wfield (wordAt d.words 4) 31 16 == 0 && !b.es.isEmpty)] ++ zeroFrom 11 d.words
  [(0x02, match firstBad fields with | some w => some w | none => seqRsv b), (0x03, seqAlign d b []), (0x04, noImage s),
   (0x05, failIf s.nep.seed.isNone), (0x08, failIf (stepBatch d != s.stp.batch))] ++
    seqChecks s b (groupLimit s b.es.length) ++ [(0x10, b.poison)]

/-- The words of the shards, in table order. -/
def batchTokens (s : State) (b : BatchIn) : List Word :=
  b.es.flatMap fun e => (b.tokens.drop (e.offset / 4)).take (2 * shardLen s e)

/-- Accept a STEP descriptor: its token data goes into the other half of the token-data region. -/
def acceptStep (d : Desc) (b : BatchIn) (s : State) : State :=
  let s1 := s.putSkeinWords (tokenHalf s s.stp.nextHalf) (batchTokens s b)
  let s2 := s1.onStp fun x =>
    { x with desc := some ⟨stepBatch d, b.es, x.nextHalf, wbit (wordAt d.words 0) 0⟩, nextHalf := !x.nextHalf, stepSeen := true }
  let s3 := if isManager s then s2.onJob fun j => { j with settledReq := wbit (wordAt d.words 0) 0 } else s2
  s3.onQueue 0 fun x => { x with fetched := x.fetched.drop 1, running := some d }

/-- A STEP descriptor is treated once every earlier batch is decided. -/
def stepHead (table tokens : List Word) (poison : Option Nat) (d : Desc) (s : State) : State :=
  if s.stp.desc.isSome || s.stp.running then s
  else
    let b := stepIn d table tokens poison
    checkedHead 0 (stepChecks s d b) (acceptStep d b) s

def execStep (seqTable tokens : List Word) (poisonAt : Option Nat) (s : State) : Out :=
  .next (atHead 0 1 (stepHead seqTable tokens poisonAt) s)

-- Token sampling (R272 to R275).

/-- One request entry. -/
structure Request where
  rk : Nat
  temperature : Word
  topP : Word
  pos : Nat
  seqIndex : Nat
  topK : Nat
  deriving DecidableEq, Repr

def readRequest (ws : List Word) (i : Nat) : Request :=
  let b := 8 * i
  { rk := nat64 ws b, temperature := wordAt ws (b + 2), topP := wordAt ws (b + 3), pos := wfield (wordAt ws (b + 4)) 23 0
    seqIndex := wfield (wordAt ws (b + 5)) 31 16, topK := wfield (wordAt ws (b + 5)) 10 0 }

/-- Reserved bits of an entry: the first word that is not clear. -/
def requestRsv (ws : List Word) (i : Nat) : Option Nat :=
  let b := 8 * i
  firstBad [(b + 4, wfield (wordAt ws (b + 4)) 31 24 == 0), (b + 5, wfield (wordAt ws (b + 5)) 15 11 == 0),
    (b + 6, wordAt ws (b + 6) == 0), (b + 7, wordAt ws (b + 7) == 0)]

/-- Positive and finite. -/
def posFinite (w : Word) : Bool := (dec32 w).isFin && flt 0 w

/-- A request within R272 and its entry. -/
def requestOk (es : List SeqEntry) (r : Request) : Bool :=
  (r.temperature == 0 || posFinite r.temperature) && posFinite r.topP && fle r.topP one32 && decide (1 ≤ r.topK ∧ r.topK ≤ 1024) &&
    match es.drop r.seqIndex with
    | e :: _ => decide (r.pos < e.length)
    | [] => false

/-- Candidates: indices with their logits, the largest first, equal ones by ascending index. -/
def candidates (logits : List Word) (k : Nat) : List (Nat × Word) :=
  (sortBy (fun a b => flt b.2 a.2 || (!flt a.2 b.2 && decide (a.1 ≤ b.1))) ((logits.zipIdx).map fun p => (p.2, p.1))).take k

/-- The running sums c. -/
def cumulate (t top : Word) : Option Word → List Word → List Word
  | _, [] => []
  | acc, x :: xs =>
    let z := (fdiv (fsub x top).bits t).bits
    let p := (exp2 (fmul z log2e).bits).bits
    let c := match acc with | none => p | some a => (fadd a p).bits
    c :: cumulate t top (some c) xs

/-- The outcome of a request: a token with its m, or the first non-finite logit. -/
inductive Sampled where
  | ok (token m : Nat)
  | nonfinite (index : Nat)
  deriving DecidableEq, Repr

/-- R273 with the draw `d`. -/
def sampleRow (logits : List Word) (r : Request) (d : Nat) : Sampled :=
  match (List.range logits.length).find? fun i => !(dec32 (wordAt logits i)).isFin with
  | some i => .nonfinite i
  | none =>
    let cand := candidates logits (min r.topK logits.length)
    let top := cand.headD (0, 0)
    if r.temperature == 0 then .ok top.1 1
    else
      let c := cumulate r.temperature top.2 none (cand.map (·.2))
      let lim := (fmul r.topP (c.getLastD 0)).bits
      let m := 1 + ((List.range c.length).find? fun i => fle lim (wordAt c i)).getD (c.length - 1)
      let t := (fmul (scaleInt32 d (-24)).bits (wordAt c (m - 1))).bits
      let j := ((List.range m).find? fun i => flt t (wordAt c i)).getD (m - 1)
      .ok (cand.getD j (0, 0)).1 m

/-- The sampling stream of the layer of KIND 0x05 (R259). -/
def samplingStream (s : State) : Option Word :=
  match s.warp.image with
  | some im => (im.nep.find? fun e => wfield e.id 31 30 == 3 && im.layers.any fun l => l.kind == 5 && l.id == wfield e.id 23 10).map (·.id)
  | none => none

/-- One request: its result words, with event 0x1401 for a row that is not finite: it carries RK in two words, low first, POS and the
index (R275). -/
def sampleRequest (id : Word) (logits : List Word) (r : Request) (s : State) : List Word × State :=
  match sampleRow logits r (draw24 (streamKey (seedOf s) id) (counterS r.rk r.pos)) with
  | .ok token m => ([w32 token, w32 m, 0, 0], s)
  | .nonfinite i => ([0, w32 (2 ^ 28), 0, 0], raise 0x1401 [r.rk % 2 ^ 32, r.rk / 2 ^ 32, r.pos, i] s)

-- INFER (R365).

def inferIn (d : Desc) (table tokens : List Word) (poison : Option Nat) : BatchIn :=
  { at' := 3, es := (List.range (wfield (wordAt d.words 2) 15 0)).map (readSeq table), table := table, tokens := tokens
    tokenBytes := nat64 d.words 7, targets := false, poison := poison }

/-- Every check of an INFER descriptor. -/
def inferChecks (s : State) (d : Desc) (b : BatchIn) (reqTable : List Word) : List (Nat × Option Nat) :=
  let n := wfield (wordAt d.words 2) 31 16
  let fields := [(0, hdrClear (wordAt d.words 0) && !wbit (wordAt d.words 0) 0),
    (2, decide (1 ≤ n ∧ n ≤ 4096) && decide (1 ≤ b.es.length ∧ b.es.length ≤ 1024))] ++ zeroFrom 13 d.words
  let hasReq := b.poison != some 9
  let rsv := if hasReq then (List.range n).findSome? (requestRsv reqTable) else none
  let bad := (List.range n).find? fun i => !requestOk b.es (readRequest reqTable i)
  [(0x02, match firstBad fields with
      | some w => some w
      | none => match seqRsv b with | some w => some w | none => rsv),
   (0x03, seqAlign d b [(9, aligned64 (nat64 d.words 9)), (11, aligned64 (nat64 d.words 11))]), (0x04, noImage s),
   (0x05, failIf s.nep.seed.isNone)] ++ seqChecks s b none ++
  [(0x0F, if deviceCount s != 1 || (samplingStream s).isNone then some 0 else if hasReq && b.hasTable then bad else none),
   (0x10, b.poison)]

/-- The committed parameters of every layer in logical order, wherever the image places them (R250, R274): the segments of its narrow copies
or of its wide one, tile by tile, then its vectors. -/
def committedParams (s : State) : List (Nat × List Byte) :=
  let layers := match s.warp.image with | some im => im.layers.filter fun l => (paramBase s l.id).isSome | none => []
  (sortBy (fun a b => decide (a.id ≤ b.id)) layers).map fun l =>
    let fmt := effFmt (modeIn (nextModes s) l.id) l .weight
    let copies := if (NFmt.ofCode fmt).isSome then [0, 1] else [2]
    let places := match paramBase s l.id with
      | some base => copies.flatMap fun c => (List.range (gridCols l.kExtent * gridCols l.nExtent)).flatMap fun t =>
          (List.range 16).flatMap (segPlaces l fmt base c t)
      | none => []
    let vectors := ((if l.bias then [1] else []) ++ if l.colScale then [2] else []).flatMap fun k =>
      match vectorPlace s l k with | some a => [(a, 4 * l.nExtent)] | none => []
    (l.id, (places ++ vectors).flatMap fun p => s.skein.readBytes p.1 p.2)

/-- INPUT words of a sequence. -/
def inputWords (s : State) (tokens : List Word) (e : SeqEntry) : List Word :=
  (List.range (shardLen s e)).map fun i => wordAt tokens (e.offset / 4 + 2 * i)

/-- The logit row that a request samples: the forward pass over its sequence with the committed parameters and the fallback set of the next
batch (R365). -/
def logitRow (s : State) (b : BatchIn) (r : Request) : List Word :=
  match b.es.drop r.seqIndex with
  | e :: _ => (List.range (vocab s 5)).map
      (Config.logit s.warp.logicalHash ((nextModes s).map fun l => modeCode l.mode) (committedParams s) (inputWords s b.tokens e) r.pos)
  | [] => []

/-- Zero up to whole 64-byte lines (R347). -/
def wholeLines (bs : List Byte) : List Byte := bs ++ List.replicate ((64 - bs.length % 64) % 64) 0

/-- Run an accepted INFER: one result entry per request, written in whole lines. -/
def runInfer (d : Desc) (b : BatchIn) (reqTable : List Word) (err : Option UnitError) (s : State) : State :=
  let n := wfield (wordAt d.words 2) 31 16
  let id := (samplingStream s).getD 0
  let r := (List.range n).foldl (fun (acc : List Word × State) i =>
    let q := readRequest reqTable i
    let x := sampleRequest id (logitRow s b q) q acc.2
    (acc.1 ++ x.1, x.2)) ([], keyError err s)
  completeHead 0 { status := 0, batch := s.stp.batch } (hostWrite (nat64 d.words 11) (wholeLines (wordsBytes r.1)) r.2)

/-- INFER runs between two steps, after the previous P has ended. -/
def inferHead (table tokens reqTable : List Word) (poison : Option Nat) (err : Option UnitError) (d : Desc) (s : State) : State :=
  if s.stp.inStep || s.stp.desc.isSome || !arithmeticOn s then s
  else
    let b := inferIn d table tokens poison
    checkedHead 0 (inferChecks s d b reqTable) (runInfer d b reqTable err) s

def execInfer (seqTable tokens reqTable : List Word) (poisonAt : Option Nat) (err : Option UnitError) (s : State) : Out :=
  .next (atHead 0 2 (inferHead seqTable tokens reqTable poisonAt err) s)

-- SEED (R56, R366).

/-- SEED_COMMITMENT of a seed (R55). -/
def seedCommitment (seed : List Byte) : List Byte := shake256 32 (ascii "DVK-SEED" ++ seed)

/-- The commitment of the loaded image. -/
def imageCommitment (s : State) : List Byte := match s.warp.image with | some im => im.job.seedCommitment | none => []

def seedBytes (d : Desc) : List Byte := wordsBytes ((d.words.drop 2).take 4)

/-- SEED at the head. A mismatch also raises event 0x5005. -/
def seedHead (d : Desc) (s : State) : State :=
  let seed := seedBytes d
  let differs := standing s == .loaded && seedCommitment seed != imageCommitment s
  let fields := (0, hdrClear (wordAt d.words 0) && !wbit (wordAt d.words 0) 0) :: zeroFrom 6 d.words
  let checks := [(0x02, firstBad fields), (0x04, noImage s), (0x06, failIf differs), (0x07, failIf s.nep.seed.isSome)]
  let s1 := raiseIf (differs && (firstBad fields).isNone) 0x5005 [] s
  checkedHead 0 checks (fun t => completeHead 0 { status := 0, batch := t.stp.batch } (t.onNep fun n => { n with seed := some seed })) s1

def execSeed (s : State) : Out := .next (atHead 0 3 seedHead s)

-- Copies (R356, R366, R367).

/-- Pieces of a window range within pages of 4 KiB: skein address and length (R283). -/
def windowPieces : Nat → Nat → Nat → List (Nat × Nat)
  | 0, _, _ => []
  | n + 1, off, len =>
    if len == 0 then []
    else
      let k := min len (4096 - off % 4096)
      (windowAddr off, k) :: windowPieces n (off + k) (len - k)

def windowRange (off len : Nat) : List (Nat × Nat) := windowPieces (len / 4096 + 2) off len

/-- Bytes of a window range. -/
def windowRead (s : State) (off len : Nat) : List Byte := (windowRange off len).flatMap fun p => s.skein.readBytes p.1 p.2

def windowWrite (off : Nat) (data : List Byte) (s : State) : State :=
  s.putPlaces (windowRange off data.length) data

/-- Fields of a copy: HOST_ADDR, WINDOW_OFFSET, BYTES. -/
def copyBytes (d : Desc) : Nat := (wordAt d.words 6).toNat

def copyChecks (s : State) (d : Desc) (isIn poison : Bool) : List (Nat × Option Nat) :=
  let off := nat64 d.words 4
  let n := copyBytes d
  let fields := [(0, hdrClear (wordAt d.words 0) && !wbit (wordAt d.words 0) 0), (4, decide (off < 2 ^ 35)),
    (6, decide (64 ≤ n ∧ n ≤ 0xFFFFFFC0) && decide (off + n ≤ 2 ^ 35))] ++ zeroFrom 7 d.words
  [(0x02, firstBad fields), (0x03, firstBad [(2, aligned64 (nat64 d.words 2)), (4, aligned64 off), (6, aligned64 n)]),
   (0x10, if poison then some 2 else none), (0x14, failIf (isIn && guarded s off n))]

/-- Bytes of exactly a given number. -/
def fit (n : Nat) (bs : List Byte) : List Byte := bs.take n ++ List.replicate (n - bs.length) 0

/-- Start a copy, or go on with the one that runs; `moved` bytes are done (R348, R367). -/
def copyRun (isIn : Bool) (poison : Bool) (k : Desc → Nat → State → State) (s : State) : State :=
  let x := s.queue 1
  match if unitsRun s then x.st else .disabled, x.running with
  | .enabled, some d => if (d.type == 0x10) == isIn then k d x.moved s else s
  | _, _ =>
    atHead 1 (if isIn then 0x10 else 0x11) (fun d t =>
      checkedHead 1 (copyChecks t d isIn poison)
        (fun u => k d 0 (u.onQueue 1 fun y => { y with fetched := y.fetched.drop 1, running := some d, moved := 0 })) t) s

/-- Complete the copy that runs. -/
def endCopy (d : Desc) (c : Compl) (s : State) : State := complete 1 d c (s.onQueue 1 fun y => { y with running := none, moved := 0 })

/-- `n` bytes more have moved; the last ones complete the copy. -/
def copyMoved (d : Desc) (n : Nat) (s : State) : State :=
  if copyBytes d ≤ n then endCopy d { status := 0, bytes := copyBytes d, batch := s.stp.batch } s
  else s.onQueue 1 fun y => { y with moved := n }

/-- A write into the window in the engine DMA class: nothing where it fails parity on its way (R305). -/
def windowPut (err : Option UnitError) (off : Nat) (bs : List Byte) (s : State) : State :=
  let e := engineError 0 tableUnit err s
  if e.2 then windowWrite off bs e.1 else e.1

/-- A read of the window in the engine DMA class: none where it fails parity, or a word is uncorrectable (R305, R306). -/
def windowTake (err : Option UnitError) (off n : Nat) (s : State) : State × Option (List Byte) :=
  let e := engineError 0 tableUnit err s
  let r := skeinTakes 0 (windowRange off n) e.1
  (r.1, if e.2 then r.2 else none)

/-- One advance of a COPY_IN. Data that a later read returns poisoned ends it with HOST_READ_FAILED; what it has written stays. -/
def copyInRun (data : List Byte) (poisoned : Bool) (err : Option UnitError) (d : Desc) (moved : Nat) (s : State) : State :=
  if poisoned then
    endCopy d { status := 0x10, detail := 2, bytes := moved, batch := s.stp.batch } <|
      raise 0x5021 [1, d.slot, 0x10, 2] (countErr (queueBase 1 + 0x30) s)
  else
    let bs := data.take (copyBytes d - moved)
    copyMoved d (moved + bs.length) (windowPut err (nat64 d.words 4 + moved) bs s)

/-- COPY_IN: `data` is what host memory holds in the next lines at HOST_ADDR; `poisoned`: a read of it returned poison. -/
def execCopyIn (data : List Byte) (poisoned : Bool) (err : Option UnitError) (s : State) : Out :=
  checked (wholeLinesLong data.length) (copyRun true poisoned (copyInRun data poisoned err) s)

/-- One advance of a COPY_OUT. Lines without data are not written to the host (log entry 178). -/
def copyOutRun (bytes : Nat) (err : Option UnitError) (d : Desc) (moved : Nat) (s : State) : State :=
  let n := min bytes (copyBytes d - moved)
  let r := windowTake err (nat64 d.words 4 + moved) n s
  copyMoved d (moved + n) (match r.2 with | some bs => hostWrite (nat64 d.words 2 + moved) bs r.1 | none => r.1)

/-- COPY_OUT of the next `bytes` bytes. -/
def execCopyOut (bytes : Nat) (err : Option UnitError) (s : State) : Out :=
  checked (wholeLinesLong bytes) (copyRun false false (copyOutRun bytes err) s)


end Sys2Proof.Machine
end

