-- ==== Sys2Proof/Machine/Identity.lean ====
section
/-! DEFINITION. Deliveries to the distaff (chapter 14): firmware updates, revocation lists, vouchers and owner commands. -/

namespace Sys2Proof.Machine

/-- The stage that a firmware image's header names. -/
def imageStage (img : List Byte) : BootStage :=
  match wfield (imageWord img 1) 15 8 with
  | 2 => .flyer
  | 3 => .skeinBase
  | _ => .distaff

/-- A delivery gets through its carrier (R460): Redfish needs the SGMII port, and a client whose certificate chains to the owner's keys. -/
def admitted (via : Carrier) (s : State) : Bool :=
  match via with
  | .pldm => true
  | .redfish client => s.mod.sgmii && match s.flash.owner with | some o => Config.chainsToOwner client (o.ed, o.ml) | none => false

/-- A firmware image is delivered (R444): verified under R442, it goes to the inactive slot, the one the stage did not boot from (log
entry 159). Before ATTEST_READY it is refused, except in
recovery (R467). -/
def execFirmwareUpdate (image : List Byte) (via : Carrier) (s : State) : Out :=
  .next (
    if !admitted via s then s
    else if s.mod.recovery || (distaffRuns s && s.sec.attestReady) then
      let st := imageStage image
      let r := fwVerify s st image
      let s1 := countSigFail r.1 s
      if r.2 then
        let x := s.flash.slots st
        let y : FwSlots := if x.bootedB then { x with a := image, staged := true } else { x with b := image, staged := true }
        raise 0x6050 [stageNo st, b2n !x.bootedB, (imageWord image 3).toNat] (s1.onFlash fun f => f.putSlots st y)
      else raise 0x6051 [stageNo st] s1
    else managed id s)

/-- A revocation list (R438, R439): its sequence and names signed by the root, its sequence at least the stored one. -/
def execRevocationList (list : Signed) (sequence : BitVec 32) (names : List (BitVec 32)) (via : Carrier) (s : State) : Out :=
  let n := sigFails (rootKeys s) "DVK-RVK" (Config.signedBytes 1 (leBytes 4 sequence.toNat :: names.map fun i => leBytes 4 i.toNat))
    list.edSig list.mlSig
  .next (if !admitted via s then s else managed (fun s =>
    if n == 0 && decide (s.flash.rvkSeq ≤ sequence.toNat) then
      s.onFlash fun f => { f with rvkSeq := sequence.toNat, rvkNames := names }
    else countSigFail n s) s)

/-- An ownership voucher (R446): serial, sequence and owner keys signed by the root; for this serial, with a higher
sequence. The key store is emptied. -/
def execOwnershipVoucher (v : Signed) (serial : BitVec 64) (sequence : BitVec 32) (edPub mlPub : List Byte) (s : State) : Out :=
  let n := sigFails (rootKeys s) "DVK-VOUCH" (Config.signedBytes 2 [leBytes 8 serial.toNat, leBytes 4 sequence.toNat, edPub, mlPub]) v.edSig v.mlSig
  let newer := match s.flash.owner with
    | none => true
    | some o => decide (o.sequence < sequence.toNat)
  .next (managed (fun s =>
    if n == 0 && serial.toNat == moduleSerial && newer then
      s.onFlash fun f =>
        SecFlash.putStore { f with owner := some ⟨edPub, mlPub, sequence.toNat⟩, warpKeys := [], revokedKeys := [], sealKeys := [] }
    else countSigFail n s) s)

-- Owner commands (R447).

/-- What the owner has signed (R447): serial, counter, opcode and operands. -/
def ownerRegion (e : OwnerEnv) (operands : List (List Byte)) : List Byte :=
  Config.signedBytes 3 (leBytes 8 e.serial.toNat :: leBytes 8 e.counter.toNat :: [e.opcode] :: operands)

/-- The checks every owner command passes: signatures, serial, counter, opcode. The causes are 1 signature, 2 serial, 3 counter, 5
opcode, besides 4 for a full table and 6 for an operand (log entry 10). -/
def ownerCause (opcode : Nat) (e : OwnerEnv) (operands : List (List Byte)) (s : State) : Nat :=
  match s.flash.owner with
  | none => 1
  | some o =>
    if sigFails (o.ed, o.ml) "DVK-OWNR" (ownerRegion e operands) e.edSig e.mlSig != 0 then 1
    else if e.serial.toNat != moduleSerial then 2
    else if e.counter.toNat != s.flash.cmdCounter + 1 then 3
    else if e.opcode.toNat != opcode then 5
    else 0

/-- Failed verifications of an owner command. -/
def ownerFails (e : OwnerEnv) (operands : List (List Byte)) (s : State) : Nat :=
  match s.flash.owner with
  | none => 0
  | some o => sigFails (o.ed, o.ml) "DVK-OWNR" (ownerRegion e operands) e.edSig e.mlSig

/-- Run an owner command in a secured session (R447, R459): `cause` is the operand's own refusal cause, 0 for none, and `opFails` how
many signatures of the operand fail; `act` what it does.
The command counter advances. -/
def ownerCommand (opcode : Nat) (e : OwnerEnv) (operands : List (List Byte)) (cause opFails : Nat) (act : State → State) (s : State) : State :=
  if distaffRuns s && s.sec.attestReady && s.spdm.session then
    let k := ownerCause opcode e operands s
    let c := if k != 0 then k else cause
    if c != 0 then reply (.ownerStatus c) (raise 0x6023 [c] (countSigFail (ownerFails e operands s + if k = 0 then opFails else 0) s))
    else reply (.ownerStatus 0) (act (s.onFlash fun f => SecFlash.protect { f with cmdCounter := f.cmdCounter + 1 }))
  else managed (reply .unsupported) s

/-- The key store is written again (R448, R449). -/
def putStore (f : SecFlash → SecFlash) (s : State) : State :=
  s.onFlash fun x => (f x).putStore

/-- Enrolled warp keys that are not revoked. -/
def SecFlash.liveKeys (f : SecFlash) : Nat := (f.warpKeys.filter fun k => !f.revokedKeys.contains k.id).length

/-- ENROL_WARP_KEY: at most 16 key pairs, and a revoked KEY_ID never again. -/
def execEnrolWarpKey (env : OwnerEnv) (keyId : BitVec 32) (edPub mlPub : List Byte) (s : State) : Out :=
  let f := s.flash
  let cause := if f.revokedKeys.contains keyId then 6
    else if (f.warpKeys.filter fun k => k.id != keyId).length < f.warpKeys.length then 0
    else if 16 ≤ f.liveKeys then 4 else 0
  .next (ownerCommand 1 env [leBytes 4 keyId.toNat, edPub, mlPub] cause 0
    (fun t => raise 0x6020 [keyId.toNat] <|
      putStore (fun f => { f with warpKeys := (f.warpKeys.filter fun k => k.id != keyId) ++ [⟨keyId, edPub, mlPub⟩] }) t) s)

/-- REVOKE_WARP_KEY. -/
def execRevokeWarpKey (env : OwnerEnv) (keyId : BitVec 32) (s : State) : Out :=
  .next (ownerCommand 2 env [leBytes 4 keyId.toNat] 0 0
    (fun t => raise 0x6021 [keyId.toNat] <|
      putStore (fun f => { f with revokedKeys := if f.revokedKeys.contains keyId then f.revokedKeys else f.revokedKeys ++ [keyId] }) t) s)

/-- ENROL_SEALING_KEY: at most 16 keys. -/
def execEnrolSealingKey (env : OwnerEnv) (keyId : BitVec 32) (key : BitVec 256) (s : State) : Out :=
  let others := s.flash.sealKeys.filter fun k => k.1 != keyId
  .next (ownerCommand 3 env [leBytes 4 keyId.toNat, leBytes 32 key.toNat] (if 16 ≤ others.length then 4 else 0) 0
    (fun t => raise 0x6020 [keyId.toNat] <|
      putStore (fun f => { f with sealKeys := (f.sealKeys.filter fun k => k.1 != keyId) ++ [(keyId, key)] }) t) s)

/-- REVOKE_SEALING_KEY. -/
def execRevokeSealingKey (env : OwnerEnv) (keyId : BitVec 32) (s : State) : Out :=
  .next (ownerCommand 4 env [leBytes 4 keyId.toNat] 0 0
    (fun t => raise 0x6021 [keyId.toNat] <|
      putStore (fun f => { f with sealKeys := f.sealKeys.filter fun k => k.1 != keyId }) t) s)

/-- RAISE_WARP_FLOOR: at or above the current floor (R445). -/
def execRaiseWarpFloor (env : OwnerEnv) (floor : BitVec 32) (s : State) : Out :=
  .next (ownerCommand 5 env [leBytes 4 floor.toNat] (if floor.toNat < s.flash.floorWarp then 6 else 0) 0
    (fun t => raise 0x6022 [3, floor.toNat] (t.onFlash fun f => SecFlash.protect { f with floorWarp := floor.toNat })) s)

/-- The mask of a list of cores. -/
def coreMask (cores : List CoreIx) : BitVec 576 := cores.foldl (fun m c => m ||| BitVec.ofNat 576 (2 ^ c.val)) 0

/-- What a Dvortan service key has signed (R450): serial, generation and the cores to clear. -/
def serviceRegion (serial : BitVec 64) (generation : BitVec 32) (cores : List CoreIx) : List Byte :=
  Config.signedBytes 4 (leBytes 8 serial.toNat :: leBytes 4 generation.toNat :: cores.map fun c => leBytes 2 (coreCode c.val))

/-- Failed verifications of a service authorisation: none where its signer is outside the chain. -/
def serviceFails (auth : Signed) (serial : BitVec 64) (generation : BitVec 32) (cores : List CoreIx) : Nat :=
  match Config.serviceKey auth.signer with
  | none => 0
  | some keys => sigFails keys "DVK-SVC" (serviceRegion serial generation cores) auth.edSig auth.mlSig

/-- A service authorisation is good (R450): signed by a Dvortan service key that is not revoked, for this serial and the current
generation, with no image loaded. -/
def serviceOk (auth : Signed) (serial : BitVec 64) (generation : BitVec 32) (cores : List CoreIx) (s : State) : Bool :=
  (Config.serviceKey auth.signer).isSome && serviceFails auth serial generation cores == 0 && !listRevoked s auth.signer &&
  serial.toNat == moduleSerial && generation.toNat == s.flash.mapGen && s.warp.image.isNone

/-- APPLY_SERVICE_AUTH (R450): the named cores leave the map, written with the next generation. -/
def execApplyServiceAuth (env : OwnerEnv) (auth : Signed) (serial : BitVec 64) (generation : BitVec 32) (cores : List CoreIx)
    (s : State) : Out :=
  .next (ownerCommand 6 env [serviceRegion serial generation cores, leBytes 4 auth.signer.toNat, auth.edSig, auth.mlSig]
    (if serviceOk auth serial generation cores s then 0 else 6) (serviceFails auth serial generation cores)
    (fun t => raise 0x6032 (cores.map fun c => coreCode c.val) <|
      t.onFlash fun f => f.putMap (f.map &&& ~~~(coreMask cores))) s)

end Sys2Proof.Machine
end

