-- ==== Sys2Proof/Machine/Spdm.lean ====
section
/-! DEFINITION. The SPDM responder, its Dvortan extension, and attestation reports (R455 to R459, R462). -/

namespace Sys2Proof.Machine

-- The attestation report (R455, R456).

def loaderCode : Loader → Nat
  | .empty => 0
  | .verify => 1
  | .validate => 2
  | .feasibility => 3
  | .distribute => 4
  | .loaded => 5
  | .refused => 6
  | .halted => 7

/-- `n` bytes, zero where the string is absent. -/
def fixBytes (n : Nat) (bs : List Byte) : List Byte := (bs ++ List.replicate n 0).take n

/-- The 72-byte quarantine map. -/
def mapBytes (s : State) : List Byte := leBytes 72 s.flash.map.toNat

/-- The four floors, one word each. -/
def floorBytes (s : State) : List Byte :=
  leBytes 4 s.flash.floorDistaff ++ leBytes 4 s.flash.floorFlyer ++ leBytes 4 s.flash.floorSkein ++ leBytes 4 s.flash.floorWarp

/-- The hash of the owner's public keys; with no owner, of nothing. -/
def ownerHash (s : State) : List Byte :=
  match s.flash.owner with
  | some o => shake256 32 (o.ed ++ o.ml)
  | none => shake256 32 []

/-- The 608-byte body (R455), from one snapshot (R456). -/
def reportBody (nonce : List Byte) (s : State) : List Byte :=
  let img := s.warp.image.isSome
  leBytes 4 0x54535441 ++ leBytes 4 (0x10000 + loaderCode s.warp.state * 4096) ++ fixBytes 32 nonce ++ leBytes 8 moduleSerial ++
  leBytes 8 (s.sec.pairStep % 2 ^ 48) ++ leBytes 8 (s.stp.batch % 2 ^ 48) ++ fixBytes 32 s.sec.pairDigest ++
  fixBytes 64 (if img then s.warp.imageHash else []) ++ fixBytes 64 (if img then s.warp.logicalHash else []) ++
  fixBytes 32 (match s.warp.image with | some i => i.job.seedCommitment | none => []) ++ fixBytes 64 Config.romMeasurement ++
  fixBytes 64 s.sec.measDistaff ++ fixBytes 64 s.sec.measFlyer ++ fixBytes 64 s.sec.measSkein ++ floorBytes s ++
  shake256 32 (mapBytes s) ++ ownerHash s ++ leBytes 4 (quarantineCount s.flash.map) ++ leBytes 4 s.flash.rvkSeq ++
  List.replicate 8 0

/-- Both signatures of this device as they stand behind a region. -/
def signDual (ctx : String) (region : List Byte) : List Byte :=
  fixBytes 64 (deviceSigs ctx region).1 ++ fixBytes 3309 (deviceSigs ctx region).2

/-- The 4,096-byte report. -/
def report (nonce : List Byte) (s : State) : List Byte :=
  let b := reportBody nonce s
  fixBytes 4096 (b ++ signDual "DVK-ATST" b)

/-- A report leaves: event 0x6010 with the path (0 SPDM, 1 host) and STEP; counted. -/
def issueReport (path : Nat) (s : State) : State := raise 0x6010 [path, s.sec.pairStep] (countEvt 0x6000D8 s)

-- The responder (R458). Before distaff firmware runs nothing is acknowledged (R467); in recovery only identity and status are (R443).

/-- Answer a request, if the distaff runs or is in recovery. -/
def answer (f : State → State) (s : State) : State := if distaffRuns s || s.mod.recovery then f s else s

/-- Requests beyond identity and status wait for ATTEST_READY (R457, R467). -/
def whenReady (f : State → State) (s : State) : State := answer (fun t => if t.sec.attestReady then f t else reply .notReady t) s

/-- GET_VERSION starts the negotiation again. -/
def execGetVersion (s : State) : Out :=
  .next (answer (fun t => reply .version
    (t.onSpdm fun b => { b with version := true, capabilities := false, algorithms := false, handshake := false })) s)

/-- GET_CAPABILITIES follows GET_VERSION. -/
def execGetCapabilities (s : State) : Out :=
  .next (answer (fun t =>
    if t.spdm.version then reply (.capabilities 21) (t.onSpdm fun b => { b with capabilities := true }) else reply .unsupported t) s)

/-- NEGOTIATE_ALGORITHMS: the choices are fixed. -/
def execNegotiateAlgorithms (s : State) : Out :=
  .next (answer (fun t =>
    if t.spdm.capabilities then
      reply (.algorithms "EdDSA Ed25519" "SHA-512" "ECDHE secp384r1" "AES-256-GCM") (t.onSpdm fun b => { b with algorithms := true })
    else reply .unsupported t) s)

/-- GET_DIGESTS: the digest of the chain in slot 0. -/
def execGetDigests (s : State) : Out :=
  .next (answer (fun t => if t.spdm.algorithms then reply (.digests (sha512 t.flash.edChain)) t else reply .unsupported t) s)

/-- GET_CERTIFICATE: part of the Ed25519 chain; only slot 0 holds one. -/
def execGetCertificate (slot offset length : Nat) (s : State) : Out :=
  .next (answer (fun t =>
    if t.spdm.algorithms && slot == 0 then reply (.certificate (slice t.flash.edChain offset length)) t
    else reply .unsupported t) s)

/-- CHALLENGE: an Ed25519 signature (R459). -/
def execChallenge (slot : Nat) (nonce : List Byte) (s : State) : Out :=
  checked (nonce.length == 32) <| whenReady (fun t =>
    if t.spdm.algorithms && slot == 0 then
      reply (.challengeAuth (sha512 t.flash.edChain) (Config.edSign edSeed (Config.spdmSigned 0x83 nonce))) t
    else reply .unsupported t) s

/-- The measurement blocks of R458. -/
def measBlock (s : State) : Nat → Option (List Byte)
  | 1 => some (fixBytes 64 Config.romMeasurement)
  | 2 => some (fixBytes 64 s.sec.measDistaff)
  | 3 => some (fixBytes 64 s.sec.measFlyer)
  | 4 => some (fixBytes 64 s.sec.measSkein)
  | 5 => some (fixBytes 64 (if s.warp.image.isSome then s.warp.imageHash else []))
  | 6 => some (fixBytes 64 (if s.warp.image.isSome then s.warp.logicalHash else []))
  | 7 => some (leBytes 6 s.sec.pairStep ++ fixBytes 32 s.sec.pairDigest)
  | 8 => some (floorBytes s ++ leBytes 4 s.flash.rvkSeq)
  | _ => none

/-- GET_MEASUREMENTS: index 0 asks for the number of blocks and 0xFF for all of them, as SPDM defines. -/
def execGetMeasurements (index : Nat) (nonce : List Byte) (s : State) : Out :=
  checked (nonce.length == 32) <| whenReady (fun t =>
    let block := match index with
      | 0 => some [8]
      | 0xFF => some ((List.range 8).flatMap fun i => (measBlock t (i + 1)).getD [])
      | i => measBlock t i
    match block with
    | some b =>
      if t.spdm.algorithms then reply (.measurements b (Config.edSign edSeed (Config.spdmSigned 0xE0 (nonce ++ b)))) t else reply .unsupported t
    | none => reply .unsupported t) s

/-- KEY_EXCHANGE opens the handshake of a secured session. -/
def execKeyExchange (exchange : List Byte) (s : State) : Out :=
  .next (whenReady (fun t =>
    if t.spdm.algorithms then
      let own := Config.ecdhPublic t.freeCtr
      let u : State := { t with freeCtr := t.freeCtr + 1 }
      reply (.keyExchange own (Config.edSign edSeed (Config.spdmSigned 0xE4 (exchange ++ own)))) (u.onSpdm fun b => { b with handshake := true })
    else reply .unsupported t) s)

/-- FINISH completes the handshake; `verifyOk`: the requester's verification data is right. -/
def execFinish (verifyOk : Bool) (s : State) : Out :=
  .next (whenReady (fun t =>
    if t.spdm.handshake then
      reply (.finish verifyOk) (t.onSpdm fun b =>
        { b with handshake := false, session := b.session || verifyOk })
    else reply .unsupported t) s)

/-- HEARTBEAT of an open session. -/
def execHeartbeat (s : State) : Out :=
  .next (whenReady (fun t => if t.spdm.session then reply .heartbeat t else reply .unsupported t) s)

/-- END_SESSION. -/
def execEndSession (s : State) : Out :=
  .next (whenReady (fun t =>
    if t.spdm.session then reply .endSession (t.onSpdm fun b => { b with session := false }) else reply .unsupported t) s)

/-- A session has had no message for 60 s (R459). -/
def execSessionTimeout (s : State) : Out :=
  .next (if s.spdm.session then s.onSpdm fun b => { b with session := false } else s)

/-- GET_REPORT (R456, R459): refused before ATTEST_READY with event 0x6011. -/
def execGetReport (nonce : List Byte) (s : State) : Out :=
  checked (nonce.length == 32) <| answer (fun t =>
    if t.sec.attestReady then reply (.report (report nonce t)) (issueReport 0 t) else reply .notReady (raise 0x6011 [0] t)) s

/-- GET_PQ_CERT: part of the ML-DSA-65 chain, at most 1,024 bytes. -/
def execGetPqCert (offset length : Nat) (s : State) : Out :=
  .next (whenReady (fun t => reply (.pqCert (slice t.flash.mlChain offset (min 1024 length))) t) s)

/-- GET_QUARANTINE_MAP: the map and its generation. -/
def execGetQuarantineMap (s : State) : Out :=
  .next (whenReady (fun t => reply (.quarantineMap (mapBytes t) t.flash.mapGen) t) s)

/-- A write of SEC_REPORT_CTRL (R462): REFUSED is cleared by a one; START takes the report's snapshot, or sets REFUSED before ATTEST_READY,
with a report in progress, or at a misaligned address. -/
def writeReportCtrl (val : Word) (s : State) : State :=
  let s1 := if wbit val 29 then s.onSec fun b => { b with refused := false } else s
  if wbit val 31 then
    if s.sec.attestReady && s.sec.reporting.isNone && s.sec.addrLo.toNat % 64 == 0 then
      s1.onSec fun b =>
        { b with done := false, reporting := some (pairAddr s.sec.addrLo s.sec.addrHi, report (wordsBytes s.sec.nonce) s) }
    else raise 0x6011 [1] (s1.onSec fun b => { b with refused := true })
  else s1

/-- A tick of the reference timer in the distaff: a report in progress has been written, and DONE is set (R456, R462; log entry 175). -/
def reportTick (s : State) : State :=
  match s.sec.reporting with
  | some x => issueReport 1 (hostWrite x.1 x.2 (s.onSec fun b => { b with done := true, reporting := none }))
  | none => s

/-- The host requests a report (R462). -/
def execReportRequest (val : Word) (s : State) : Out :=
  checked (wbit val 31) (gated 0x600008 (writeReportCtrl val) s)

end Sys2Proof.Machine
end

