-- ==== Sys2Proof/Machine/Checkpoint.lean ====
section
/-! DEFINITION. Checkpoints (R399 to R403): CKPT_SAVE and CKPT_RESTORE. Word places inside the headers of job-state and shard records,
which the spec lists without places, are the model's (log entry 41). -/

namespace Sys2Proof.Machine

def ckptMagic : Word := 0x4B504344

/-- SHAPE_DIGEST (R400). -/
def shapeDigest (im : Image) : List Byte :=
  shake256 32 (ascii "DVK-SHAPE" ++ leBytes 1 (b2n im.hanks.adamw) ++
    (sortBy (fun a b => decide (a.id ≤ b.id)) im.layers).flatMap fun l =>
      leBytes 2 l.id ++ leBytes 1 l.kind ++ leBytes 3 l.kExtent ++ leBytes 3 l.nExtent ++ leBytes 1 (2 * b2n l.bias + b2n l.colScale))

/-- Word 1 of a record. -/
def typeWord (type : Nat) : Word := w32 (0x00010000 + type * 256)

/-- A 48-bit index as two words. -/
def indexWords (n : Nat) : List Word := [w32 n, w32 (n / 2 ^ 32 % 65536)]

/-- Pad words with zeros. -/
def padWords (n : Nat) (ws : List Word) : List Word := ws ++ List.replicate (n - ws.length) 0

/-- Pad bytes to a 256-byte boundary. -/
def pad256 (bs : List Byte) : List Byte := bs ++ List.replicate (up256 bs.length - bs.length) 0

-- Saving (R399, R401).

/-- HUB_NUM_SCALE of the numeric state for the next batch. -/
def scaleWord (e : Int) (clean : Nat) : Word := w32 (clean * 256 + unsigned 8 e)

/-- HUB_NUM_LAYER_STATE of a layer. -/
def layerStateWord (l : LayerNum) : Word := w32 (modeCode l.mode * 2 ^ 30 + b2n l.requested * 2 ^ 29 + l.run % 65536)

/-- The numeric state for the next batch: that of the last decision (R168). -/
def numericNow (n : NumBlk) : NumNext := match n.next with | some x => x | none => ⟨n.e, n.clean, n.layers⟩

/-- IV of the sealed seed. -/
def ckptIv (step : Nat) (commitment : List Byte) : List Byte := shake256 12 (ascii "DVK-CKIV" ++ leBytes 6 step ++ commitment)

/-- Bytes of a shard's values: master, first moment, and under AdamW the second moment. -/
def shardValueBytes (adamw : Bool) (b : ShardBuf) : List Byte :=
  wordsBytes b.w ++ wordsBytes b.m ++ (if adamw then wordsBytes b.v else [])

/-- A shard record. -/
def shardRecord (s : State) (im : Image) (p : Hank) : List Byte :=
  let b := masterBuf s p
  let vals := shardValueBytes im.hanks.adamw b
  wordsBytes (padWords 64 ([ckptMagic, typeWord 3, w32 (256 + vals.length)] ++ indexWords s.stp.stepIndex ++
    [w32 p.layer, w32 p.firstTile, w32 p.tileCount] ++ words64 b.w.length ++ [w32 (b2n im.hanks.adamw), b.b1t, b.b2t])) ++ vals

/-- Scale-table entries (R400): ρ of every hank. -/
def scaleTableWords (s : State) : List Word :=
  (hankPlan s).flatMap fun p =>
    let rho := match s.hank p.tag with | some h => h.rho | none => p.initRel
    [w32 (p.tag * 4096), w32 (unsigned 16 rho * 65536 + p.kind * 2 ^ 14 + p.layer), w32 p.firstTile, w32 p.tileCount]

/-- Low-rank Q of every layer that has one. -/
def lowRankWords (s : State) : List Word :=
  s.reel.lowRank.flatMap fun x => w32 (x.layer * 65536 + rankOfLayer s x.layer) :: x.q

/-- The job-state record, sealed under the given key. -/
def jobRecord (s : State) (im : Image) (key : Word × BitVec 256) : List Byte :=
  let n := numericNow s.num
  let tail := [scaleWord n.e n.clean] ++ (n.modes.map fun l => layerStateWord { l with requested := false }) ++ scaleTableWords s ++
    lowRankWords s
  let body := im.job.seedCommitment
  let len := 64 + 32 + 4 + 32 + 4 * tail.length
  let hdr := wordsBytes (padWords 16 ([ckptMagic, typeWord 2, w32 len] ++ indexWords s.stp.stepIndex ++ indexWords s.stp.batch ++
    [w32 n.modes.length, w32 (hankPlan s).length, w32 s.reel.lowRank.length]))
  let sealed := fixBytes 32 (Config.gcmSeal (leBytes 32 key.2.toNat) (ckptIv s.stp.stepIndex body) hdr (seedOf s))
  hdr ++ body ++ leBytes 4 key.1.toNat ++ sealed ++ wordsBytes tail

/-- The manifest over the other records. -/
def manifest (s : State) (im : Image) (job : List Byte) (shards : List (Hank × List Byte)) : List Byte :=
  let entries := shards.flatMap fun p =>
    wordsBytes [w32 (p.1.tag * 4096), w32 p.1.layer, w32 p.1.firstTile, w32 p.1.tileCount] ++ shake256 32 p.2
  let hdr := wordsBytes (padWords 64 ([ckptMagic, typeWord 1, w32 (256 + entries.length + 3584),
    w32 (rankOf s * 65536 + deviceCount s)] ++ indexWords s.stp.stepIndex ++ indexWords s.stp.batch ++ bytesWords 16 s.warp.logicalHash ++
    bytesWords 8 (shapeDigest im) ++ bytesWords 8 (shake256 32 job) ++ bytesWords 8 s.sec.pairDigest ++ [w32 shards.length, 0] ++
    words64 moduleSerial))
  let signed := hdr ++ entries
  let d := sha512 signed
  signed ++ fixBytes 64 (Config.edSign edSeed d) ++ fixBytes 3309 (Config.mlSign mlSeed d (ascii "DVK-CKPT")) ++
    List.replicate (3584 - 64 - 3309) 0

/-- A whole checkpoint. -/
def checkpoint (s : State) (im : Image) (key : Word × BitVec 256) : List Byte :=
  let shards := (ownShards s).map fun p => (p, shardRecord s im p)
  let job := jobRecord s im key
  pad256 (manifest s im job shards) ++ pad256 job ++ shards.flatMap fun p => pad256 p.2

/-- Fields of CKPT_SAVE and CKPT_RESTORE. -/
def ckptFields (d : Desc) : List (Nat × Option Nat) :=
  [(0x02, firstBad ((0, hdrClear (wordAt d.words 0) && !wbit (wordAt d.words 0) 0) :: zeroFrom 6 d.words)),
   (0x03, firstBad [(2, aligned64 (nat64 d.words 2)), (4, aligned64 (nat64 d.words 4))])]

/-- The sealing key in use: which of several the spec does not say (log entry 42). -/
def sealKey (s : State) : Option (Word × BitVec 256) × State :=
  match s.flash.sealKeys with
  | [] => (none, s)
  | k :: ks => let r := freePick (ks.length + 1) s; (some ((k :: ks).getD r.1 k), r.2)

/-- Write the checkpoint out. -/
def writeCheckpoint (d : Desc) (bs : List Byte) (s : State) : State :=
  let s1 := (hostWrite (nat64 d.words 2) bs s).onPly fun y => { y with ckptOp := 1, ckptAccepted := true, ckptCause := 0 }
  completeHead 0 { status := 0, bytes := bs.length, batch := s.stp.batch } (raiseExec 0x2130 [s.stp.stepIndex, bs.length] s1)

/-- The update engines read this device's shards for a checkpoint: committed state that cannot be read is lost (R306, R307). -/
def readShards (err : Option UnitError) (s : State) : State × Bool :=
  (ownShards s).foldl (fun x p => let r := readShard p x.1; (r.1, x.2 && r.2)) (engineError 3 tableUnit err s)

/-- CKPT_SAVE runs between steps, once the agreed scales and the ply digest of the last commit are here. A shard that cannot be read leaves
no job state to save (log entry 179). -/
def saveHead (err : Option UnitError) (d : Desc) (s : State) : State :=
  if s.stp.inStep || s.stp.desc.isSome || !(s.reel.hanks.all (·.agreed)) ||
      decide (s.reel.initialised ∧ s.reel.leafStep ≤ s.stp.stepIndex) then s
  else
    let can := s.nep.seed.isSome && s.reel.initialised && !s.flash.sealKeys.isEmpty
    checkedHead 0 (ckptFields d ++ [(0x04, noImage s), (0x12, failIf (!can))]) (fun t =>
      let r := readShards err t
      match r.1.warp.image, if r.2 then sealKey r.1 else (none, r.1) with
      | some im, (some key, t1) =>
        let bs := checkpoint t1 im key
        checkedHead 0 [(0x13, if nat64 d.words 4 < bs.length then some bs.length else none)] (writeCheckpoint d bs) t1
      | _, x => checkedHead 0 [(0x12, some 0)] (fun u => u) x.2) s

def execCkptSave (err : Option UnitError) (s : State) : Out := .next (atHead 0 4 (saveHead err) s)

-- Restoring (R402, R403).

/-- A record in the buffer: its type and its bytes. -/
structure Record where
  type : Nat
  bytes : List Byte
  deriving DecidableEq, Repr

def Record.word (r : Record) (i : Nat) : Word := w32 (leNat (slice r.bytes (4 * i) 4))
def Record.index (r : Record) (i : Nat) : Nat := (r.word i).toNat + 2 ^ 32 * wfield (r.word (i + 1)) 15 0
def Record.step (r : Record) : Nat := if r.type == 1 then r.index 4 else r.index 3

/-- Words of a job-state record after the sealed seed. -/
def jobWord (job : Record) (i : Nat) : Word := w32 (leNat (slice job.bytes (132 + 4 * i) 4))

/-- Header counts: layers, scale-table entries, low-rank layers. -/
def jobLayers (job : Record) : Nat := (job.word 7).toNat
def jobScales (job : Record) : Nat := (job.word 8).toNat
def jobLowRank (job : Record) : Nat := (job.word 9).toNat

/-- Where the words of `n` low-rank Qs that begin at word `i` end; none where one names a layer that the image has not. -/
def lowRankEnd (im : Image) (job : Record) : Nat → Nat → Option Nat
  | 0, i => some i
  | n + 1, i =>
    match im.layers.find? fun l => l.id == wfield (jobWord job i) 31 16 with
    | some l => lowRankEnd im job n (i + 1 + l.nExtent * wfield (jobWord job i) 15 0)
    | none => none

/-- A job-state record ends with its last low-rank Q. Where one is of a layer that the loaded image has not, its length is not known here, and
the least is asked. -/
def jobLengthOk (im : Image) (r : Record) : Bool :=
  let first := 1 + jobLayers r + 4 * jobScales r
  decide (132 + 4 * (first + jobLowRank r) ≤ r.bytes.length) &&
    match lowRankEnd im r (jobLowRank r) first with
    | some e => r.bytes.length == 132 + 4 * e
    | none => true

/-- The bits that no field of a record names, and the padding of a signature block, are zero (R18, R399, R400). -/
def Record.clear (r : Record) : Bool :=
  let zero (a b : Nat) : Bool := (slice r.bytes a (b - a)).all (· == 0)
  wfield (r.word 1) 7 0 == 0 && match r.type with
  | 1 =>
    let n := (r.word 48).toNat
    wfield (r.word 5) 31 16 == 0 && wfield (r.word 7) 31 16 == 0 && r.word 49 == 0 && zero 208 256 &&
      ((List.range n).all fun i =>
        let w := 64 + 12 * i
        wfield (r.word w) 11 0 == 0 && wfield (r.word (w + 1)) 31 14 == 0 && wfield (r.word (w + 3)) 31 13 == 0) &&
      zero (256 + 48 * n + 64 + 3309) (3840 + 48 * n)
  | 2 =>
    wfield (r.word 4) 31 16 == 0 && wfield (r.word 6) 31 16 == 0 && zero 40 64 && wfield (jobWord r 0) 31 29 == 0 &&
      ((List.range (jobLayers r)).all fun i => wfield (jobWord r (1 + i)) 29 16 == 0) &&
      (List.range (jobScales r)).all fun i =>
        let w := 1 + jobLayers r + 4 * i
        wfield (jobWord r w) 11 0 == 0 && wfield (jobWord r (w + 3)) 31 13 == 0
  | _ => wfield (r.word 4) 31 16 == 0 && zero 52 256

/-- The length of a record is that of its type and of the counts in its header (R399, R400); a type outside 1 to 3 has none. -/
def Record.lengthOk (im : Image) (r : Record) : Bool :=
  match r.type with
  | 1 => decide (r.bytes.length = 3840 + 48 * (r.word 48).toNat)
  | 2 => jobLengthOk im r
  | 3 => decide ((r.word 10).toNat ≤ 1 ∧
      r.bytes.length = 256 + 4 * nat64 (bytesWords 11 r.bytes) 8 * (2 + (r.word 10).toNat))
  | _ => false

/-- Read the records of a buffer, one after another on 256-byte boundaries; none for a bad magic, format, type or length. -/
def ckptRecords (im : Image) : Nat → List Byte → Option (List Record)
  | 0, bs => if bs.isEmpty then some [] else none
  | n + 1, bs =>
    if bs.isEmpty then some []
    else
      let w1 := w32 (leNat (slice bs 4 4))
      let len := leNat (slice bs 8 4)
      let r : Record := ⟨wfield w1 15 8, bs.take len⟩
      if w32 (leNat (bs.take 4)) == ckptMagic && wfield w1 31 16 == 1 && decide (len ≤ bs.length) && r.lengthOk im && r.clear then
        (ckptRecords im n (bs.drop (up256 len))).map fun rs => r :: rs
      else none

/-- The three kinds of records of a buffer with one job-state record and a manifest. -/
structure Bundle where
  manifests : List Record
  job : Record
  shards : List Record
  deriving DecidableEq, Repr

/-- FORMAT (0x01). -/
def readBundle (im : Image) (buf : List Byte) : Option Bundle :=
  match ckptRecords im (buf.length / 256 + 1) buf with
  | none => none
  | some rs =>
    let ms := rs.filter fun r => r.type == 1
    match rs.filter fun r => r.type == 2 with
    | [j] => if ms.isEmpty then none else some ⟨ms, j, rs.filter fun r => r.type == 3⟩
    | _ => none

/-- A manifest: its shard count, the serial of its module, the bytes it signs. -/
def Record.serial (r : Record) : Nat := (r.word 50).toNat + 2 ^ 32 * (r.word 51).toNat
def Record.signed (r : Record) : List Byte := r.bytes.take (r.bytes.length - 3584)
def Record.sigs (r : Record) : List Byte × List Byte :=
  let b := r.bytes.drop (r.bytes.length - 3584)
  (b.take 64, slice b 64 3309)

/-- Public keys of the module that signed: this module's own, or those of the module the serial names. -/
def signerKeys (serial : Nat) : List Byte × List Byte := if serial == moduleSerial then (deviceEd, deviceMl) else Config.moduleKeys serial

def edOk (r : Record) : Bool := Config.edVerify (signerKeys r.serial).1 (sha512 r.signed) r.sigs.1
def mlOk (r : Record) : Bool := Config.mlVerify (signerKeys r.serial).2 (sha512 r.signed) (ascii "DVK-CKPT") r.sigs.2
def signerOk (s : State) (r : Record) : Bool :=
  (if r.serial == moduleSerial then s.sec.identityOk else Config.moduleTrusted r.serial) &&
    !(s.flash.rvkNames.contains (Config.moduleCertId r.serial))

/-- What all manifests of a save share: STEP, BATCH, SHAPE_DIGEST, JOB_STATE_HASH. -/
def Record.shared (r : Record) : Nat × Nat × List Byte × List Byte := (r.index 4, r.index 6, slice r.bytes 96 32, slice r.bytes 128 32)

/-- Hashes that a manifest gives its shard records. -/
def Record.hashes (r : Record) : List (List Byte) := (List.range (r.word 48).toNat).map fun i => slice r.bytes (256 + 48 * i + 16) 32

/-- The seed of a job-state record under a key of this device. -/
def unsealed (s : State) (job : Record) : Option (List Byte) :=
  match s.flash.sealKeys.find? fun k => k.1 == w32 (leNat (slice job.bytes 96 4)) with
  | some k => Config.gcmOpen (leBytes 32 k.2.toNat) (ckptIv job.step (slice job.bytes 64 32)) (job.bytes.take 64) (slice job.bytes 100 32)
  | none => none

/-- Low-rank Q entries of a job-state record: layer, rank, values. -/
def readLowRank (im : Image) (job : Record) : Nat → Nat → List (Nat × Nat × List Word)
  | 0, _ => []
  | n + 1, at' =>
    let h := jobWord job at'
    let l := wfield h 31 16
    let r := wfield h 15 0
    let cols := match im.layers.find? fun x => x.id == l with | some x => x.nExtent | none => 0
    (l, r, (List.range (cols * r)).map fun i => jobWord job (at' + 1 + i)) :: readLowRank im job n (at' + 1 + cols * r)

def jobQs (im : Image) (job : Record) : List (Nat × Nat × List Word) :=
  readLowRank im job (jobLowRank job) (1 + jobLayers job + 4 * jobScales job)

/-- A shard record's tile range and values. -/
def Record.covers (r : Record) (layer tile : Nat) : Bool :=
  (r.word 5).toNat == layer && decide ((r.word 6).toNat ≤ tile ∧ tile < (r.word 6).toNat + (r.word 7).toNat)

/-- Elements of a shard that one tile of its hank holds. -/
def tileElems (l : Layer) (p : Hank) (tile : Nat) : Nat := (shardCoords l { p with firstTile := tile, tileCount := 1 }).length

/-- Words of a tile in a record: array `k` (0 master, 1 m, 2 v). -/
def recordTile (l : Layer) (p : Hank) (r : Record) (k tile : Nat) : List Word :=
  let first := (r.word 6).toNat
  let before := ((List.range (tile - first)).map fun i => tileElems l p (first + i)).sum
  let count := (r.word 8).toNat
  let n := tileElems l p tile
  bytesWords n (slice r.bytes (256 + 4 * (k * count + before)) (4 * n))

/-- COVERAGE (0x0C) of one shard. -/
def shardCovered (rs : List Record) (p : Hank) : Bool :=
  let tiles := (List.range p.tileCount).map (p.firstTile + ·)
  let cov := rs.filter fun r => tiles.any fun t => r.covers p.layer t
  (tiles.all fun t => (rs.filter fun r => r.covers p.layer t).length == 1) &&
    match cov with
    | [] => false
    | r :: more => more.all fun x => x.word 10 == r.word 10 && x.word 11 == r.word 11 && x.word 12 == r.word 12

/-- Failed verifications among the manifests of a buffer (R440). -/
def manifestFails (im : Image) (buf : List Byte) : Nat :=
  match readBundle im buf with
  | some b => (b.manifests.map fun r => b2n (!edOk r) + b2n (!mlOk r)).sum
  | none => 0

/-- The first failing check of R402. -/
def restoreCause (s : State) (im : Image) (buf : List Byte) : Option Nat :=
  match readBundle im buf with
  | none => some 1
  | some b =>
    let m := b.manifests.headD ⟨1, []⟩
    if !b.manifests.all edOk then some 2
    else if !b.manifests.all mlOk then some 3
    else if !b.manifests.all (signerOk s) then some 4
    else if !b.manifests.all fun x => x.shared == m.shared then some 5
    else if shake256 32 b.job.bytes != m.shared.2.2.2 then some 6
    else if shapeDigest im != m.shared.2.2.1 then some 7
    else if slice b.job.bytes 64 32 != im.job.seedCommitment then some 8
    else if !(s.flash.sealKeys.any fun k => k.1 == w32 (leNat (slice b.job.bytes 96 4))) then some 9
    else if (match unsealed s b.job with | some seed => seedCommitment seed != im.job.seedCommitment | none => true) then some 10
    else if !b.shards.all fun r => (b.manifests.flatMap Record.hashes).contains (shake256 32 r.bytes) then some 11
    else if !(ownShards s).all (shardCovered b.shards) then some 12
    else if !(lowRankLayers s).all fun l => (jobQs im b.job).any fun q => q.1 == l.id && q.2.1 == rankOfLayer s l.id then some 13
    else none

/-- The values of one restored shard. -/
def restoreBuf (im : Image) (rs : List Record) (l : Layer) (p : Hank) : ShardBuf :=
  let tiles := (List.range p.tileCount).map (p.firstTile + ·)
  let arr (k : Nat) : List Word := tiles.flatMap fun t =>
    match rs.find? fun r => r.covers p.layer t with
    | some r => recordTile l p r k t
    | none => []
  let r := (rs.find? fun r => tiles.any fun t => r.covers p.layer t).getD ⟨3, []⟩
  ⟨r.word 11, r.word 12, arr 0, arr 1, if im.hanks.adamw then arr 2 else []⟩

/-- Write the shards that this device owns (R403). -/
def restoreShards (im : Image) (b : Bundle) (s : State) : State :=
  (ownShards s).foldl (fun t p =>
    match layerOf s p.layer with
    | some l => startShard p (restoreBuf im b.shards l p) t
    | none => t) (s.onReel fun r => { r with shards := [] })

/-- ρ of a hank: that of the entry with the same tag, layer, first tile and tile count (R403). -/
def restoreRho (job : Record) (p : Hank) : Int :=
  let base := 1 + jobLayers job
  let hit (i : Nat) : Bool :=
    wfield (jobWord job (base + 4 * i)) 31 12 == p.tag && wfield (jobWord job (base + 4 * i + 1)) 13 0 == p.layer &&
      (jobWord job (base + 4 * i + 2)).toNat == p.firstTile && wfield (jobWord job (base + 4 * i + 3)) 12 0 == p.tileCount
  match (List.range (jobScales job)).find? hit with
  | some i => signed 16 (wfield (jobWord job (base + 4 * i + 1)) 31 16)
  | none => p.initRel

/-- The fallback state of a layer. -/
def restoreLayer (w : Word) : LayerNum := ⟨modeOfCode (wfield w 31 30), wfield w 15 0, false⟩

/-- The numeric state of a record (R403). -/
def restoreNum (job : Record) (n : NumBlk) : NumBlk :=
  { n with e := signed 8 (wfield (jobWord job 0) 7 0), clean := wfield (jobWord job 0) 28 8, next := none
           layers := (n.layers.zipIdx).map fun p => if p.2 < jobLayers job then restoreLayer (jobWord job (1 + p.2)) else p.1 }

/-- The reel state of a record (R403). -/
def restoreReel (s : State) (im : Image) (b : Bundle) (step : Nat) (r : ReelBlk) : ReelBlk :=
  { r with
    lowRank := (lowRankLayers s).map fun l =>
      { layer := l.id, q := match (jobQs im b.job).find? fun q => q.1 == l.id with | some q => q.2.2 | none => []
        p := List.replicate (l.kExtent * rankOfLayer s l.id) 0, phat := [], qNext := List.replicate (l.nExtent * rankOfLayer s l.id) 0
        gotP := [], gotQ := [], pDone := false }
    hanks := (hankPlan s).map fun p => HankRt.first { p with initRel := restoreRho b.job p }
    leaves := r.leaves.filter fun x => x.step == step, own := [], leafStep := step, leafAsked := [], initialised := true }

/-- Take an accepted checkpoint (R403). No suspect and no digest of another job goes with it. The bias and column-scale vectors are those that
the seed gives: no step changes them (R404, log entry 148). -/
def restoreFrom (im : Image) (b : Bundle) (s : State) : State :=
  let step := b.job.index 3
  let batch := b.job.index 5
  let s1 : State :=
    { s with
      nep := { s.nep with seed := unsealed s b.job }
      num := restoreNum b.job s.num
      stp := { s.stp with stepIndex := step, batch := batch, nextSettled := true, nextReason := 3, execRecords := [] }
      reel := restoreReel s im b step s.reel
      ply := { s.ply with ckptOp := 2, ckptAccepted := true, ckptCause := 0, suspects := [], excluded := [] } }
  raiseExec 0x2131 [step, batch] (sendLeaves (emitOwn (awaitParams (initVectors (restoreShards im b s1)))))

/-- A refused restore changes nothing but the status of the last operation (R402, R407). -/
def refuseRestore (cause : Nat) (s : State) : State :=
  refuseHead 0 0x15 cause <| raiseExec 0x2132 [cause] <|
    s.onPly fun y => { y with ckptOp := 2, ckptAccepted := false, ckptCause := cause }

/-- Checks of CKPT_RESTORE before the buffer's own; `poisoned`: a read of it returned poison. -/
def restoreChecks (s : State) (poisoned : Bool) (d : Desc) : List (Nat × Option Nat) :=
  ckptFields d ++ [(0x04, noImage s), (0x10, if poisoned then some 2 else none), (0x12, failIf s.stp.stepSeen)]

def restoreHead (buffer : List Byte) (poisoned : Bool) (d : Desc) (s : State) : State :=
  checkedHead 0 (restoreChecks s poisoned d) (fun t =>
    match t.warp.image with
    | none => t
    | some im =>
      let buf := fit (nat64 d.words 4) buffer
      match restoreCause t im buf with
      | some c => refuseRestore c (countSigFail (manifestFails im buf) t)
      | none =>
        match readBundle im buf with
        | some b => completeHead 0 { status := 0, batch := t.stp.batch } (restoreFrom im b t)
        | none => t) s

/-- CKPT_RESTORE: `buffer` is what the host memory holds at BUFFER. -/
def execCkptRestore (buffer : List Byte) (poisoned : Bool) (s : State) : Out := .next (atHead 0 5 (restoreHead buffer poisoned) s)

-- Reads that are not answered (R369).

/-- The descriptor that reads host memory now: the copy that runs, or the head of a queue whose turn it is. -/
def readsNow (q : QueueIx) (s : State) : Option Desc :=
  let x := s.queue q
  if x.st != .enabled then none
  else if q == 1 then x.running.or x.fetched.head?
  else
    match x.running, x.fetched with
    | none, d :: _ =>
      let waits := match d.type with
        | 1 => s.stp.desc.isSome || s.stp.running
        | 2 => s.stp.inStep || s.stp.desc.isSome
        | _ => false
      if waits then none else some d
    | _, _ => none

/-- The checks that the descriptor meets when the read of the data that `word` names has failed. -/
def readChecks (q : QueueIx) (table tokens reqTable : List Word) (word : Nat) (d : Desc) (s : State) : List (Nat × Option Nat) :=
  match q.val, d.type with
  | 0, 1 => stepChecks s d (stepIn d table tokens (some word))
  | 0, 2 => inferChecks s d (inferIn d table tokens (some word)) reqTable
  | 0, 5 => restoreChecks s true d
  | 1, 0x10 => copyChecks s d true true
  | _, _ => []

/-- A read of a table or of data is not answered within 2 ms (R368, R369): the descriptor completes HOST_READ_FAILED, unless a status that
comes before it applies. -/
def readTimeout (q : QueueIx) (table tokens reqTable : List Word) (word : Nat) (s : State) : State :=
  match readsNow q s with
  | none => s
  | some d =>
    match (s.queue q).running, firstStatus (readChecks q table tokens reqTable word d s) with
    | some _, _ => if d.type == 0x10 then copyInRun [] true none d (s.queue 1).moved (raise 0x5023 [q.val, d.slot] s) else s
    | none, some (0x10, w) => refuseHead q 0x10 w (raise 0x5023 [q.val, d.slot] s)
    | none, some c => refuseHead q c.1 c.2 s
    | none, none => s

def execDataReadTimeout (q : QueueIx) (seqTable tokens reqTable : List Word) (word : Nat) (s : State) : Out :=
  .next (readTimeout q seqTable tokens reqTable word s)

end Sys2Proof.Machine
end

