-- ==== Sys2Proof/Machine/ImageParse.lean ====
section
/-! DEFINITION. Reading a warp image (R52 to R60, R156, R219, R258, R293, R375): header, directory and sections as words, and the
fields of each section. Reading is total: what is missing reads zero. The rules of Validate are in LoadRules. -/

namespace Sys2Proof.Machine

/-- A field `[hi:lo]` of word `i` of a structure. -/
def fieldAt (ws : List Word) (i hi lo : Nat) : Nat := wfield (wordAt ws i) hi lo

/-- Bit `b` of word `i` of a structure. -/
def bitAt (ws : List Word) (i b : Nat) : Bool := wbit (wordAt ws i) b

/-- The 64-bit number of words `i` and `i + 1`. -/
def pairAt (ws : List Word) (i : Nat) : Nat := (wordAt ws i).toNat + 2 ^ 32 * (wordAt ws (i + 1)).toNat

-- The directory (R54).

/-- A directory entry. -/
structure DirEntry where
  type : Nat
  version : Nat
  offset : Nat
  length : Nat
  rsv : Word
  deriving DecidableEq, Repr

def dirEntry (ws : List Word) : DirEntry :=
  ⟨fieldAt ws 0 31 16, fieldAt ws 0 15 0, (wordAt ws 1).toNat, (wordAt ws 2).toNat, wordAt ws 3⟩

/-- The header's 32 words, and the twelve directory entries after it. -/
def imageHeader (bs : List Byte) : List Word := bytesWords 32 bs
def directory (bs : List Byte) : List DirEntry := (List.range 12).map fun i => dirEntry (bytesWords 4 (bs.drop (128 + 16 * i)))

/-- Bytes that header and directory fill. -/
def headBytes : Nat := 320

/-- Section types of R52, in ascending order. -/
def sectionTypes : List Nat := [1, 2, 3, 4, 5, 0x10, 0x11, 0x12, 0x13, 0x14, 0x15, 0xFFFF]

/-- Logical sections. -/
def logicalTypes : List Nat := [1, 2, 3, 4, 5]

-- Sections.

/-- A section as read: its index in the directory, its type and its words. -/
structure Section where
  index : Nat
  type : Nat
  length : Nat
  words : List Word
  deriving DecidableEq, Repr

/-- Words of the fixed fields and of one entry that format 1 gives a section. -/
def fixedWords : Nat → Nat
  | 1 => 13
  | 3 => 4
  | 4 => 200
  | 0x10 => 8
  | 0x14 => 4
  | 0x15 => 8
  | _ => 0

def entryWords : Nat → Nat
  | 2 => 8
  | 4 => 8
  | 5 => 4
  | 0x10 => 2
  | 0x11 => 24
  | 0x12 => 8
  | 0x13 => 8
  | _ => 0

/-- Fields of the common section header. -/
def Section.headType (x : Section) : Nat := fieldAt x.words 0 31 16
def Section.fixedBytes (x : Section) : Nat := fieldAt x.words 0 15 0
def Section.entryCount (x : Section) : Nat := (wordAt x.words 1).toNat
def Section.entryBytes (x : Section) : Nat := fieldAt x.words 2 31 16

/-- The fixed fields, and entry `i`. -/
def Section.fixed (x : Section) : List Word := x.words.drop 4
def Section.entry (x : Section) (i : Nat) : List Word := (x.words.drop (4 + fixedWords x.type + i * entryWords x.type)).take (entryWords x.type)

/-- The entries: no more than the section's own length holds. -/
def Section.entries (x : Section) : List (List Word) :=
  if entryWords x.type == 0 then []
  else (List.range (min x.entryCount (x.length / (4 * entryWords x.type)))).map x.entry

/-- The sections of an image, in directory order. -/
def sections (bs : List Byte) : List Section :=
  (directory bs).zipIdx.map fun p =>
    ⟨p.2, p.1.type, p.1.length, bytesWords (ceilDiv p.1.length 4) (slice bs p.1.offset p.1.length)⟩

/-- The section of a type; an empty one where there is none. -/
def sectionOf (xs : List Section) (type : Nat) : Section :=
  match xs.find? fun x => x.type == type with
  | some x => x
  | none => ⟨0xFF, type, 0, []⟩

-- Fields of the sections.

def readJob (ws : List Word) : Job :=
  { deviceCount := fieldAt ws 0 31 16, topology := fieldAt ws 0 15 8, managerRank := fieldAt ws 1 31 16, torusX := fieldAt ws 2 31 16
    torusY := fieldAt ws 2 15 0, nonreproAck := bitAt ws 3 1, exactReel := bitAt ws 3 0
    seedCommitment := wordsBytes ((List.range 8).map fun i => wordAt ws (4 + i)), layerCount := fieldAt ws 12 15 0 }

def readLayer (ws : List Word) : Layer :=
  { id := fieldAt ws 0 31 16, kind := fieldAt ws 0 15 8, stage := fieldAt ws 0 7 0, scaleShift := signed 8 (fieldAt ws 1 31 24)
    kExtent := fieldAt ws 1 23 0, nExtent := fieldAt ws 2 23 0, actFmt := fieldAt ws 3 31 28, weightFmt := fieldAt ws 3 27 24
    gradFmt := fieldAt ws 3 23 20, actStaple := fieldAt ws 3 19 18, weightStaple := fieldAt ws 3 17 16
    gradStaple := fieldAt ws 3 15 14, actTwist := fieldAt ws 3 13 12, weightTwist := fieldAt ws 3 11 10
    gradTwist := fieldAt ws 3 9 8, ply := fieldAt ws 3 7 6, wide := bitAt ws 3 5, narrowOverride := bitAt ws 3 4
    stochastic := bitAt ws 3 3, lowRank := bitAt ws 3 2, priority := fieldAt ws 4 31 16, activation := fieldAt ws 4 15 13
    bias := bitAt ws 4 12, colScale := bitAt ws 4 11, heads := fieldAt ws 4 10 0, headDim := fieldAt ws 6 10 0
    satLimit := fieldAt ws 5 31 16, underflowLimit := fieldAt ws 5 15 0, slubLimit := fieldAt ws 6 31 16
    ratioHi := signed 16 (fieldAt ws 7 31 16), ratioLo := signed 16 (fieldAt ws 7 15 0) }

def readNumeric (ws : List Word) : Numeric :=
  { budget := fieldAt ws 0 31 16, hysteresis := fieldAt ws 0 15 0, k := fieldAt ws 1 27 24, g := fieldAt ws 1 20 0
    initE := signed 8 (fieldAt ws 2 15 8), slubCap := fieldAt ws 2 5 4, outlierLog2 := fieldAt ws 2 3 0 }

def readHank (ws : List Word) : Hank :=
  { tag := fieldAt ws 0 31 12, owner := fieldAt ws 1 31 16, kind := fieldAt ws 1 15 14, layer := fieldAt ws 1 13 0
    firstTile := (wordAt ws 2).toNat, tileCount := fieldAt ws 3 12 0, initRel := signed 16 (fieldAt ws 4 31 16)
    decay := bitAt ws 4 0, rank := fieldAt ws 5 8 0 }

/-- Breakpoint `i` of LR_TABLE: step and rate. -/
def lrPoint (ws : List Word) (i : Nat) : Nat × Word :=
  ((wordAt ws (8 + 3 * i)).toNat + 2 ^ 32 * fieldAt ws (9 + 3 * i) 15 0, wordAt ws (10 + 3 * i))

def readHanks (ws : List Word) (es : List (List Word)) : Hanks :=
  { ctxGroup := fieldAt ws 0 31 16, twoPathLog2 := fieldAt ws 0 4 0, exactGroupSeqs := fieldAt ws 1 31 16
    exactGroupsLog2 := fieldAt ws 1 4 0, adamw := fieldAt ws 2 31 28 == 1, nesterov := bitAt ws 2 27, beta1 := wordAt ws 3
    beta2 := wordAt ws 4, epsilon := wordAt ws 5, weightDecay := wordAt ws 6, gradNorm := wordAt ws 7
    lr := (List.range (fieldAt ws 2 5 0)).map (lrPoint ws), entries := es.map readHank }

def readStream (ws : List Word) : Stream :=
  { id := wordAt ws 0, mode := fieldAt ws 1 31 30, initConstant := bitAt ws 1 29, dropRate := fieldAt ws 1 15 0
    initScale := wordAt ws 2 }

def readPlaced (ws : List Word) : Placed := ⟨fieldAt ws 0 31 16, fieldAt ws 0 15 0, fieldAt ws 1 10 0⟩

def readPlace (ws : List Word) (es : List (List Word)) : Place :=
  { rank := fieldAt ws 0 31 16, stageCount := fieldAt ws 0 15 0, microBatchSeqs := fieldAt ws 1 31 16
    ports := (List.range 9).map fun p => fieldAt ws (2 + p / 4) (8 * (p % 4) + 7) (8 * (p % 4)), cores := es.map readPlaced }

/-- Hop code `i` of a ROUTES entry. -/
def hopAt (ws : List Word) (i : Nat) : Nat := fieldAt ws (3 + i / 2) (16 * (i % 2) + 15) (16 * (i % 2))

def readRoute (ws : List Word) : Route :=
  { srcKind := fieldAt ws 0 31 28, srcIndex := fieldAt ws 0 27 16, dstKind := fieldAt ws 0 15 12, dstIndex := fieldAt ws 0 11 0
    bandwidth := (wordAt ws 1).toNat, hops := (List.range (fieldAt ws 2 5 0)).map (hopAt ws) }

def readRegion (ws : List Word) : Region :=
  { kind := fieldAt ws 0 31 24, stage := fieldAt ws 0 23 16, layer := fieldAt ws 0 13 0, tag := fieldAt ws 1 31 12
    stack := fieldAt ws 2 31 29, cluster := fieldAt ws 2 15 0, offset := (wordAt ws 3).toNat + 2 ^ 32 * fieldAt ws 4 4 0, size := pairAt ws 5 }

def readShuttle (ws : List Word) : ShuttleCfg :=
  { stack := fieldAt ws 0 7 5, channel := fieldAt ws 0 4 0
    weights := [fieldAt ws 1 26 16, fieldAt ws 1 10 0, fieldAt ws 2 26 16, fieldAt ws 2 10 0, fieldAt ws 3 26 16]
    bursts := [fieldAt ws 4 26 16, fieldAt ws 4 10 0, fieldAt ws 5 26 16, fieldAt ws 5 10 0, fieldAt ws 6 26 16] }

def readDeadline (ws : List Word) : Deadline :=
  { us := (wordAt ws 0).toNat, freeDraft := bitAt ws 1 16, minCap := fieldAt ws 1 15 0, fbCycles := pairAt ws 2
    gtailUs := (wordAt ws 4).toNat, uUs := (wordAt ws 5).toNat, cUs := (wordAt ws 6).toNat, pUs := (wordAt ws 7).toNat }

/-- The whole image. -/
def readImage (bs : List Byte) : Image :=
  let xs := sections bs
  let at_ := sectionOf xs
  { bytes := bs, job := readJob (at_ 1).fixed, layers := (at_ 2).entries.map readLayer, numeric := readNumeric (at_ 3).fixed
    hanks := readHanks (at_ 4).fixed (at_ 4).entries, nep := (at_ 5).entries.map readStream
    place := readPlace (at_ 0x10).fixed (at_ 0x10).entries, routes := (at_ 0x11).entries.map readRoute
    memory := (at_ 0x12).entries.map readRegion, shuttle := (at_ 0x13).entries.map readShuttle
    plyLog2 := fieldAt (at_ 0x14).fixed 0 4 0, updateLog2 := fieldAt (at_ 0x14).fixed 0 12 8
    deadline := readDeadline (at_ 0x15).fixed }

-- Hashes (R52, R60).

/-- The signed region: every byte before the SIGNATURE section. -/
def imageRegion (bs : List Byte) : List Byte :=
  match (directory bs).find? fun e => e.type == 0xFFFF with
  | some e => bs.take e.offset
  | none => bs

def imageHashOf (bs : List Byte) : List Byte := sha512 (imageRegion bs)

/-- Type, length and bytes of a section, as the logical hash takes them. -/
def sectionBytes (bs : List Byte) (type : Nat) : List Byte :=
  match (directory bs).find? fun e => e.type == type with
  | some e => leBytes 2 type ++ leBytes 4 e.length ++ slice bs e.offset e.length
  | none => []

def logicalHashOf (bs : List Byte) : List Byte := sha512 (logicalTypes.flatMap (sectionBytes bs))

/-- The parts of the SIGNATURE section (R60). -/
structure SigSection where
  keyId : Word
  ed : List Byte
  ml : List Byte
  pad : List Byte
  deriving DecidableEq, Repr

def signatureOf (bs : List Byte) : SigSection :=
  match (directory bs).find? fun e => e.type == 0xFFFF with
  | some e =>
    let x := slice bs e.offset e.length
    ⟨w32 (leNat (x.take 4)), slice x 4 64, slice x 68 3309, x.drop 3377⟩
  | none => ⟨0, [], [], []⟩

/-- Bytes of the three parts of a SIGNATURE section; zero padding to a multiple of 256 follows (R60). -/
def signatureBytes : Nat := 3377

end Sys2Proof.Machine
end

