-- ==== Sys2Proof/Machine/LoadRules.lean ====
section
/-! DEFINITION. The rules of the loader's Verify and Validate stages (R53 to R61, R68, R156, R219, R220, R258, R259, R293, R294, R317,
R375, R484, R486). A rule that fails at one place (a section's fixed fields, one entry, a section as a whole) gives its refusal code;
the places stand in the order of R484. -/

namespace Sys2Proof.Machine

/-- Where rules are applied and which refusal codes fail there: directory index of the section (0xFF for header and directory) and
entry index (0xFFFFFF for a fixed field), as HUB_WARP_DETAIL gives them. -/
structure RulePlace where
  sect : Nat
  ent : Nat
  codes : List Nat
  deriving DecidableEq, Repr

/-- A refusal code where a condition holds. -/
def codeIf (c : Bool) (code : Nat) : List Nat := if c then [code] else []

/-- A field of ENTRY_INDEX for what is no entry. -/
def noEntry : Nat := 0xFFFFFF

/-- The first place at which a rule fails. -/
def firstPlace (ps : List RulePlace) : Option RulePlace := ps.find? fun p => !p.codes.isEmpty

/-- Apply `f` to each item with the items before it, newest first. -/
def eachWith {α β : Type} (f : List α → α → β) : List α → List α → List β
  | _, [] => []
  | seen, x :: xs => f seen x :: eachWith f (x :: seen) xs

/-- A reserved bit is set: word index and mask of the reserved bits. -/
def rsvSet (masks : List (Nat × Word)) (ws : List Word) : Bool := masks.any fun m => wordAt ws m.1 &&& m.2 != 0

-- Verify (R484, steps 4 to 9 and 12 to 13 of what the image holds).

/-- Do two sections share a byte? -/
def entryMeets (a b : DirEntry) : Bool := decide (a.offset < b.offset + b.length) && decide (b.offset < a.offset + a.length)

/-- Reserved bits of the header (R54). -/
def headerRsv (h : List Word) : Bool :=
  rsvSet [(3, 0xFFFFFF00), (4, 0x000000FF)] h || (h.drop 8).any fun w => w != 0

/-- Bounds, alignment and overlap of a directory entry (0x5105). -/
def boundsBad (total : Nat) (seen : List DirEntry) (e : DirEntry) : Bool :=
  e.offset % 256 != 0 || decide (e.offset < headBytes) || decide (total < e.offset + e.length) || seen.any (entryMeets e)

/-- The checks of Verify that look at header and directory alone, in order. -/
def verifyPlaces (length : Nat) (bs : List Byte) : List RulePlace :=
  let h := imageHeader bs
  let ds := directory bs
  let at_ (code : Nat) (bad : Bool) : RulePlace := ⟨0xFF, noEntry, codeIf bad code⟩
  let per (code : Nat) (f : List DirEntry → DirEntry → Bool) : List RulePlace :=
    ((eachWith f [] ds).zipIdx).map fun p => ⟨0xFF, p.2, codeIf p.1 code⟩
  [at_ 0x5101 ((wordAt h 0).toNat != 0x50524157), at_ 0x5102 (fieldAt h 1 31 16 != 1),
   at_ 0x5103 ((wordAt h 2).toNat != length || decide (2 ^ 28 < (wordAt h 2).toNat)), at_ 0x51A1 (headerRsv h),
   at_ 0x5105 (fieldAt h 3 7 0 != 12)] ++
    per 0x5105 (boundsBad length) ++ per 0x5102 (fun _ e => e.version != 1) ++
    per 0x5108 (fun _ e => !sectionTypes.contains e.type) ++ per 0x5107 (fun seen e => seen.any fun d => d.type == e.type) ++
    [at_ 0x5106 (sectionTypes.any fun t => !ds.any fun e => e.type == t)] ++
    (ds.zipIdx.map fun p =>
      ⟨0xFF, p.2, codeIf (p.1.type == 0xFFFF &&
        (p.2 != 11 || decide (p.1.length < signatureBytes) || p.1.length % 256 != 0 || p.1.offset + p.1.length != length)) 0x5109⟩) ++
    [⟨11, noEntry, codeIf ((signatureOf bs).keyId != wordAt h 6) 0x5109⟩]

/-- SECURITY_VERSION, PART_CODE and MIN_STEPPING (R484, steps 12 and 13). -/
def versionPlaces (floor : Nat) (stepping : Nat) (bs : List Byte) : List RulePlace :=
  let h := imageHeader bs
  [⟨0xFF, noEntry, codeIf (decide ((wordAt h 5).toNat < floor)) 0x5114⟩,
   ⟨0xFF, noEntry, codeIf (fieldAt h 4 31 16 != 0xD4A1 || decide (stepping < fieldAt h 4 15 8)) 0x5115⟩]

-- Section headers (R54).

/-- The header disagrees with its directory entry (0x5105). -/
def headerDisagrees (x : Section) : Bool :=
  x.headType != x.type || 16 + x.fixedBytes + x.entryCount * x.entryBytes != x.length

/-- Sizes that format 1 does not have, and reserved bits of the section header. -/
def headerCodes (x : Section) : List Nat :=
  codeIf (x.fixedBytes != 4 * fixedWords x.type) 0x51A0 ++
    codeIf (if entryWords x.type == 0 then x.entryCount != 0 || x.entryBytes % 4 != 0 else x.entryBytes != 4 * entryWords x.type) 0x51A0 ++
    codeIf (rsvSet [(2, 0x0000FFFF), (3, 0xFFFFFFFF)] x.words) 0x51A1

-- JOB (R55).

def jobCodes (ws : List Word) : List Nat :=
  let j := readJob ws
  codeIf (j.deviceCount == 0 || decide (16384 < j.deviceCount)) 0x5120 ++
    codeIf (decide (2 < j.topology) || (j.topology == 1 && j.torusX * j.torusY != j.deviceCount) ||
      (j.topology == 2 && decide (j.deviceCount < 4))) 0x5122 ++
    codeIf (j.topology != 1 && (j.torusX != 0 || j.torusY != 0)) 0x51A0 ++ codeIf (decide (j.deviceCount ≤ j.managerRank)) 0x5121 ++
    codeIf (j.layerCount == 0 || decide (16384 < j.layerCount)) 0x51A0 ++
    codeIf (rsvSet [(0, 0xFF), (1, 0xFFFF), (3, 0xFFFFFFFC), (12, 0xFFFF0000)] ws) 0x51A1

-- LAYERS (R57, R486).

/-- A staple code's size (R57). -/
def stapleOf (code : Nat) : Nat := 16 * 2 ^ code

/-- A twist code's block size; 1 without a twist. -/
def twistOf (code : Nat) : Nat := if code == 0 then 1 else 8 * 2 ^ code

/-- A format is K4, K8a or K8g. -/
def narrowFmt (f : Nat) : Bool := decide (f ≤ 2)

/-- A layer that runs narrow: WIDE 0 and PLY 0 (R57). -/
def Layer.narrow (l : Layer) : Bool := !l.wide && l.ply == 0

/-- Layers that have parameters (R220). -/
def Layer.hasParams (l : Layer) : Bool := l.kind == 0 || l.kind == 3 || l.kind == 4 || l.kind == 5

/-- The three products of R486: format, staple code and twist code of both operands, and the extent checked (none along tokens). -/
def productPairs (l : Layer) : List ((Nat × Nat × Nat) × (Nat × Nat × Nat) × Option Nat) :=
  let a := (l.actFmt, l.actStaple, l.actTwist)
  let w := (l.weightFmt, l.weightStaple, l.weightTwist)
  let g := (l.gradFmt, l.gradStaple, l.gradTwist)
  [(a, w, some l.kExtent), (g, w, some l.nExtent), (a, g, none)]

/-- R486 for one layer. -/
def pairCodes (l : Layer) : List Nat :=
  if l.narrow then
    (productPairs l).flatMap fun p =>
      let x := p.1
      let y := p.2.1
      if narrowFmt x.1 && narrowFmt y.1 then
        codeIf (x.2.1 != y.2.1) 0x5143 ++ codeIf (x.2.2 != y.2.2) 0x5142 ++
          (match p.2.2 with
           | some n => codeIf ([stapleOf x.2.1, stapleOf y.2.1, twistOf x.2.2, twistOf y.2.2].any fun d => n % d != 0) 0x5141
           | none => [])
      else []
  else []

/-- HEADS, HEAD_DIM and SCALE_SHIFT (R57). -/
def attentionBad (l : Layer) : Bool :=
  let att := l.kind == 1 || l.kind == 2
  (if att then l.heads == 0 || decide (l.headDim < 16) || decide (1024 < l.headDim) || l.headDim % 16 != 0
   else l.heads != 0 || l.headDim != 0) ||
    (if l.kind == 1 then decide (l.scaleShift < -64) || decide (64 < l.scaleShift) else l.scaleShift != 0)

def layerCodes (im : Image) (ws : List Word) (seen : List Layer) (l : Layer) : List Nat :=
  codeIf (decide (im.job.layerCount ≤ l.id) || seen.any fun x => x.id == l.id) 0x5147 ++
    codeIf (decide (6 < l.kind) || decide (4 < l.activation) || decide (4 < l.actFmt) || decide (4 < l.weightFmt) ||
      decide (4 < l.gradFmt)) 0x5140 ++
    codeIf (decide (im.place.stageCount ≤ l.stage)) 0x5132 ++ codeIf (l.kExtent == 0) 0x5141 ++ pairCodes l ++
    codeIf ((l.wide && l.ply != 0) || (l.ply != 0 && (narrowFmt l.actFmt || narrowFmt l.weightFmt || narrowFmt l.gradFmt)) ||
      ((l.kind == 3 || l.kind == 4 || l.kind == 5) && !l.wide && l.ply != 3 && !l.narrowOverride)) 0x5144 ++
    codeIf (l.narrow && seen.any fun x => x.narrow && x.priority == l.priority) 0x5145 ++
    codeIf (l.satLimit == 0 || l.underflowLimit == 0 || l.slubLimit == 0 || decide (l.ratioHi ≤ l.ratioLo)) 0x5146 ++
    codeIf (l.lowRank && (l.wide || !l.hasParams)) 0x5164 ++ codeIf (attentionBad l) 0x51A0 ++
    codeIf (rsvSet [(2, 0xFF000000), (3, 0x00000003), (6, 0x0000F800)] ws) 0x51A1

-- NUMERIC (R156).

def numericCodes (im : Image) (ws : List Word) : List Nat :=
  let n := readNumeric ws
  codeIf (decide ((im.layers.filter Layer.narrow).length < 2 * n.budget)) 0x5150 ++ codeIf (n.hysteresis == 0) 0x5151 ++
    codeIf (n.k == 0 || decide (8 < n.k) || n.g == 0 || decide (1048576 < n.g) || decide (n.initE < -64) || decide (64 < n.initE)) 0x5152 ++
    codeIf (n.outlierLog2 == 0 || decide (8 < n.outlierLog2)) 0x51A0 ++
    codeIf (rsvSet [(1, 0xF0E00000), (2, 0xFFFF00C0), (3, 0xFFFFFFFF)] ws) 0x51A1

-- HANKS (R219, R220).

/-- binary32 patterns: a value in [0, 1), zero or positive and finite, positive and finite. -/
def inUnitInterval (w : Word) : Bool := decide (w.toNat < 0x3F800000) || w == 0x80000000
def isNonnegFinite (w : Word) : Bool := decide (w.toNat < 0x7F800000) || w == 0x80000000
def isPosFinite (w : Word) : Bool := w != 0 && decide (w.toNat < 0x7F800000)

/-- LR_TABLE: used points ascend and hold rates; unused points are zero. -/
def lrBad (ws : List Word) : Bool :=
  let n := fieldAt ws 2 5 0
  (List.range 64).any fun i =>
    let p := lrPoint ws i
    if i < n then !isNonnegFinite p.2 || fieldAt ws (9 + 3 * i) 31 16 != 0 || (decide (0 < i) && decide (p.1 ≤ (lrPoint ws (i - 1)).1))
    else wordAt ws (8 + 3 * i) != 0 || wordAt ws (9 + 3 * i) != 0 || wordAt ws (10 + 3 * i) != 0

def hanksCodes (im : Image) (ws : List Word) : List Nat :=
  let h := im.hanks
  let n := fieldAt ws 2 5 0
  codeIf (h.ctxGroup == 0 || im.job.deviceCount % h.ctxGroup != 0) 0x51A0 ++ codeIf (decide (16 < h.twoPathLog2)) 0x5165 ++
    codeIf (if im.job.exactReel then h.exactGroupSeqs == 0 || decide (24 < h.exactGroupsLog2)
      else h.exactGroupSeqs != 0 || h.exactGroupsLog2 != 0) 0x51A0 ++
    codeIf (decide (1 < fieldAt ws 2 31 28) || (h.adamw && h.nesterov) || n == 0 || decide (64 < n)) 0x51A0 ++
    codeIf (!inUnitInterval h.beta1 || (if h.adamw then !inUnitInterval h.beta2 || !isPosFinite h.epsilon else h.beta2 != 0 || h.epsilon != 0) ||
      !isNonnegFinite h.weightDecay || !isPosFinite h.gradNorm || lrBad ws) 0x51A0 ++
    codeIf (rsvSet [(0, 0x0000FFE0), (1, 0x0000FFE0), (2, 0x07FFFFC0)] ws) 0x51A1

/-- Tiles of the grid that hanks of this kind cover (R217, R243). -/
def gridTiles (l : Layer) (kind rank : Nat) : Nat :=
  if kind == 0 then ceilDiv l.kExtent 128 * ceilDiv l.nExtent 128
  else if kind == 1 then ceilDiv l.kExtent 128 * ceilDiv rank 128 else ceilDiv l.nExtent 128 * ceilDiv rank 128

/-- A hank covers tiles it may not cover, or that another covers (0x5161). -/
def coverageBad (im : Image) (seen : List Hank) (h : Hank) : Bool :=
  match im.layers.find? fun l => l.id == h.layer with
  | none => false
  | some l =>
    !l.hasParams || (l.lowRank == (h.kind == 0)) || decide (gridTiles l h.kind h.rank < h.firstTile + h.tileCount) ||
      seen.any fun x => x.layer == h.layer && x.kind == h.kind && decide (x.firstTile < h.firstTile + h.tileCount) &&
        decide (h.firstTile < x.firstTile + x.tileCount)

def hankCodes (im : Image) (ws : List Word) (seen : List Hank) (h : Hank) : List Nat :=
  codeIf (seen.any fun x => x.tag == h.tag) 0x5160 ++ codeIf (h.tileCount == 0 || decide (4096 < h.tileCount)) 0x5162 ++
    codeIf (decide (im.job.deviceCount ≤ h.owner)) 0x5163 ++ codeIf (coverageBad im seen h) 0x5161 ++
    codeIf (h.kind == 3 || (h.kind == 0 && h.rank != 0) || im.layers.all fun l => l.id != h.layer) 0x51A0 ++
    codeIf (h.kind != 0 && (h.rank == 0 || decide (256 < h.rank) ||
      seen.any fun x => x.layer == h.layer && x.kind != 0 && x.rank != h.rank)) 0x5164 ++
    codeIf (rsvSet [(0, 0x00000FFF), (3, 0xFFFFE000), (4, 0x0000FFFE), (5, 0xFFFFFE00), (6, 0xFFFFFFFF), (7, 0xFFFFFFFF)] ws) 0x51A1

/-- Tiles of a layer that hanks of a kind cover. -/
def covered (im : Image) (l : Layer) (kind : Nat) : Nat :=
  ((im.hanks.entries.filter fun h => h.layer == l.id && h.kind == kind).map (·.tileCount)).sum

/-- A tile belongs to no hank (0x5161). -/
def uncovered (im : Image) : Bool :=
  im.layers.any fun l =>
    let r := match im.hanks.entries.find? fun h => h.layer == l.id && h.kind != 0 with | some h => h.rank | none => 1
    l.hasParams && (if l.lowRank then covered im l 1 != gridTiles l 1 r || covered im l 2 != gridTiles l 2 r
      else covered im l 0 != gridTiles l 0 0)

-- NEP (R257 to R259).

/-- Fields of a STREAM_ID (R257). -/
def streamUse (w : Word) : Nat := wfield w 31 30
def streamCopy (w : Word) : Nat := wfield w 29 28
def streamTensor (w : Word) : Nat := wfield w 27 24
def streamLayer (w : Word) : Nat := wfield w 23 10
def streamSlot (w : Word) : Nat := wfield w 9 0

/-- The SLOT that a tensor may name in a layer. -/
def slotOk (l : Layer) (w : Word) : Bool :=
  let t := streamTensor w
  if t == 2 then decide (streamSlot w ≤ 2) else if t == 4 then decide (streamSlot w < l.heads) else streamSlot w == 0

/-- The rules of one use. DESIGN CHOICE: an initialisation stream that names a layer without parameters breaks them (R259; log entry 188). -/
def useOk (l : Layer) (e : Stream) : Bool :=
  let t := streamTensor e.id
  match streamUse e.id with
  | 0 => decide (streamCopy e.id ≤ 1)
  | 1 => streamCopy e.id == 2 && (t == 0 || t == 4)
  | 2 => streamCopy e.id == 2 && (t == 2 || t == 3) && e.mode == 0 && l.hasParams
  | _ => streamCopy e.id == 2 && t == 8 && l.kind == 5 && e.mode == 0

/-- Fields that only one use has. -/
def useFields (e : Stream) : Bool :=
  let u := streamUse e.id
  (if u == 1 then e.dropRate != 0 else e.dropRate == 0) &&
    (if u == 2 then wfield e.initScale 30 23 != 255 && (e.initConstant || isPosFinite e.initScale)
     else !e.initConstant && e.initScale == 0)

def streamCodes (im : Image) (ws : List Word) (seen : List Stream) (e : Stream) : List Nat :=
  let t := streamTensor e.id
  codeIf (seen.any fun x => x.id == e.id) 0x51A0 ++ codeIf (decide (4 < t) && t != 8) 0x51A0 ++
    codeIf (match im.layers.find? fun l => l.id == streamLayer e.id with
      | none => true
      | some l => !slotOk l e.id || !useOk l e) 0x51A0 ++
    codeIf (e.mode == 3 || (e.mode == 2 && !(streamUse e.id == 0 && t == 1)) || !useFields e) 0x51A0 ++
    codeIf (t == 4 && streamSlot e.id != 0 && !im.nep.any fun x => x.id == e.id - 1) 0x51A0 ++
    codeIf (e.mode == 2 && !im.job.nonreproAck) 0x5124 ++ codeIf (rsvSet [(1, 0x1FFF0000), (3, 0xFFFFFFFF)] ws) 0x51A1

/-- A STOCHASTIC layer lacks a stream that R259 requires: for its output, for its activation gradient, and in an attention layer for
the probabilities of each head. Which copies of output and gradient the image has a layer write, the spec does not say how it tells (log
entry 46). -/
def streamMissing (im : Image) : Bool :=
  im.layers.any fun l =>
    let has (t slot : Nat) (c : Option Nat) : Bool := im.nep.any fun e =>
      streamUse e.id == 0 && streamTensor e.id == t && streamLayer e.id == l.id && streamSlot e.id == slot &&
        match c with | some x => streamCopy e.id == x | none => true
    let lacks (t : Nat) : Bool := (List.range 2).any fun c => Config.writesCopy im.bytes l.id t c && !has t 0 (some c)
    l.stochastic && (lacks 0 || lacks 1 || ((l.kind == 1 || l.kind == 2) && (List.range l.heads).any fun h => !has 4 h none))

-- PLACE (R59, R220, R317).

/-- Parallel indices of the ports that hold a role. -/
def roleIndices (ports : List Nat) (role : Nat) : List Nat := (ports.filter fun b => b % 16 == role).map (· / 16)

/-- A role is held by `n` ports whose parallel indices are 0 to n − 1. -/
def roleIs (ports : List Nat) (role n : Nat) : Bool :=
  let is := roleIndices ports role
  is.length == n && (List.range n).all is.contains

/-- The port plan builds the topology (0x5123). -/
def planOk (j : Job) (ports : List Nat) : Bool :=
  let n := (roleIndices ports 1).length
  let ring (k : Nat) : Bool := roleIs ports 1 k && roleIs ports 2 k
  let axis (r size : Nat) : Bool := roleIs ports r (if decide (size ≤ 1) then 0 else 1) && roleIs ports (r + 1) (if decide (size ≤ 1) then 0 else 1)
  ports.all (fun b => decide (b % 16 ≤ 6) && (b % 16 != 0 || b == 0)) &&
    (if j.topology == 1 then ring 0 && axis 3 j.torusX && axis 5 j.torusY
     else axis 3 0 && axis 5 0 &&
       (if j.deviceCount == 1 then ring 0 else if j.topology == 2 then ring n && decide (2 ≤ n) && decide (n ≤ 4) else ring 1))

def placeCodes (im : Image) (ws : List Word) : List Nat :=
  let p := im.place
  codeIf (decide (im.job.deviceCount ≤ p.rank)) 0x5121 ++ codeIf (p.stageCount == 0 || decide (256 < p.stageCount)) 0x51A0 ++
    codeIf (p.microBatchSeqs == 0) 0x51A0 ++ codeIf (im.job.exactReel && im.hanks.exactGroupSeqs % p.microBatchSeqs != 0) 0x5161 ++
    codeIf (!planOk im.job p.ports) 0x5123 ++
    codeIf (rsvSet [(1, 0x0000FFFF), (4, 0xFFFFFF00), (5, 0xFFFFFFFF), (6, 0xFFFFFFFF), (7, 0xFFFFFFFF)] ws) 0x51A1

def placedCodes (im : Image) (quarantine : BitVec 576) (ws : List Word) (seen : List Placed) (p : Placed) : List Nat :=
  codeIf (coreOf p.core).isNone 0x5133 ++
    codeIf (match coreOf p.core with | some c => quarantine.getLsbD c.val | none => false) 0x5130 ++
    codeIf (seen.any fun x => x.core == p.core) 0x5131 ++ codeIf (decide (im.place.stageCount ≤ p.stage)) 0x5132 ++
    codeIf (decide (1504 < p.spoolKib)) 0x5137 ++ codeIf (rsvSet [(1, 0xFFFFF800)] ws) 0x51A1

/-- A stage has no core (0x5132). -/
def stageEmpty (im : Image) : Bool := (List.range im.place.stageCount).any fun st => !im.place.cores.any fun p => p.stage == st

/-- Cluster number of a PLACE code. -/
def codeCluster (code : Nat) : Nat := field code 11 10 * 12 + field code 9 6

-- ROUTES (R30, R32, R36, R59).

/-- Where a hop starts or ends. -/
inductive HopEnd where
  | cluster (die cl : Nat)
  | stack (n : Nat)
  | flyer
  deriving DecidableEq, Repr

/-- Clusters of one die that a mesh link joins (R30). -/
def adjacent (a b : Nat) : Bool :=
  (a / 4 == b / 4 && (a % 4 + 1 == b % 4 || b % 4 + 1 == a % 4)) || (a % 4 == b % 4 && (a / 4 + 1 == b / 4 || b / 4 + 1 == a / 4))

/-- The cluster at which the bridge from die `d` to die `e` attaches. -/
def bridgeCluster (d e : Nat) : Nat := if (e + 4 - d) % 4 == 1 then 3 else if (e + 4 - d) % 4 == 2 then 7 else 9

/-- The ends of a hop; none where no link of the package has that code. -/
def hopEnds (code : Nat) : Option (HopEnd × HopEnd) :=
  let d := field code 15 14
  let src := field code 11 8
  let dst := field code 7 4
  match field code 13 12 with
  | 0 => if src < 12 ∧ dst < 12 ∧ adjacent src dst then some (.cluster d src, .cluster d dst) else none
  | 1 =>
    if src < 2 ∧ dst < 2 then
      let c := HopEnd.cluster d (if src == 0 then 0 else 11)
      let k := HopEnd.stack (2 * d + src)
      some (if dst == 0 then (c, k) else (k, c))
    else none
  | 2 => if src < 4 ∧ src ≠ d ∧ dst = 0 then some (.cluster d (bridgeCluster d src), .cluster src (bridgeCluster src d)) else none
  | _ => if src = 0 ∧ dst < 2 then some (if dst == 0 then (.cluster d 4, .flyer) else (.flyer, .cluster d 4)) else none

/-- FROM and TO of a hop lie within the ranges that the map of R59 states for its kind. -/
def hopRange (code : Nat) : Bool :=
  let src := field code 11 8
  let dst := field code 7 4
  match field code 13 12 with
  | 0 => decide (src < 12 ∧ dst < 12)
  | 1 => decide (src < 2 ∧ dst < 2)
  | 2 => decide (src < 4) && dst == 0
  | _ => src == 0 && decide (dst < 2)

/-- A place belongs to a flow's end. -/
def endAt (im : Image) (kind index : Nat) (x : HopEnd) : Bool :=
  match kind, x with
  | 0, .cluster d c => im.place.cores.any fun p => p.stage == index && codeCluster p.core == d * 12 + c
  | 1, .stack n => n == index
  | 2, .flyer => true
  | _, _ => false

/-- The hops form a chain from `a`; its end. -/
def chainEnd : List (Option (HopEnd × HopEnd)) → HopEnd → Option HopEnd
  | [], a => some a
  | none :: _, _ => none
  | some h :: hs, a => if h.1 = a then chainEnd hs h.2 else none

/-- A connected chain from source to destination (0x5134). -/
def routeOk (im : Image) (r : Route) : Bool :=
  match r.hops.map hopEnds with
  | some h :: hs =>
    endAt im r.srcKind r.srcIndex h.1 &&
      (match chainEnd hs h.2 with | some z => endAt im r.dstKind r.dstIndex z | none => false)
  | _ => false

/-- What a hop loads: a skein port counts both directions as one. -/
def hopLoad (code : Nat) : Nat := if field code 13 12 == 1 then field code 15 8 else field code 15 4 + 4096

/-- Capacities in MB/s in even-draft mode (R59). -/
def hopCapacity (code : Nat) : Nat := match field code 13 12 with | 0 => 1075200 | 1 => 3200000 | _ => 1600000

/-- Declared bandwidth of some routes on what a hop loads. -/
def loadOn (key : Nat) (rs : List Route) : Nat := (rs.map fun r => r.bandwidth * (r.hops.filter fun h => hopLoad h == key).length).sum

/-- SRC_INDEX and DST_INDEX (R59). -/
def indexOk (im : Image) (kind index : Nat) : Bool :=
  match kind with
  | 0 => decide (index < im.place.stageCount)
  | 1 => decide (index < 8)
  | 2 => index == 0
  | _ => false

/-- Unused hop codes and low bits of used ones. -/
def hopRsv (ws : List Word) : Bool :=
  (List.range 32).any fun i => if i < fieldAt ws 2 5 0 then hopAt ws i % 16 != 0 else hopAt ws i != 0

def routeCodes (im : Image) (ws : List Word) (seen : List Route) (r : Route) : List Nat :=
  codeIf (!indexOk im r.srcKind r.srcIndex || !indexOk im r.dstKind r.dstIndex) 0x51A0 ++
    codeIf (r.hops.isEmpty || decide (32 < r.hops.length) || !r.hops.all hopRange) 0x51A0 ++
    codeIf (r.hops.all hopRange && !routeOk im r) 0x5134 ++
    codeIf (r.hops.any fun h => decide (hopCapacity h < loadOn (hopLoad h) (r :: seen))) 0x5135 ++
    codeIf (rsvSet ((2, 0xFFFFFFC0) :: (List.range 5).map fun i => (19 + i, 0xFFFFFFFF)) ws || hopRsv ws) 0x51A1

-- MEMORY (R59, R218, R281, R282).

/-- What names a region: kind, stage, layer, shard and cluster. -/
def Region.key (e : Region) : Nat × Nat × Nat × Nat × Nat := (e.kind, e.stage, e.layer, e.tag, e.cluster)

/-- Shards this device owns: gradient and P-factor hanks with its rank (R218, R244). -/
def imageShards (im : Image) : List Nat :=
  (im.hanks.entries.filter fun h => h.kind != 2 && h.owner == im.place.rank).map (·.tag)

/-- The regions that must stand in MEMORY exactly once. -/
def requiredRegions (im : Image) : List (Nat × Nat × Nat × Nat × Nat) :=
  let stages := List.range im.place.stageCount
  stages.map (fun st => (1, st, 0, 0, 0)) ++ [(2, 0xFF, 0, 0, 0), (3, 0xFF, 0, 0, 0), (6, 0xFF, 0, 0, 0)] ++
    ((im.layers.filter (·.lowRank)).map fun l => (7, 0xFF, l.id, 0, 0)) ++ ((im.layers.filter Layer.hasParams).map fun l => (8, 0xFF, l.id, 0, 0)) ++
    ([9, 10, 11].flatMap fun k => (imageShards im).map fun t => (k, 0xFF, 0, t, 0)) ++
    (im.place.cores.map fun p => (12, p.stage, 0, 0, p.core / 64 * 64)).eraseDups

/-- A region that may stand there. -/
def regionAllowed (im : Image) (e : Region) : Bool :=
  ((e.kind == 4 || e.kind == 5) && decide (e.stage < im.place.stageCount) && e.layer == 0 && e.tag == 0 && e.cluster == 0) ||
    (requiredRegions im).contains e.key

/-- End of a stack's placement area (R281). -/
def placementEnd (stack : Nat) : Nat := if stack == 0 then 0x16E0000000 else 0x16F0000000

def skeinRegion (e : Region) : Bool := e.kind != 12

/-- Sizes of the regions of a stack or of the creel of a cluster. -/
def placedBytes (e : Region) (seen : List Region) : Nat :=
  ((seen.filter fun x => skeinRegion x == skeinRegion e && (if skeinRegion e then x.stack == e.stack else x.cluster == e.cluster)).map (·.size)).sum

def rangesMeet (a n b m : Nat) : Bool := decide (0 < n) && decide (0 < m) && decide (a < b + m) && decide (b < a + n)

/-- Where a continuation image must leave a region (0x5181, R73): residual stream and buffers of shards. -/
def keptRegion (e : Region) : Bool := e.kind == 2 || e.kind == 9 || e.kind == 10 || e.kind == 11

def regionCodes (im : Image) (old : Option Image) (ws : List Word) (seen : List Region) (e : Region) : List Nat :=
  let sk := skeinRegion e
  codeIf (!regionAllowed im e || (e.kind != 4 && e.kind != 5 && seen.any fun x => x.key == e.key)) 0x51A0 ++
    codeIf (e.offset % 256 != 0 || e.size % 256 != 0 || (!sk && e.stack != 0)) 0x51A0 ++
    codeIf (sk && (decide (0x1800000000 < e.offset + e.size) || decide (placementEnd e.stack < placedBytes e (e :: seen)))) 0x5136 ++
    codeIf (sk && rangesMeet e.offset e.size (placementEnd e.stack) (0x1800000000 - placementEnd e.stack)) 0x5138 ++
    codeIf (sk && seen.any fun x => skeinRegion x && x.stack == e.stack && rangesMeet e.offset e.size x.offset x.size) 0x51A0 ++
    codeIf (!sk && (decide (15728640 < e.offset + e.size) || decide (15728640 < placedBytes e (e :: seen)))) 0x5137 ++
    codeIf (decide (9 ≤ e.kind ∧ e.kind ≤ 11) && seen.any fun x => decide (9 ≤ x.kind ∧ x.kind ≤ 11) && x.tag == e.tag && x.stack != e.stack)
      0x51A0 ++
    codeIf (match old with
      | some o => keptRegion e && !o.memory.any fun x => x.key == e.key && x.stack == e.stack && x.offset == e.offset && x.size == e.size
      | none => false) 0x5181 ++
    codeIf (rsvSet [(0, 0x0000C000), (1, 0x00000FFF), (2, 0x1FFF0000), (4, 0xFFFFFFE0), (7, 0xFFFFFFFF)] ws) 0x51A1

/-- A required region is missing. -/
def regionMissing (im : Image) : Bool := (requiredRegions im).any fun k => !im.memory.any fun e => e.key == k

-- SHUTTLE (R293, R294).

/-- The classes that the channels of a stack serve. -/
def served (im : Image) (stack cls : Nat) : Bool :=
  let holds (p : Nat → Bool) : Bool := im.memory.any fun e => p e.kind && e.stack == stack
  match cls with
  | 1 => holds (· == 1)
  | 2 => stack == 0 || holds (· == 8)
  | 3 => holds fun k => decide (9 ≤ k ∧ k ≤ 11)
  | _ => true

def shuttleCodes (im : Image) (ws : List Word) (seen : List ShuttleCfg) (c : ShuttleCfg) : List Nat :=
  codeIf (seen.any fun x => x.stack == c.stack && x.channel == c.channel) 0x51A0 ++
    codeIf (decide (1024 < c.weights.sum) || (c.weights.zipIdx).any fun p => p.1 == 0 && served im c.stack p.2) 0x5171 ++
    codeIf (c.bursts.any fun b => decide (b < 16) || decide (1024 < b)) 0x5172 ++
    codeIf (rsvSet [(0, 0xFFFFFF00), (1, 0xF800F800), (2, 0xF800F800), (3, 0xF800FFFF), (4, 0xF800F800), (5, 0xF800F800), (6, 0xF800FFFF),
      (7, 0xFFFFFFFF)] ws) 0x51A1

-- CHECKS (R375) and DEADLINE (R58).

def checksCodes (ws : List Word) : List Nat :=
  codeIf (decide (16 < fieldAt ws 0 4 0)) 0x5165 ++ codeIf (decide (16 < fieldAt ws 0 12 8)) 0x51A0 ++
    codeIf (rsvSet [(0, 0xFFFFE0E0), (1, 0xFFFFFFFF), (2, 0xFFFFFFFF), (3, 0xFFFFFFFF)] ws) 0x51A1

def deadlineCodes (ws : List Word) : List Nat :=
  let d := readDeadline ws
  codeIf (d.us == 0 || decide (600000000 < d.us)) 0x5190 ++ codeIf (decide (d.minCap < 900) || decide (2600 < d.minCap)) 0x5191 ++
    codeIf (rsvSet [(1, 0xFFFE0000)] ws) 0x51A1

-- Validate (R484).

/-- Inputs of Validate beside the image: the quarantine map of the snapshot, and the image that a continuation load replaces. -/
structure ValidateIn where
  quarantine : BitVec 576
  old : Option Image
  deriving DecidableEq, Repr

/-- Rules of a section's fixed fields. -/
def fixedCodes (im : Image) (x : Section) : List Nat :=
  match x.type with
  | 1 => jobCodes x.fixed
  | 2 => codeIf (x.entryCount != im.job.layerCount) 0x5147
  | 3 => numericCodes im x.fixed
  | 4 => hanksCodes im x.fixed
  | 0x10 => placeCodes im x.fixed
  | 0x14 => checksCodes x.fixed
  | 0x15 => deadlineCodes x.fixed
  | _ => []

/-- Rules of a section's entries, in order. -/
def entryCodes (i : ValidateIn) (im : Image) (x : Section) : List (List Nat) :=
  let run {α : Type} (read : List Word → α) (f : List Word → List α → α → List Nat) : List (List Nat) :=
    eachWith (fun seen (e : List Word) => f e (seen.map read) (read e)) [] x.entries
  match x.type with
  | 2 => run readLayer fun ws => layerCodes im ws
  | 4 => run readHank fun ws => hankCodes im ws
  | 5 => run readStream fun ws => streamCodes im ws
  | 0x10 => run readPlaced fun ws => placedCodes im i.quarantine ws
  | 0x11 => run readRoute fun ws => routeCodes im ws
  | 0x12 => run readRegion fun ws => regionCodes im i.old ws
  | 0x13 => run readShuttle fun ws => shuttleCodes im ws
  | _ => []

/-- Rules of a section as a whole: what is missing from it. -/
def tableCodes (im : Image) (x : Section) : List Nat :=
  match x.type with
  | 4 => codeIf (uncovered im) 0x5161
  | 5 => codeIf (streamMissing im) 0x51A0
  | 0x10 => codeIf (stageEmpty im) 0x5132
  | 0x12 => codeIf (regionMissing im) 0x51A0
  | 0x13 => codeIf (x.entryCount != 256) 0x51A0
  | 0xFFFF => codeIf ((signatureOf im.bytes).pad.any fun b => b != 0) 0x51A1
  | _ => []

/-- The places of one section. -/
def sectionPlaces (i : ValidateIn) (im : Image) (x : Section) : List RulePlace :=
  let head := if x.type == 0xFFFF then [] else headerCodes x
  ⟨x.index, noEntry, head ++ fixedCodes im x⟩ :: ((entryCodes i im x).zipIdx.map fun p => ⟨x.index, p.2, p.1⟩) ++
    [⟨x.index, noEntry, tableCodes im x⟩]

/-- A byte of the image lies in header, directory or a section. -/
def inSections (ds : List DirEntry) (a : Nat) : Bool :=
  decide (a < headBytes) || ds.any fun e => decide (e.offset ≤ a) && decide (a < e.offset + e.length)

/-- Reserved words of the directory, and bytes between sections. -/
def gapCodes (bs : List Byte) : List Nat :=
  let ds := directory bs
  codeIf ((ds.any fun e => e.rsv != 0) || bs.zipIdx.any fun p => p.1 != 0 && !inSections ds p.2) 0x51A1

/-- All places of Validate, in the order of R484. -/
def validatePlaces (i : ValidateIn) (im : Image) : List RulePlace :=
  let xs := sections im.bytes
  (xs.map fun x => ⟨x.index, noEntry, codeIf (x.type != 0xFFFF && headerDisagrees x) 0x5105⟩) ++
    [⟨0xFF, noEntry, codeIf (match i.old with | some o => logicalHashOf o.bytes != logicalHashOf im.bytes | none => false) 0x5180⟩] ++
    xs.flatMap (sectionPlaces i im) ++ [⟨0xFF, noEntry, gapCodes im.bytes⟩]

end Sys2Proof.Machine
end

