-- ==== Sys2Proof/Machine/Loader.lean ====
section
/-! DEFINITION. The warp loader (chapter 2): LOAD, UNLOAD, the four stages of R63 with the order of checks of R484, acceptance and
refusal (R62 to R67, R70, R73). -/

namespace Sys2Proof.Machine

/-- A step or another load is in the way of LOAD and UNLOAD (R65). -/
def loaderBusy (s : State) : Bool := s.stp.inStep || loadRunning s

def busyReject (s : State) : State := s.onWarp fun w => { w with busyReject := true }

/-- A load ends with a refusal (R64): code and place in the registers, event 0x5002, and the loader where the load leaves it. -/
def refuseLoad (code sect ent : Nat) (s : State) : State :=
  let detail := w32 (sect * 2 ^ 24 + ent)
  raise 0x5002 [code, detail.toNat] <|
    (endLoad .refused s).onWarp fun w => { w with refusal := BitVec.ofNat 16 code, detail := detail }

/-- Refuse with a code that the place gives: where several rules fail at one place the spec does not order them, so which of their codes
is reported is a free choice (log entry 47). -/
def refuseAt (p : RulePlace) (s : State) : State :=
  match p.codes with
  | [c] => refuseLoad c p.sect p.ent s
  | cs =>
    let r := freePick (max 1 cs.length) s
    refuseLoad (cs.getD r.1 0x51A0) p.sect p.ent r.2

/-- Refuse at the first place where a rule fails; otherwise go on. -/
def checkPlaces (ps : List RulePlace) (k : State → State) (s : State) : State :=
  match firstPlace ps with
  | some p => refuseAt p s
  | none => k s

-- LOAD and UNLOAD (R62, R65 to R67).

/-- The snapshot of R67: enrolled and revoked keys, quarantine map, and the programmed cap, which is the effective cap (R415). A key that the
revocation list names is revoked for this check too (R438, log entry 162). -/
def takeSnap (s : State) : LoadSnap :=
  { keys := s.flash.warpKeys.map fun k => ⟨k.id, k.ed, k.ml, s.flash.revokedKeys.contains k.id || s.flash.rvkNames.contains k.id⟩
    quarantine := s.flash.map, cap := s.trd.inForce }

/-- Start a load. -/
def startLoad (cont : Bool) (s : State) : State :=
  let s1 := s.onWarp fun w =>
    { w with began := w.state, loadCont := cont, latSrc := pairAddr w.srcLo w.srcHi, latLength := w.length.toNat,
             loadTick := s.clk.refTimer, snap := takeSnap s }
  if cont && s.warp.state != .halted then refuseLoad 0x5182 0xFF noEntry s1 else s1.onWarp fun w => { w with state := .verify }

/-- LOAD written. -/
def writeLoad (cont : Bool) (s : State) : State :=
  let s1 := s.onWarp fun w => { w with cont := cont }
  if loaderBusy s then busyReject s1 else startLoad cont s1

def execLoad (cont : Bool) (s : State) : Out := .next (gated 0x400 (writeLoad cont) s)

/-- UNLOAD written. -/
def writeUnload (cont : Bool) (s : State) : State :=
  let s1 := s.onWarp fun w => { w with cont := cont }
  if loaderBusy s then busyReject s1
  else
    match s.warp.state with
    | .loaded | .halted => helloAll (raise 0x5003 [] (dropImage .empty s1))
    | _ => busyReject s1

def execUnload (cont : Bool) (s : State) : Out := .next (gated 0x400 (writeUnload cont) s)

-- Verify (R484).

/-- Bytes of the window: 32 GiB (R283). -/
def windowBytes : Nat := 2 ^ 35

/-- The staged image does not lie on a 4 KiB boundary wholly in the window (0x5104). -/
def sourceBad (w : WarpBlk) : Bool := w.latSrc % 4096 != 0 || decide (windowBytes < w.latSrc + w.latLength)

/-- The staged bytes; of a length that 0x5103 refuses, no more than an image can have. -/
def stagedBytes (s : State) : List Byte := windowRead s s.warp.latSrc (min s.warp.latLength (2 ^ 28))

/-- Enrolment, revocation and the two signatures over the SHA-512 digest of the signed region (R60, R61). -/
def signaturePlaces (snap : LoadSnap) (bs : List Byte) : List RulePlace :=
  let id := wordAt (imageHeader bs) 6
  let sig := signatureOf bs
  let digest := imageHashOf bs
  let here (sect : Nat) (bad : Bool) (code : Nat) : RulePlace := ⟨sect, noEntry, codeIf bad code⟩
  match snap.keys.find? fun k => k.id == id with
  | none => [here 0xFF true 0x5112]
  | some k =>
    [here 0xFF k.revoked 0x5113, here 11 (!Config.edVerify k.ed digest sig.ed) 0x5110,
     here 11 (!Config.mlVerify k.ml digest (ascii "DVK-WARP") sig.ml) 0x5111]

/-- Failed verifications of an image whose two signatures are checked (R440): none where a check before them fails. -/
def imageFails (before : List RulePlace) (snap : LoadSnap) (bs : List Byte) : Nat :=
  match firstPlace before, snap.keys.find? fun k => k.id == wordAt (imageHeader bs) 6 with
  | none, some k =>
    if k.revoked then 0 else sigFails (k.ed, k.ml) "DVK-WARP" (imageRegion bs) (signatureOf bs).ed (signatureOf bs).ml
  | _, _ => 0

/-- The Verify stage. -/
def verifyStage (s : State) : State :=
  let bs := stagedBytes s
  let before : List RulePlace := ⟨0xFF, noEntry, codeIf (sourceBad s.warp) 0x5104⟩ :: verifyPlaces s.warp.latLength bs
  checkPlaces (before ++ signaturePlaces s.warp.snap bs ++ versionPlaces s.flash.floorWarp Config.stepping.toNat bs)
    (fun t => t.onWarp fun w => { w with state := .validate, pendingBytes := bs }) (countSigFail (imageFails before s.warp.snap bs) s)

def execVerify (s : State) : Out := .next (if s.warp.state == .verify then verifyStage s else s)

-- Validate.

/-- The Validate stage. -/
def validateStage (s : State) : State :=
  let im := readImage s.warp.pendingBytes
  checkPlaces (validatePlaces ⟨s.warp.snap.quarantine, if s.warp.loadCont then s.warp.image else none⟩ im)
    (fun t => t.onWarp fun w => { w with state := .feasibility, pending := some im }) s

def execValidate (s : State) : Out := .next (if s.warp.state == .validate then validateStage s else s)

-- Feasibility (R69, R70, R191).

/-- Directory index of a section of an image. -/
def indexOfType (im : Image) (type : Nat) : Nat := (sectionOf (sections im.bytes) type).index

/-- Entry of the first bobbin that cannot hold one reserved frame (0x5170). -/
def smallBobbin (im : Image) : Option Nat :=
  (im.memory.zipIdx.find? fun p => p.1.kind == 1 && decide (p.1.size < Config.frameNeed im.bytes p.1.stage)).map (·.2)

/-- Static and full power of this module for an image, in milliwatts (R70). -/
def powerOf (s : State) (im : Image) : Nat × Nat :=
  (Config.pStatic s.trd.calib (imageHashOf im.bytes), Config.pFull s.trd.calib (imageHashOf im.bytes))

/-- f16 of R70, from powers in milliwatts. -/
def issueFraction (minCapW pStatic pFull : Nat) : Nat := min 65536 ((minCapW * 1000 - pStatic) * 65536 / (pFull - pStatic))

/-- fb of R70: the declared F and B cycles at the issue fraction. -/
def throttledCycles (fbCycles f16 : Nat) : Nat := ceilDiv (fbCycles * 65536) f16

/-- t of R70 in microseconds. -/
def worstUs (d : Deadline) (f16 : Nat) : Nat :=
  ceilDiv (throttledCycles d.fbCycles f16) 1050 + d.gtailUs + d.uUs + d.cUs + d.pUs

/-- The declared figures in the order of the cost model. -/
def declared (d : Deadline) : List Nat := [d.fbCycles, d.gtailUs, d.uUs, d.cUs, d.pUs]

/-- The checks of Feasibility up to the cap, in the order of R484. -/
def feasibilityPlaces (s : State) (im : Image) : List RulePlace :=
  let i := indexOfType im 0x15
  let p := powerOf s im
  let here (bad : Bool) (code : Nat) : RulePlace := ⟨i, noEntry, codeIf bad code⟩
  [here (Config.costModel im.bytes != declared im.deadline) 0x5195,
   ⟨indexOfType im 0x12, (smallBobbin im).getD noEntry, codeIf (smallBobbin im).isSome 0x5170⟩,
   here (decide (8000 * im.deadline.minCap < 7 * p.1 + p.2)) 0x5192,
   here (decide (s.warp.snap.cap < im.deadline.minCap)) 0x5193]

/-- Distribute begins: a replacement load discards what the current image holds (R66). -/
def beginDistribute (s : State) : State :=
  let s1 := s.onWarp fun w => { w with state := .distribute }
  match s.warp.began with
  | .loaded | .halted => if s.warp.loadCont then s1 else raise 0x5003 [] (dropImage .distribute s1)
  | _ => s1

/-- The issue fraction and the worst case, then the deadline (R70). HUB_WARP_WORST_US has 32 bits; of a longer worst case it holds the low
32 bits (log entry 130). -/
def deadlineStage (im : Image) (s : State) : State :=
  let p := powerOf s im
  let f16 := issueFraction im.deadline.minCap p.1 p.2
  let t := worstUs im.deadline f16
  let s1 := s.onWarp fun w => { w with fraction := w32 f16, worstUs := w32 t }
  if t ≤ im.deadline.us then beginDistribute s1 else refuseLoad 0x5194 (indexOfType im 0x15) noEntry s1

/-- The Feasibility stage. -/
def feasibilityStage (s : State) : State :=
  match s.warp.pending with
  | some im => checkPlaces (feasibilityPlaces s im) (deadlineStage im) s
  | none => s

def execFeasibility (s : State) : Out := .next (if s.warp.state == .feasibility then feasibilityStage s else s)

-- Distribute and acceptance.

/-- Where the loader keeps the accepted image (R65, R281). -/
def loaderRegion : Nat := 0x16E0000000

/-- The fallback state of a layer at the start of a job (R157, R160). -/
def firstMode (im : Image) (id : Nat) : LayerNum :=
  ⟨match im.layers.find? fun l => l.id == id with | some l => if isCandidate l then .k4 else .notCandidate | none => .notCandidate, 0, false⟩

/-- The numeric controller at the start of a job. -/
def firstNum (im : Image) (n : NumBlk) : NumBlk :=
  let zeros := List.replicate im.layers.length Counts.zeros
  { NumBlk.reset with
    e := im.numeric.initE, layers := (List.range im.layers.length).map (firstMode im), sel := n.sel, jobView := n.jobView
    counts := zeros, lastCounts := zeros, jobCounts := zeros, weightCounts := zeros }

/-- The empty bobbins of an image's stages. -/
def firstStages (im : Image) : List BobStage :=
  (List.range im.place.stageCount).map fun st =>
    { stage := st, frames := [], pushes := 0, popped := [], highWater := 0, maxFrames := 0, lastHighWater := 0, lastMaxFrames := 0, reduced := 0,
      told := false }

/-- Counters that the acceptance of a load clears: their registers count "since load" (R406). -/
def sinceLoad (key : Nat) : Bool := [0x850, 0x858, 0x948, 0x9A4, 0x300028].contains (key % 2 ^ 28)

/-- What every acceptance does beside the structure itself; a fault that a port left ends with the reload (R324). -/
def clearSinceLoad (s : State) : State :=
  { s with
    tel := { s.tel with ctrs := s.tel.ctrs.filter fun c => !sinceLoad c.1 }
    skn := { s.skn with stk := s.skn.stk.map fun x => { x with stateLost := false, starved := false, waitMax := Vector.replicate 160 0 } }
    stp := { s.stp with portFault := false, fault := false, faultCause := 0 }
    ply := { s.ply with quarantineHalt := false } }

/-- A new job starts at batch and step zero (R66). -/
def newJob (im : Image) (s : State) : State :=
  { s with
    num := firstNum im s.num
    bob := { s.bob with stages := firstStages im }
    reel := { s.reel with hanks := im.hanks.entries.map HankRt.first } }

/-- A continuation load keeps the job state; the device asks for readmission (R73). -/
def continueJob (im : Image) (s : State) : State :=
  { s with
    bob := { s.bob with stages := firstStages im }
    job := { s.job with admitted := false, answered := false } }

/-- Acceptance (R52, R64): registers, the copy of the image, event 0x5001, and the request for admission (R72). -/
def acceptLoad (im : Image) (s : State) : State :=
  let w := s.warp
  let s1 :=
    (s.putSkein loaderRegion im.bytes).onWarp fun _ =>
        { w with
          state := if w.loadCont then .halted else .loaded, image := some im, dist := true, templates := Config.templates im.bytes
          pending := none, pendingBytes := []
          refusal := 0, imageHash := imageHashOf im.bytes, logicalHash := logicalHashOf im.bytes, deadlineUs := w32 im.deadline.us
          loadUs := w32 ((s.clk.refTimer - w.loadTick) / 100) }
  let s2 := clearSinceLoad (if w.loadCont then continueJob im s1 else newJob im s1)
  askAdmission (leaveHalted (helloAll (voidCheck (raise 0x5001 [] s2))))

/-- The Distribute stage ends. -/
def execDistribute (s : State) : Out :=
  .next (match s.warp.state, s.warp.pending with
  | .distribute, some im => acceptLoad im s
  | _, _ => s)

/-- A stage exceeds its limit (R63, R64). -/
def execLoaderTimeout (s : State) : Out := .next (if loadRunning s then refuseLoad 0x51FF 0xFF noEntry s else s)

end Sys2Proof.Machine
end

