-- ==== Sys2Proof/Machine/NepTest.lean ====
section
/-! DEFINITION. The nep test registers (R276). -/

namespace Sys2Proof.Machine

/-- TARGET names what the generator needs: for the update engine every stack is valid, else an existing core that is not
quarantined. -/
def nepTargetOk (s : State) (gen target : Nat) : Bool :=
  gen == 2 || match coreOf target with | some c => !quarantined s c.val | none => false

/-- The outputs of a test with the key and counter in the registers. -/
def nepTestWords (n : NepBlk) : List Word :=
  let q := philox n.key0 n.key1 ⟨wordAt n.ctr 0, wordAt n.ctr 1, wordAt n.ctr 2, wordAt n.ctr 3⟩
  [q.x0, q.x1, q.x2, q.x3]

/-- A write of HUB_NEP_TEST_CTRL: the fields, then RUN, which is accepted or sets REFUSED. -/
def writeNepCtrl (val : Word) (s : State) : State :=
  let g := wfield val 17 16
  let bad := g == 3
  s.onNep fun n =>
    let m := { n with testGenerator := if bad then n.testGenerator else g, testTarget := wfield val 15 0
                      testRefused := (n.testRefused && !wbit val 29) || bad }
    if !wbit val 31 then m
    else if !bad && !s.stp.inStep && nepTargetOk s g (wfield val 15 0) then
      { m with testDone := false, testPending := some (nepTestWords m) }
    else { m with testRefused := true }

def execNepTestRun (val : Word) (s : State) : Out := .next (gated 0xA00 (writeNepCtrl val) s)

/-- The outputs of an accepted test are written, within 1 µs of RUN. -/
def execNepTestDone (s : State) : Out :=
  .next (match s.nep.testPending with
    | some ws => s.onNep fun n => { n with testPending := none, testDone := true, out := ws }
    | none => s)

end Sys2Proof.Machine
end

