-- ==== Sys2Proof/Machine/HostRegs.lean ====
section
/-! DEFINITION. BAR0 (R14, R351, R352): the value of every register of the block (R62, R144, R174, R215, R255, R276, R309, R344, R372,
R373, R407, R433, R462, R482), the SNAP registers with their latched copies (R406), and the writes that have no row of their own. -/

namespace Sys2Proof.Machine

/-- The low and high word of a 48-bit value without SAT, and of a 64-bit value. -/
def pair48 (off n : Nat) : List (Nat × Word) := [(off, w32 n), (off + 4, w32 (n / 2 ^ 32 % 65536))]
def pair64 (off n : Nat) : List (Nat × Word) := [(off, w32 n), (off + 4, w32 (n / 2 ^ 32))]

/-- A 48-bit event counter, and a 16-bit error counter, at the offset that is its key. -/
def evtRegs (s : State) (off : Nat) : List (Nat × Word) := [(off, ctrLo s off), (off + 4, ctrHi s off)]
def errReg (s : State) (off : Nat) : List (Nat × Word) := [(off, ctrErr s off)]

/-- Consecutive words from an offset. -/
def wordRegs (off : Nat) (ws : List Word) : List (Nat × Word) := ws.zipIdx.map fun p => (off + 4 * p.2, p.1)

/-- A signed value in `n` bits as a number. -/
def bits16 (i : Int) : Nat := unsigned 16 i

-- HUB_: identity, readiness and the host link (R372, R482).

def readyStatus (s : State) : Word :=
  w32 (b2n s.sec.attestReady * 16 + b2n s.hub.linkUp * 8 + b2n (s.skn.stk.all (·.trained)) * 4 +
    b2n (!s.sec.measFlyer.isEmpty) * 2 + b2n (isReady s))

def linkStatus (s : State) : Word :=
  w32 (s.hub.lanesRepaired.toNat * 256 + s.hub.modulesTrained.toNat * 16 + b2n s.hub.l1 * 4 + b2n s.hub.retraining * 2 + b2n s.hub.flitMode)

def pendingBits (s : State) : Word := w32 ((s.tel.msix.pending.zipIdx.map fun p => b2n p.1 * 2 ^ p.2).sum)

def identityRegs (s : State) : List (Nat × Word) :=
  [(0x0, w32 (0xD4A10000 + Config.stepping.toNat * 256)), (0x4, s.sec.flyerRelease)] ++ pair64 0x8 moduleSerial ++
    [(0x10, readyStatus s), (0x14, linkStatus s)] ++ errReg s 0x18 ++ errReg s 0x1C ++
    [(0x20, w32 (s.mod.input.cause * 2 ^ 28 + s.mod.input.boots)), (0x24, w32 (s.mod.readyMs * 65536 + s.mod.attestMs))] ++
    wordRegs 0x80 s.tel.msix.table ++ [(0xC0, pendingBits s), (0xFC, s.hub.bootScratch)]

-- HUB_WARP_ (R62).

def warpStatus (s : State) : Word := w32 (s.warp.refusal.toNat * 65536 + b2n s.warp.busyReject * 256 + loaderCode s.warp.state)

def warpRegs (s : State) : List (Nat × Word) :=
  let w := s.warp
  [(0x400, w32 (b2n w.cont * 4)), (0x404, warpStatus s), (0x408, w.detail), (0x40C, w.length), (0x410, w.srcLo), (0x414, w.srcHi),
   (0x418, w.deadlineUs), (0x41C, w.worstUs), (0x420, w.fraction), (0x424, w.loadUs)] ++
    wordRegs 0x440 (bytesWords 16 w.imageHash) ++ wordRegs 0x480 (bytesWords 16 w.logicalHash)

-- HUB_NUM_ (R174).

def numScale (s : State) : Word := w32 (s.num.clean * 256 + unsigned 8 s.num.e)

def numStatus (s : State) : Word :=
  let n := s.num
  w32 ((n.layers.filter fun l => l.mode == .fallback).length * 65536 + b2n (n.e == 64 || n.e == -64) * 8 +
    b2n (n.layers.any fun l => l.mode == .storm) * 4 + b2n n.degraded * 2 + b2n n.lastSkipped)

/-- MODE and CLEAN_RUN are those in force; REQUESTED is of the latched batch, so a decision that waits for its batch gives it. -/
def layerState (s : State) : Word :=
  match s.num.layers[s.num.sel]?, (nextModes s)[s.num.sel]? with
  | some l, some n => layerStateWord { l with requested := n.requested }
  | _, _ => 0

/-- The counts of the selected layer: this device's, or on the manager with JOB_VIEW the job's. -/
def selectedCounts (s : State) : Counts :=
  (if s.num.jobView && isManager s then s.num.jobCounts else s.num.lastCounts).getD s.num.sel Counts.zeros

def numRatio (s : State) : Word :=
  match isManager s, s.num.ratios.find? fun r => r.1 == s.num.sel with
  | true, some r => w32 (2 ^ 31 + r.2 % 65536)
  | _, _ => 0

def numLatched (s : State) : List (Nat × Word) :=
  let c := selectedCounts s
  [(0x810, layerState s)] ++ pair48 0x814 c.staples ++ pair48 0x81C c.zero ++ pair48 0x824 c.sat ++ pair48 0x82C c.slub ++
    pair48 0x834 c.nonzero ++ pair48 0x83C c.underflow ++ pair48 0x844 c.nonfinite ++ [(0x84C, numRatio s)] ++ evtRegs s 0x850 ++
    evtRegs s 0x858

def numRegs (s : State) : List (Nat × Word) :=
  [(0x800, numScale s), (0x804, numStatus s), (0x808, w32 (b2n (s.num.jobView && isManager s) * 2 ^ 31 + s.num.sel)), (0x80C, 0)] ++ numLatched s

-- HUB_STEP_ and HUB_BOBBIN_ (R215).

def Span.active (x : Span) : Bool := x.start.isSome && x.stop.isNone

def stepStatus (s : State) : Word :=
  let b := s.stp
  let p := b.phases
  w32 (b2n (if b.running then b.settled else b.nextSettled) * 2 ^ 15 + b2n b.nonfinite * 2 ^ 14 + b2n b.fault * 2 ^ 13 + b2n b.skipHeld * 2 ^ 12 +
    b2n b.verdictSent * 2 ^ 11 +
    b2n (decide (0 < b.exec)) * 2 ^ 10 + b2n b.inStep * 256 + b2n b.pActive * 64 + b2n p.c.active * 32 + b2n p.u.active * 16 +
    b2n p.g.active * 8 + b2n p.b.active * 4 + b2n p.f.active * 2)

def Phases.get (p : Phases) : Nat → Span
  | 0 => p.f
  | 1 => p.b
  | 2 => p.g
  | 3 => p.u
  | 4 => p.c
  | _ => p.p

def selectedSpan (s : State) : Span := (if s.stp.phaseView then s.stp.phases else s.stp.lastPhases).get s.stp.phaseSel

/-- The end of a phase: all ones while it runs, zero for a phase that did not run. -/
def Span.endValue (x : Span) : Nat :=
  match x.start, x.stop with
  | none, _ => 0
  | some _, none => 2 ^ 64 - 1
  | some _, some n => n

def stepLatched (s : State) : List (Nat × Word) :=
  let b := s.stp
  pair48 0x908 b.stepIndex ++ pair48 0x910 b.batch ++ [(0x918, outcomeWord s)] ++ pair48 0x91C b.outBatch ++
    [(0x924, w32 (b2n b.phaseView * 16 + b.phaseSel))] ++ pair64 0x928 ((selectedSpan s).start.getD 0) ++
    pair64 0x930 (selectedSpan s).endValue ++ [(0x938, b.loss), (0x93C, b.lossTokens)] ++
    pair64 0x940 (if isManager s then b.jobLoss.toNat else 0) ++ evtRegs s 0x948

def bobbinLatched (s : State) : List (Nat × Word) :=
  let k := kRecompute s.bob.sel
  let recompute := [(0x9A4, ctrLo s k), (0x9A8, ctrHi s k)]
  match s.bobbin s.bob.sel with
  | some b =>
    pair48 0x988 (bobbinSize s s.bob.sel) ++ pair48 0x990 b.used ++ pair48 0x998 b.lastHighWater ++
      [(0x9A0, w32 (min b.lastMaxFrames 65535 * 65536 + min b.frames.length 65535))] ++ recompute
  | none => pair48 0x988 0 ++ pair48 0x990 0 ++ pair48 0x998 0 ++ [(0x9A0, 0), (0x9A4, 0), (0x9A8, 0)]

def stepRegs (s : State) : List (Nat × Word) :=
  [(0x900, stepStatus s), (0x904, 0)] ++ stepLatched s ++ [(0x980, w32 s.bob.sel), (0x984, 0)] ++ bobbinLatched s

-- HUB_NEP_ (R276).

def nepStatus (s : State) : Word :=
  match s.warp.image with
  | some im => w32 (min im.nep.length 65535 * 65536 + b2n (im.nep.any fun e => e.mode == 2) * 2 + b2n s.nep.seed.isSome)
  | none => 0

def nepRegs (s : State) : List (Nat × Word) :=
  let n := s.nep
  [(0xA00, w32 (b2n n.testDone * 2 ^ 30 + b2n n.testRefused * 2 ^ 29 + n.testGenerator * 65536 + n.testTarget)), (0xA04, n.key0),
   (0xA08, n.key1)] ++ wordRegs 0xA10 n.ctr ++ wordRegs 0xA20 n.out ++ [(0xA30, nepStatus s)]

-- WEFT_ (R373).

/-- STEP_QUEUE_BUSY and COPY_QUEUE_BUSY (R373). DEDUCED: while a descriptor of the queue is fetched or runs (log entry 54). -/
def Queue.busy (x : Queue) : Bool := x.running.isSome || !x.fetched.isEmpty

def qstateCode : QState → Nat
  | .disabled => 0
  | .enabled => 1
  | .error => 2

def queueLatched (s : State) (q : QueueIx) : List (Nat × Word) :=
  evtRegs s (queueBase q + 0x28) ++ errReg s (queueBase q + 0x30)

def queueRegs (s : State) (q : QueueIx) : List (Nat × Word) :=
  let x := s.queue q
  let o := queueBase q
  [(o, w32 (b2n x.enable * 2 ^ 31 + x.sizeLog2)),
   (o + 4, w32 (x.cause * 16 + b2n (x.hasPosted && x.credits == 0) * 8 + b2n x.errorSeen * 4 + qstateCode x.st)), (o + 8, x.baseLo),
   (o + 0xC, x.baseHi), (o + 0x10, x.complLo), (o + 0x14, x.complHi), (o + 0x18, w32 x.tail), (o + 0x1C, w32 x.head),
   (o + 0x20, w32 x.complHead), (o + 0x24, w32 (if x.st == .disabled then 0 else x.credits))] ++ queueLatched s q

def weftLatched (s : State) : List (Nat × Word) := evtRegs s kEventsDropped ++ queueLatched s 0 ++ queueLatched s 1

def weftRegs (s : State) : List (Nat × Word) :=
  let r := s.tel.ring
  [(0x100000, w32 (b2n s.weft.q0.busy * 2 + b2n s.weft.q1.busy)), (0x100004, 0), (0x100008, r.baseLo), (0x10000C, r.baseHi),
   (0x100010, w32 (b2n r.enable * 2 ^ 31 + b2n r.evInt * 2 ^ 30 + r.sizeLog2)), (0x100014, w32 r.tail), (0x100018, w32 r.head)] ++
    evtRegs s kEventsDropped ++ queueRegs s 0 ++ queueRegs s 1

-- TRD_ (R433).

def trdStatus (s : State) : Word :=
  let t := s.trd
  let held := t.em.command || t.em.thermal || t.em.inputLow
  w32 (ladderCode t.ladder * 2 ^ 29 + b2n (decide (4200000 < t.rootKhz)) * 2 ^ 28 + b2n t.em.any * 2 ^ 27 + b2n t.em.pin * 2 ^ 26 +
    b2n held * 2 ^ 25 + b2n t.sensorCap.isSome * 2 ^ 24 + b2n t.measGoverns * 2 ^ 23 + b2n t.deadlineVoid * 2 ^ 22 +
    b2n t.atFloor * 2 ^ 21 + b2n t.capRefused * 2 ^ 20 + t.refuseCause * 65536 + b2n t.sensorCap.isSome * 2 ^ 15 + b2n (tripHolds s) * 2 ^ 14)

def trdLatched (s : State) : List (Nat × Word) :=
  let t := s.trd
  let est := average (t.readings.map (·.1))
  let meas := average (t.readings.map (·.2))
  [(0x200014, w32 (min est 65535 * 65536 + min meas 65535)), (0x200018, w32 t.issueN), (0x20001C, w32 (arithKhz s)),
   (0x200020, w32 t.batchKhz), (0x200024, w32 (s.flash.trimReserve * 256 + t.activeReserve)),
   (0x200028, w32 (sensorCode t.hotSensor * 65536 + t.hotQuarter % 4096)), (0x20002C, w32 (minCap s * 65536 + floorWatts s))] ++
    pair64 0x200030 (t.energy10uJ / 100) ++ pair64 0x200038 t.throttled ++ evtRegs s 0x200040 ++ errReg s 0x200048 ++
    [(0x20004C, w32 (min ((s.clk.refTimer - t.sinceTick) / 1000) (2 ^ 32 - 1)))]

def trdRegs (s : State) : List (Nat × Word) :=
  let t := s.trd
  [(0x200000, trdStatus s), (0x200004, w32 (b2n t.freeDraftEn * 2 ^ 31 + t.target * 2 ^ 28)), (0x200008, 0), (0x20000C, w32 t.hostCap),
   (0x200010, w32 (t.inForce * 65536 + t.mgmtCap))] ++ trdLatched s

-- PLY_ (R407).

def plyStatus (s : State) : Word :=
  w32 (s.stp.exec * 2 ^ 30 + b2n (!s.ply.excluded.isEmpty) * 2 ^ 29 + b2n (!s.ply.carding.isEmpty) * 2 ^ 28 +
    b2n s.ply.capture.isSome * 2 ^ 27 + b2n s.ply.unitUnfit * 2 ^ 26 + b2n s.ply.quarantineHalt * 2 ^ 25 + quarantineCount s.flash.map)

/-- The record of the selected execution. -/
def selectedExec (s : State) : Option ExecRecord := s.stp.execRecords.reverse.find? fun r => r.exec == s.ply.execSel

def execDigestWords (s : State) : List Word :=
  match selectedExec s with
  | some r => if r.complete then bytesWords 8 r.digest else List.replicate 8 0
  | none => List.replicate 8 0

def plyLatched (s : State) : List (Nat × Word) :=
  evtRegs s 0x300010 ++ errReg s 0x300018 ++ evtRegs s 0x30001C ++ errReg s 0x300024 ++ evtRegs s 0x300028 ++ errReg s 0x300030 ++
    errReg s 0x300034 ++ wordRegs 0x300040 s.ply.lastMismatch

def plyRegs (s : State) : List (Nat × Word) :=
  let y := s.ply
  let sel := selectedExec s
  [(0x300000, plyStatus s), (0x300004, 0), (0x300008, w32 (b2n y.ctrlRefused * 2 ^ 30 + y.ctrlUnit * 65536 + y.ctrlTarget)),
   (0x30000C, w32 (y.cardResult * 2 ^ 28 + y.cardUnit * 2 ^ 26 + y.cardPart * 2 ^ 24 + y.cardTarget))] ++ plyLatched s ++
    wordRegs 0x300080 (bytesWords 18 (mapBytes s)) ++
    [(0x3000F0, w32 (b2n (sel.any (·.clean)) * 512 + b2n (sel.any (·.complete)) * 256 + y.execSel))] ++
    wordRegs 0x300100 (execDigestWords s) ++ [(0x300120, w32 (y.ckptOp * 2 ^ 28 + b2n y.ckptAccepted * 2 ^ 27 + y.ckptCause))]

-- REEL_ (R255).

def hankCode : HankSt → Nat
  | .idle => 0
  | .awaitScale => 1
  | .first => 2
  | .second => 3
  | .delivered => 4
  | .nonfinite => 5
  | .abandoned => 7

/-- A hank is open while a path of it runs. -/
def HankRt.open (h : HankRt) : Bool := h.st == .first || h.st == .second

def reelStatus (s : State) : Word :=
  let h := s.reel.hanks
  w32 (min (h.filter HankRt.open).length 65535 * 256 + b2n s.stp.skipHeld * 8 + b2n (!h.isEmpty && h.all (·.agreed)) * 4 +
    b2n (match s.warp.image with | some im => im.layers.any (·.lowRank) | none => false) * 2 +
    b2n (match s.warp.image with | some im => im.job.exactReel | none => false))

/-- The state of the selected hank: unknown tag where the loaded image has none of that tag, the reset value with no image. -/
def hankState (s : State) : Word :=
  match s.hank s.reel.sel with
  | some h =>
    let o := ownerOf s h.tag
    w32 (hankCode h.st * 2 ^ 29 + h.attempt % 4 * 2 ^ 27 + b2n h.sampled * 2 ^ 26 + b2n (o == rankOf s) * 2 ^ 25 + b2n h.clippedSeen * 2 ^ 24 + o)
  | none => if s.warp.image.isSome then w32 (6 * 2 ^ 29) else 0

def hankScale (s : State) : Word :=
  match s.hank s.reel.sel with
  | some h => w32 (bits16 h.hs * 65536 + bits16 h.rho)
  | none => 0

def hankMax (s : State) : Nat :=
  match s.hank s.reel.sel with
  | some h => if ownerOf s h.tag == rankOf s then h.finalMax else 0
  | none => 0

def reelLatched (s : State) : List (Nat × Word) :=
  [(0x40000C, hankState s), (0x400010, hankScale s)] ++ pair48 0x400014 (hankMax s) ++ evtRegs s kSegIn ++ evtRegs s kSegOut ++
    evtRegs s kRestarts ++ evtRegs s kClipped ++ evtRegs s kResat ++ evtRegs s kTwoPath ++ errReg s kTwoPathBad ++ evtRegs s kResends ++
    evtRegs s kUpdateOvf ++ evtRegs s kMarkers ++ [(0x400068, w32 (hankPlan s).length)]

def reelRegs (s : State) : List (Nat × Word) := [(0x400000, reelStatus s), (0x400004, 0), (0x400008, w32 s.reel.sel)] ++ reelLatched s

-- ROV_ (R344).

def pstateCode : PState → Nat
  | .deaf => 0
  | .disabled => 1
  | .training => 2
  | .up => 3
  | .joined => 4
  | .retraining => 5
  | .down => 6

def rovStatus (s : State) : Word :=
  let joined := ((List.finRange 9).map fun p => b2n ((s.port p).st == .joined) * 2 ^ p.val).sum
  w32 (joined * 65536 + b2n s.job.gathering * 64 + b2n s.job.admitted * 32 + b2n s.job.formed * 16 + b2n (isManager s) * 8 +
    b2n (!(jobTag s).isEmpty) * 4 + b2n (isReady s) * 2)

/-- ROV_PORT_PRE_FEC_BER: a measurement of the lanes that no command carries, of the last full second while the lanes are trained
(R344; log entry 128). -/
def preFec (s : State) (p : PortIx) : Word :=
  match (s.port p).st with
  | .up | .joined => (Config.preFecBer p (s.clk.refTimer / 100000000 - 1)).setWidth 32
  | .deaf | .disabled | .training | .retraining | .down => 0

def portLatched (s : State) (p : PortIx) : List (Nat × Word) :=
  let o := portBase p
  evtRegs s (o + 0x14) ++ evtRegs s (o + 0x1C) ++ evtRegs s (o + 0x24) ++ errReg s (o + 0x2C) ++ errReg s (o + 0x30) ++
    evtRegs s (o + 0x34) ++ errReg s (o + 0x3C) ++ evtRegs s (o + 0x40)

def portRegs (s : State) (p : PortIx) : List (Nat × Word) :=
  let q := s.port p
  let o := portBase p
  [(o, w32 (pstateCode q.st * 2 ^ 28 + portRole s p * 2 ^ 24 + q.lanes.toNat * 65536 + b2n q.partnerNotReady * 2 ^ 15 + q.partnerRank % 2 ^ 14)),
   (o + 4, 0), (o + 8, q.rtt), (o + 0xC, w32 (q.c1 * 65536 + q.c0)), (o + 0x10, w32 (q.c3 * 65536 + q.c2))] ++ portLatched s p ++
    [(o + 0x48, preFec s p)]

def rovLatched (s : State) : List (Nat × Word) :=
  pair48 0x500014 s.job.lastBatch ++ evtRegs s 0x500020 ++ evtRegs s 0x500028 ++ (List.finRange 9).flatMap (portLatched s)

def rovRegs (s : State) : List (Nat × Word) :=
  let j := s.job
  [(0x500000, rovStatus s), (0x500004, w32 s.rov.disable.toNat), (0x500008, 0), (0x50000C, w32 (rankOf s * 65536 + managerRank s)),
   (0x500010, w32 (j.lastKind * 2 ^ 28 + j.lastExec * 2 ^ 26 + b2n j.lastNextSettled * 2 ^ 25 + j.lastHalt * 2 ^ 21))] ++
    pair48 0x500014 j.lastBatch ++ [(0x50001C, w32 (if isManager s then j.admittedRanks.length else 0))] ++ evtRegs s 0x500020 ++
    evtRegs s 0x500028 ++ (List.finRange 9).flatMap (portRegs s)

-- SEC_ (R462).

def secStatus (s : State) : Word :=
  w32 ((if s.mod.recovery then 0xF else s.sec.bootStage) * 2 ^ 28 + b2n s.sec.identityOk * 2 ^ 27 + b2n s.sec.attestReady * 2 ^ 26 +
    b2n (distaffRuns s && s.flash.owner.isSome) * 2 ^ 25 + b2n s.sec.mapOk * 2 ^ 24 + b2n s.sec.slotFallback * 2 ^ 23 + b2n s.spdm.session * 2 ^ 22)

def measurement (s : State) : List Byte :=
  match s.sec.measSel with
  | 0 => Config.romMeasurement
  | 1 => s.sec.measDistaff
  | 2 => s.sec.measFlyer
  | _ => s.sec.measSkein

def secLatched (s : State) : List (Nat × Word) :=
  wordRegs 0x600040 (bytesWords 8 s.sec.pairDigest) ++ pair48 0x600060 s.sec.pairStep ++ errReg s 0x6000D4 ++ evtRegs s 0x6000D8 ++ evtRegs s kEventsLost

def secRegs (s : State) : List (Nat × Word) :=
  let b := s.sec
  [(0x600000, secStatus s), (0x600004, 0), (0x600008, w32 (b2n b.done * 2 ^ 30 + b2n b.refused * 2 ^ 29))] ++ wordRegs 0x600010 b.nonce ++
    [(0x600030, b.addrLo), (0x600034, b.addrHi), (0x600068, w32 b.measSel)] ++ wordRegs 0x600080 (bytesWords 16 (measurement s)) ++
    wordRegs 0x6000C0 [w32 s.flash.floorDistaff, w32 s.flash.floorFlyer, w32 s.flash.floorSkein, w32 s.flash.floorWarp] ++
    [(0x6000D0, w32 (s.flash.liveKeys * 65536 + s.flash.sealKeys.length))] ++ secLatched s

-- SPD_ (R142, R144).

/-- The tile status words in the order of SPD_ACC_STATUS. -/
def tileStCode : TileState → Nat
  | .idle => 0
  | .accumulating => 1
  | .slub => 2
  | .draining => 3

def AccTile.word (t : AccTile) : Word := w32 (tileStCode t.st * 65536 + t.flags.bits)

def spdLatched (s : State) (c : Nat) : List (Nat × Word) :=
  evtRegs s (coreBase c + 0x44) ++ evtRegs s (coreBase c + 0x4C) ++ evtRegs s (coreBase c + 0x54)

def coreRegs (s : State) (c : Nat) : List (Nat × Word) :=
  let k := s.core c
  let o := coreBase c
  [(o, w32 (b2n s.stp.inStep * 256 + b2n k.accessRefused * 2 + b2n k.pageRefused)), (o + 4, w32 (k.stepFlags.bits % 128))] ++
    wordRegs (o + 0x10) (match k.firstInvalid with | some f => firstInvalidWords f | none => List.replicate 5 0) ++ [(o + 0x40, 0)] ++
    spdLatched s c ++ [(o + 0x60, w32 k.page)] ++ wordRegs (o + 0x70) [k.e0t0.word, k.e0t1.word, k.e1t0.word, k.e1t1.word]

-- SKN_ (R309).

/-- Shards of this device in a stack. -/
def stackShards (s : State) (k : StackIx) : List Shard := s.reel.shards.filter fun x => shardStack s x.tag == k

/-- The ply-digest engine of a stack hashes behind U until every shadow leaf is complete (log entry 154). -/
def digestBusy (s : State) (k : StackIx) : Bool :=
  s.stp.phases.u.active && (stackShards s k).any fun x => !x.shadowReady && !x.abandoned

def sknStatus (s : State) (k : StackIx) : Word :=
  let x := s.stack k
  let updating := (s.stp.phases.u.active || s.stp.pActive) && !(stackShards s k).isEmpty
  w32 (b2n x.stateLost * 128 + b2n (digestBusy s k) * 64 + b2n updating * 32 + b2n (loadRunning s) * 16 +
    b2n x.scrubActive * 8 + b2n x.firmwareOk * 2 + b2n x.trained)

/-- A shuttle counter of the selected channel and class. -/
def shuttleRegs (s : State) (k : StackIx) (off : Nat) : List (Nat × Word) :=
  let key := shuttleKey (sknBase k + off) (s.stack k).selChannel (s.stack k).selClass
  [(sknBase k + off, ctrLo s key), (sknBase k + off + 4, ctrHi s key)]

def shuttleCfgWord (s : State) (k : StackIx) : Word :=
  let x := s.stack k
  match shuttleCfg s k (Fin.ofNat 32 x.selChannel) with
  | some c => w32 (c.weights.getD x.selClass 0 * 65536 + c.bursts.getD x.selClass 0)
  | none => 0

def sknLatched (s : State) (k : StackIx) : List (Nat × Word) :=
  let x := s.stack k
  let o := sknBase k
  evtRegs s (o + 0x10) ++ errReg s (o + 0x18) ++ errReg s (o + 0x1C) ++
    [(o + 0x20, w32 x.lastAddr), (o + 0x24, w32 (x.lastAddr / 2 ^ 32)), (o + 0x28, x.lastInfo),
     (o + 0x2C, w32 (min x.scrubPasses 65535 * 65536 + x.scrubProgress % 1024)), (o + 0x30, shuttleCfgWord s k)] ++
    shuttleRegs s k 0x34 ++ shuttleRegs s k 0x3C ++
    [(o + 0x44, w32 (x.waitMax.toList.getD (x.selChannel * 5 + x.selClass) 0)), (o + 0x48, w32 (x.highWater * 65536 + x.outstanding))] ++
    errReg s (o + 0x4C) ++ [(o + 0x50, w32 (min ((stackShards s k).filter (·.shadowReady)).length (2 ^ 24 - 1)))] ++ errReg s (o + 0x54)

def sknRegs (s : State) (k : StackIx) : List (Nat × Word) :=
  let x := s.stack k
  let o := sknBase k
  [(o, sknStatus s k), (o + 4, 0), (o + 8, 0), (o + 0xC, w32 (x.selClass * 256 + x.selChannel))] ++ sknLatched s k

-- The register map (R351).

/-- The core whose register block an offset lies in. -/
def coreAt (off : Nat) : Option CoreIx :=
  if 0x1000000 ≤ off ∧ off < 0x5000000 then
    let d := off / 0x1000000 - 1
    let cl := off / 0x100000 % 16
    let k := off / 0x10000 % 16
    if h : cl < 12 ∧ k < 12 ∧ d < 4 then some ⟨d * 144 + cl * 12 + k, by omega⟩ else none
  else none

/-- The stack whose register block an offset lies in. -/
def stackAt (off : Nat) : Option StackIx :=
  if h : 0x8000000 ≤ off ∧ off < 0x8800000 then some ⟨off / 0x100000 - 128, by omega⟩ else none

/-- The registers of the block that an offset lies in, with their present values. -/
def blockRegs (s : State) (off : Nat) : List (Nat × Word) :=
  if off < 0x100000 then identityRegs s ++ warpRegs s ++ numRegs s ++ stepRegs s ++ nepRegs s
  else if off < 0x200000 then weftRegs s
  else if off < 0x300000 then trdRegs s
  else if off < 0x400000 then plyRegs s
  else if off < 0x500000 then reelRegs s
  else if off < 0x600000 then rovRegs s
  else if off < 0x700000 then secRegs s
  else
    match coreAt off, stackAt off with
    | some c, _ => coreRegs s c.val
    | none, some k => sknRegs s k
    | none, none => []

/-- The value of a register now; none where there is no register. The spool window is not one of them. -/
def liveReg (s : State) (off : Nat) : Option Word := ((blockRegs s off).find? fun r => r.1 == off).map (·.2)

/-- The offset lies in a core's spool window (R143). -/
def inSpoolWindow (off : Nat) : Bool := (coreAt off).isSome && decide (0x8000 ≤ off % 0x10000)

/-- A register or a window word stands at the offset. -/
def mapped (s : State) (off : Nat) : Bool := (liveReg s off).isSome || inSpoolWindow off

-- SNAP (R406).

/-- What a SNAP register latches. -/
def snapRegs (s : State) : SnapReg → List (Nat × Word)
  | .num => numLatched s
  | .step => stepLatched s
  | .bobbin => bobbinLatched s
  | .reel => reelLatched s
  | .rov => rovLatched s
  | .weft => weftLatched s
  | .ply => plyLatched s
  | .trd => trdLatched s
  | .sec => secLatched s
  | .skn k => sknLatched s k
  | .spd c => spdLatched s c.val

/-- Offset of a SNAP register. -/
def snapOff : SnapReg → Nat
  | .num => 0x80C
  | .step => 0x904
  | .bobbin => 0x984
  | .reel => 0x400004
  | .rov => 0x500008
  | .weft => 0x100004
  | .ply => 0x300004
  | .trd => 0x200008
  | .sec => 0x600004
  | .skn k => sknBase k + 8
  | .spd c => coreBase c.val + 0x40

/-- A write of a SNAP register: a one in bit 0 latches. -/
def writeSnap (reg : SnapReg) (val : Word) (s : State) : State := if wbit val 0 then latch (snapRegs s reg) s else s

def execSnap (reg : SnapReg) (val : Word) (s : State) : Out := .next (gated (snapOff reg) (writeSnap reg val) s)

/-- A register that SNAP latches. -/
def isLatched (s : State) (off : Nat) : Bool :=
  let regs : List SnapReg := [.num, .step, .bobbin, .reel, .rov, .weft, .ply, .trd, .sec] ++
    ((coreAt off).map SnapReg.spd).toList ++ ((stackAt off).map SnapReg.skn).toList
  regs.any fun r => (snapRegs s r).any fun x => x.1 == off

/-- What the host reads (R351, R352, R406): before READY only the first 256 bytes; a latched register gives the copy of its last SNAP,
and its reset value before the first. -/
def readReg (s : State) (off : Nat) : Word :=
  if !isReady s && decide (0x100 ≤ off) then 0
  else if isLatched s off then assocGet ((liveReg State.reset off).getD 0) off s.hub.latched
  else (liveReg s off).getD 0

/-- What configuration reads return (R352): the configuration space, once the link is up. -/
def configRead (s : State) : Option CfgBlk := if s.hub.linkUp then some s.hub.cfg else none

-- Writes without a row of their own.

/-- A write into the MSI-X table; unmasking an entry sends a message that was held pending. -/
def writeMsix (i : Nat) (val : Word) (s : State) : State :=
  s.onTel fun t =>
    let m := { t.msix with table := t.msix.table.set i val }
    let v := i / 4
    { t with msix := if i % 4 == 3 && !wbit val 0 && m.pending.getD v false then
                { m with pending := m.pending.set v false, sent := v :: m.sent }
              else m }

/-- HUB_WARP_CTRL (R62): both actions in one write are ignored as a whole. -/
def writeWarpCtrl (val : Word) (s : State) : State :=
  match wbit val 0, wbit val 1 with
  | true, true => busyReject s
  | true, false => writeLoad (wbit val 2) s
  | false, true => writeUnload (wbit val 2) s
  | false, false => s.onWarp fun w => { w with cont := wbit val 2 }

/-- A queue's base registers are taken while it is DISABLED (R356). -/
def writeQueueBase (q : QueueIx) (f : Queue → Queue) (s : State) : State :=
  if (s.queue q).st == .disabled then s.onQueue q f else s

/-- Registers of one queue. DESIGN CHOICE: a base off its 4 KiB boundary is kept and used as written (R356; log entry 192). -/
def writeQueueReg (q : QueueIx) (r : Nat) (val : Word) (s : State) : State :=
  if r == 0 then writeQueueCtrl q val s
  else if r == 4 then s.onQueue q fun x => { x with errorSeen := x.errorSeen && !wbit val 2 }
  else if r == 8 then writeQueueBase q (fun x => { x with baseLo := val }) s
  else if r == 0xC then writeQueueBase q (fun x => { x with baseHi := val }) s
  else if r == 0x10 then writeQueueBase q (fun x => { x with complLo := val }) s
  else if r == 0x14 then writeQueueBase q (fun x => { x with complHi := val }) s
  else if r == 0x18 then writeTail q val s
  else if r == 0x20 then writeComplHead q val s
  else s

/-- HUB_ registers from 0x400. -/
def writeHub (off : Nat) (val : Word) (s : State) : State :=
  if off == 0x400 then writeWarpCtrl val s
  else if off == 0x404 then s.onWarp fun w => { w with busyReject := w.busyReject && !wbit val 8 }
  else if off == 0x40C then s.onWarp fun w => { w with length := val }
  else if off == 0x410 then s.onWarp fun w => { w with srcLo := val }
  else if off == 0x414 then s.onWarp fun w => { w with srcHi := val }
  else if off == 0x808 then s.onNum fun n => { n with sel := wfield val 13 0, jobView := wbit val 31 }
  else if off == 0x80C then writeSnap .num val s
  else if off == 0x904 then writeSnap .step val s
  else if off == 0x924 then
    s.onStp fun b => { b with phaseView := wbit val 4, phaseSel := if wfield val 2 0 < 6 then wfield val 2 0 else b.phaseSel }
  else if off == 0x980 then s.onBob fun b => { b with sel := wfield val 7 0 }
  else if off == 0x984 then writeSnap .bobbin val s
  else if off == 0xA00 then writeNepCtrl val s
  else if off == 0xA04 then s.onNep fun n => { n with key0 := val }
  else if off == 0xA08 then s.onNep fun n => { n with key1 := val }
  else if 0xA10 ≤ off ∧ off < 0xA20 then s.onNep fun n => { n with ctr := n.ctr.set ((off - 0xA10) / 4) val }
  else s

/-- WEFT_ registers. -/
def writeWeft (off : Nat) (val : Word) (s : State) : State :=
  if off == 0x100004 then writeSnap .weft val s
  else if off == 0x100008 then s.onTel fun t => { t with ring := { t.ring with baseLo := val } }
  else if off == 0x10000C then s.onTel fun t => { t with ring := { t.ring with baseHi := val } }
  else if off == 0x100010 then writeEventCtrl val s
  else if off == 0x100018 then writeEventHead val s
  else if 0x100100 ≤ off ∧ off < 0x100200 then writeQueueReg 0 (off - 0x100100) val s
  else if 0x100200 ≤ off ∧ off < 0x100300 then writeQueueReg 1 (off - 0x100200) val s
  else s

/-- TRD_ registers. -/
def writeTrd (off : Nat) (val : Word) (s : State) : State :=
  if off == 0x200000 then s.onTrd fun t => { t with capRefused := t.capRefused && !wbit val 20 }
  else if off == 0x200004 then writeTrdCtrl .host val s
  else if off == 0x200008 then writeSnap .trd val s
  else if off == 0x20000C then writeCap val s
  else s

/-- PLY_ registers. -/
def writePly (off : Nat) (val : Word) (s : State) : State :=
  if off == 0x300004 then writeSnap .ply val s
  else if off == 0x300008 then writeCardingCtrl val s
  else if off == 0x3000F0 then s.onPly fun y => { y with execSel := if wfield val 1 0 < 3 then wfield val 1 0 else y.execSel }
  else s

/-- REEL_ registers. -/
def writeReel (off : Nat) (val : Word) (s : State) : State :=
  if off == 0x400004 then writeSnap .reel val s
  else if off == 0x400008 then s.onReel fun r => { r with sel := wfield val 19 0 }
  else s

/-- ROV_ registers. -/
def writeRov (off : Nat) (val : Word) (s : State) : State :=
  if off == 0x500004 then writePortDisable (BitVec.ofNat 9 val.toNat) s
  else if off == 0x500008 then writeSnap .rov val s
  else if 0x501000 ≤ off ∧ off < 0x501900 ∧ off % 0x100 = 4 then writeRetrain (Fin.ofNat 9 ((off - 0x501000) / 0x100)) val s
  else s

/-- SEC_ registers. -/
def writeSec (off : Nat) (val : Word) (s : State) : State :=
  if off == 0x600004 then writeSnap .sec val s
  else if off == 0x600008 then writeReportCtrl val s
  else if 0x600010 ≤ off ∧ off < 0x600030 then s.onSec fun b => { b with nonce := b.nonce.set ((off - 0x600010) / 4) val }
  else if off == 0x600030 then s.onSec fun b => { b with addrLo := val }
  else if off == 0x600034 then s.onSec fun b => { b with addrHi := val }
  else if off == 0x600068 then s.onSec fun b => { b with measSel := if wfield val 2 0 < 4 then wfield val 2 0 else b.measSel }
  else s

/-- SPD_ registers of a core, and its spool window. -/
def writeSpd (c : CoreIx) (r : Nat) (val : Word) (s : State) : State :=
  if r == 0 then writeCoreStatus c.val val s
  else if r == 0x10 then (if wbit val 31 then clearFirstInvalid c.val s else s)
  else if r == 0x40 then writeSnap (.spd c) val s
  else if r == 0x60 then writePage c.val val s
  else if 0x70 ≤ r ∧ r < 0x80 then (if wbit val 31 then accClear ⟨c, bitOf r 3, bitOf r 2⟩ s else s)
  else if 0x8000 ≤ r then spoolWindow c ((r - 0x8000) / 4) (.write val) s
  else s

/-- SKN_ registers of a stack: a reserved CLASS leaves that field unchanged. -/
def writeSkn (k : StackIx) (r : Nat) (val : Word) (s : State) : State :=
  if r == 4 then writeSknCtrl k val s
  else if r == 8 then writeSnap (.skn k) val s
  else if r == 0xC then
    s.onStack k fun x => { x with selChannel := wfield val 4 0, selClass := if wfield val 10 8 < 5 then wfield val 10 8 else x.selClass }
  else s

/-- A write outside the boot window. -/
def writeBlock (off : Nat) (val : Word) (s : State) : State :=
  if off < 0x100000 then writeHub off val s
  else if off < 0x200000 then writeWeft off val s
  else if off < 0x300000 then writeTrd off val s
  else if off < 0x400000 then writePly off val s
  else if off < 0x500000 then writeReel off val s
  else if off < 0x600000 then writeRov off val s
  else if off < 0x700000 then writeSec off val s
  else
    match coreAt off, stackAt off with
    | some c, _ => writeSpd c (off % 0x10000) val s
    | none, some k => writeSkn k (off % 0x100000) val s
    | none, none => s

/-- The boot window (R352). -/
def inBootWindow (off : Nat) : Bool := decide (0x80 ≤ off) && decide (off < 0x100)

/-- A write in the boot window. -/
def writeBoot (off : Nat) (val : Word) (s : State) : State :=
  if off < 0xC0 then writeMsix ((off - 0x80) / 4) val s
  else if off == 0xFC then s.onHub fun h => { h with bootScratch := val }
  else s

/-- An access of a wrong size or alignment, or to a reserved range, writes nothing and is counted (R351). -/
def badAccess (s : State) : State := countErr 0x18 s

/-- A host write of 32 bits (R14, R351, R352). -/
def writeReg (off : Nat) (val : Word) (s : State) : State :=
  if !isReady s && !inBootWindow off then refuseWrite off s
  else if off % 4 != 0 || !mapped s off then badAccess s
  else if inBootWindow off then writeBoot off val s
  else writeBlock off val s

def execRegisterWrite (off : BitVec 28) (val : Word) (s : State) : Out := .next (writeReg off.toNat val s)

/-- An access is bad by itself: its size, its alignment or where it goes. -/
def accessBad (s : State) (off size : Nat) : Bool := size != 4 || off % 4 != 0 || !mapped s off

/-- A bad access (R351, R352): a write before READY outside the boot window is dropped and reported; a bad access reads zero or
writes nothing, and is counted; a read before READY outside the first 256 bytes reads zero. -/
def badBarAccess (isWrite : Bool) (off size : Nat) (s : State) : State :=
  if isWrite && !isReady s && !inBootWindow off then refuseWrite off s
  else
    let bad := accessBad s off size
    let s1 := if bad then badAccess s else s
    if !isWrite && (bad || (!isReady s && decide (0x100 ≤ off))) then busRead (List.replicate size 0) false s1 else s1

def execBadAccess (isWrite : Bool) (off : BitVec 28) (size : Nat) (s : State) : Out := .next (badBarAccess isWrite off.toNat size s)

end Sys2Proof.Machine
end

