-- ==== Sys2Proof/Machine/Issue.lean ====
section
/-! DEFINITION. The readiness scheduler of a cluster (R183 to R186, R394, R487): which ready work it issues next, and its wait limit. -/

namespace Sys2Proof.Machine

-- One view of tiles, drains and whorl work.

/-- What the scheduler sees of a work: its layer, phase, micro-batch, and its tile's logical place (a whorl's rows in 128s). -/
structure WorkId where
  layer : Nat
  phase : Phase
  microBatch : Nat
  tileRow : Nat
  tileCol : Nat
  deriving DecidableEq, Repr

def TileWork.id (t : TileWork) : WorkId := ⟨t.layer, t.phase, t.microBatch, t.tileRow, t.tileCol⟩

/-- The identity of a work; a drain has that of the tile it drains. -/
def workId (s : State) : Work → Option WorkId
  | .tile t => some (TileWork.id t)
  | .drain d => (s.tile d.acc).work.map TileWork.id
  | .whorl w => some ⟨w.layer, w.phase, w.microBatch, w.row / 128, w.feat / 128⟩

/-- The work is ready in a cluster (R183). -/
def workReady (s : State) (cl : ClusterIx) : Work → Bool
  | .tile t => tileReady s cl t
  | .drain d => drainReady s d && !s.stp.dead.contains cl.val
  | .whorl w => whorlReady s w

-- The order of R184.

/-- A drain whose engine has no second accumulator tile to go on with. -/
def fullEngine (s : State) (a : AccRef) : Bool := (s.tile { a with tile := false }).st != .idle && (s.tile { a with tile := true }).st != .idle

/-- Place in the order: 0 aged, 1 drains that an engine waits for, 2 B, 3 F, 4 recomputation; within it the oldest micro-batch first. -/
def workRank (s : State) (w : Work) : Nat :=
  match workId s w with
  | none => 5 * 65536
  | some i =>
    let aged := s.stp.aged.any fun x =>
      x.layer == i.layer && x.tileRow == i.tileRow && x.tileCol == i.tileCol && x.microBatch == i.microBatch && x.phase == i.phase
    let full := match w with | .drain d => fullEngine s d.acc | _ => false
    let cls := if aged then 0 else if full then 1 else match i.phase with
      | .bAct | .bWgt | .lowRank => 2
      | .fwd => 3
      | .bRecomp | .selfTest => 4
    cls * 65536 + i.microBatch

/-- The first of the ready works that none goes before. -/
def pickWork (s : State) (cl : ClusterIx) (ready : List Work) : Option Work :=
  (ready.filter (workReady s cl)).foldl (fun best w =>
    match best with
    | none => some w
    | some b => if workRank s w < workRank s b then some w else some b) none

/-- A core's prefetcher takes the descriptors of at most 16 ready tiles of its stage that no core before it has taken (R26, R291's latency
table; log entry 131). -/
def prefetchCore (cl : ClusterIx) (x : State × List TileWork) (c : CoreIx) : State × List TileWork :=
  let mine := (x.2.filter fun t => (stageCores x.1 cl (stageOf x.1 t.layer)).contains c).take 16
  (x.1.onCore c.val fun k => { k with queue := mine }, x.2.filter fun t => !mine.contains t)

/-- After an issue the prefetchers of a cluster fetch ahead what else is ready. -/
def prefetch (cl : ClusterIx) (ready : List Work) (issued : Work) (s : State) : State :=
  let rest := ready.filterMap fun w => match w with | .tile t => if w != issued && tileReady s cl t then some t else none | _ => none
  ((clusterCores cl).foldl (prefetchCore cl) (s, rest)).1

/-- Issue one work in a cluster. -/
def issueWork (cl : ClusterIx) (err : Option UnitError) (s : State) : Work → State
  | .tile t =>
    match placeWork s cl t with
    | some a => noteEnds (issueTile a t err s)
    | none => s
  | .drain d => tileDrain { d with err := d.err.or err } s
  | .whorl w => match layerOf s w.layer with | some l => whorlOp { w with err := w.err.or err } l s | none => s

/-- One issue of a cluster's scheduler. A cluster that needs work and has no usable core makes the device report a fault (R394). -/
def tileIssue (cl : ClusterIx) (ready : List Work) (err : Option UnitError) (s : State) : State :=
  if !arithmeticOn s || ready.isEmpty then s
  else if ((clusterCores cl).filter (usable s)).isEmpty then faultNow s
  else
    match pickWork s cl ready with
    | some w => prefetch cl ready w (issueWork cl err s w)
    | none => s

def execTileIssue (cluster : ClusterIx) (ready : List Work) (err : Option UnitError) (s : State) : Out :=
  checked (ready.all (Work.shaped cluster)) (tileIssue cluster ready err s)

-- The wait limit (R186).

/-- A place is the receive buffer of a block that has not come, or a factor whose result has not. -/
def awaitsBlock (s : State) (l : Loc) : Bool :=
  match l with
  | .kv p k h b _ => match s.kvBlock p k h b with | some x => !x.delivered | none => true
  | .factor k x _ => (s.factor k x).isEmpty
  | _ => false

def sourceAwaits (s : State) : TileSrc → Bool
  | .narrow t _ _ _ => awaitsBlock s t.elem || awaitsBlock s t.hdr || awaitsBlock s t.slub
  | .wide _ base _ _ _ _ _ => awaitsBlock s base

/-- The ring has not brought what a work's send or its move needs, or stands before its key block (R213). -/
def awaitsRing (s : State) (layer mb : Nat) (p : Phase) (r : Option RingSend) (m : Option RingMove) : Bool :=
  let step := assocGet 0 layer s.stp.ring
  (match r with
   | some x => decide (2 ≤ x.part) && step != 0 && !partHere s layer x.block x.part
   | none => false) ||
  match m with
  | some _ => (List.range (ringBlocks s mb)).any fun b => (dueParts s (p == .bAct) step).any fun x => !partHere s layer b x
  | none => false

/-- The shard of a key block is not yet that of the layer's ring step. -/
def awaitsTurn (s : State) (layer mb block : Nat) : Bool :=
  match layerOf s layer with
  | some l => (l.kind == 1 || l.kind == 2) && (mbSeqs s mb).all fun e => block / max 1 (shardBlocks s e) != shardNow s layer
  | none => false

/-- The work waits for what roving brings: parameters, a key or value block, the ring's step, a factor, a hank's scale. Those waits have
limits of their own. -/
def awaitsRoving (s : State) (w : Work) : Bool :=
  (match workId s w with
   | some i => i.phase == .fwd && !paramsResident s i.layer
   | none => false) ||
  match w with
  | .tile t => sourceAwaits s t.a || sourceAwaits s t.b || awaitsTurn s t.layer t.microBatch t.keyBlock
  | .drain d => !hanksAgreed s d || match (s.tile d.acc).work with
    | some t => awaitsRing s t.layer t.microBatch t.phase d.ring d.ringMove
    | none => false
  | .whorl x =>
    ((WhorlOp.vecs x.op).any fun v => awaitsBlock s v.base) || awaitsRing s x.layer x.microBatch x.phase x.ring x.ringMove ||
      awaitsTurn s x.layer x.microBatch x.keyBlock

/-- A tile of the cluster executes: it is not idle, and none of the unissued works is its next. -/
def tileExecuting (s : State) (cl : ClusterIx) (unissued : List Work) : Bool :=
  ((clusterCores cl).flatMap coreTiles).any fun a =>
    (s.tile a).st != .idle && !(unissued.any fun w => match w with
      | .tile t => t.start == .handOver a
      | .drain d => d.acc == a
      | .whorl _ => false)

/-- The works that remain in a cluster after event 0x1305 are abandoned, with what depends on them (R487). -/
def loseCluster (cl : ClusterIx) (unissued : List Work) (s : State) : State :=
  (unissued.filterMap (workId s)).foldl (fun t i => loseWork i.phase i.layer t) (s.onStp fun b => { b with dead := cl.val :: b.dead })

/-- No tile of a cluster has become ready for 20 ms, work remains there, and nothing in it executes (R186). -/
def schedulerWaits (s : State) (cl : ClusterIx) (unissued : List Work) : Bool :=
  s.stp.running && !s.stp.dead.contains cl.val && !unissued.isEmpty && !unissued.any (workReady s cl) &&
    !tileExecuting s cl unissued && !unissued.any (awaitsRoving s)

def execSchedulerWaitTimeout (cluster : ClusterIx) (unissued : List Work) (s : State) : Out :=
  checked (unissued.all (Work.shaped cluster))
    (if schedulerWaits s cluster unissued then
       noteEnds (loseCluster cluster unissued (faultNow (raise 0x1305 [cluster.val] s)))
     else s)

end Sys2Proof.Machine
end

