-- ==== Sys2Proof/Machine/Jtag.lean ====
section
/-! DEFINITION. The I3C target, the test access port and host snoops (R346, R474, R476, R478). -/

namespace Sys2Proof.Machine

/-- The static address (R474). -/
def staticAddr (s : State) : BitVec 7 := 0x08 + s.mod.slot.zeroExtend 7

/-- SETDASA assigns the dynamic address from the static one (R474), once the target is enabled. -/
def execSetdasa (addr : BitVec 7) (s : State) : Out :=
  .next (if s.i3c.enabled then s.onI3c fun i => { i with dynAddr := some addr } else s)

/-- A stalled transfer is abandoned and the bus released (R478): the model holds no transfer in progress. -/
def execI3cTransferTimeout (s : State) : Out := .next s

/-- The IDCODE register (R476). -/
def idcodeWord : Word :=
  w32 (Config.stepping.toNat % 16 * 2 ^ 28 + 0xD4A1 * 4096 + Config.jep106.toNat * 2 + 1)

/-- Select an instruction that is always decoded; `out` is what its register shifts out. -/
def selectTap (i : TapInstr) (out : List Bool) (s : State) : State :=
  (s.onJtag fun j => { j with ir := i }).onOut fun o => { o with tdo := out }

/-- Select an instruction that is decoded only while MODULE_RESET_N is asserted, and as BYPASS otherwise (R476). -/
def selectInReset (i : TapInstr) (s : State) : State :=
  if s.mod.resetAsserted then selectTap i s.jtag.boundary s else selectTap .bypass [false] s

def execIdcode (s : State) : Out := .next (selectTap .idcode ((List.range 32).map fun k => wbit idcodeWord k) s)

/-- BYPASS, and every code that is not decoded. -/
def execBypass (_code : Nat) (s : State) : Out := .next (selectTap .bypass [false] s)

/-- SAMPLE/PRELOAD: the pins are captured; a preload replaces the boundary register. -/
def execSamplePreload (pins : List Bool) (preload : Option (List Bool)) (s : State) : Out :=
  .next (selectTap .samplePreload pins (match preload with
    | some b => s.onJtag fun j => { j with boundary := b }
    | none => s))

/-- EXTEST drives the pins from the boundary register. -/
def execExtest (s : State) : Out := .next (selectInReset .extest s)

/-- CLAMP holds the outputs at the boundary register's values. -/
def execClamp (s : State) : Out :=
  .next (if s.mod.resetAsserted then selectTap .clamp [false] s else selectTap .bypass [false] s)

/-- HIGHZ puts the outputs in high impedance. -/
def execHighz (s : State) : Out :=
  .next (if s.mod.resetAsserted then selectTap .highz [false] s else selectTap .bypass [false] s)

def execExtestPulse (s : State) : Out := .next (selectInReset .extestPulse s)
def execExtestTrain (s : State) : Out := .next (selectInReset .extestTrain s)

/-- What the pins in the boundary register see of the test access port: driven values, or none where the module drives itself. Out
of module reset these instructions decode as BYPASS (R476). -/
def drivenPins (s : State) : Option (List Bool) :=
  if !s.mod.resetAsserted then none
  else match s.jtag.ir with
  | .extest | .clamp | .extestPulse | .extestTrain => some s.jtag.boundary
  | _ => none

/-- A host snoop is answered as a miss (R346). -/
def execSnoop (_addr : BitVec 64) (s : State) : Out :=
  .next (if s.hub.linkUp then s.onOut fun o => { o with snoopMisses := o.snoopMisses + 1 } else s)

end Sys2Proof.Machine
end

