-- ==== Sys2Proof/Machine/Dispatch.lean ====
section
/-! DEFINITION. The dispatch: one arm per command. -/

namespace Sys2Proof.Machine

def exec (i : Instr) (s : State) : Host.Outcome State Fault Refusal :=
  match i with
  | .registerWrite off val => Sys2Proof.Machine.execRegisterWrite off val s
  | .badAccess isWrite off size => Sys2Proof.Machine.execBadAccess isWrite off size s
  | .snap reg val => Sys2Proof.Machine.execSnap reg val s
  | .load cont => Sys2Proof.Machine.execLoad cont s
  | .unload cont => Sys2Proof.Machine.execUnload cont s
  | .verify => Sys2Proof.Machine.execVerify s
  | .validate => Sys2Proof.Machine.execValidate s
  | .feasibility => Sys2Proof.Machine.execFeasibility s
  | .distribute => Sys2Proof.Machine.execDistribute s
  | .loaderTimeout => Sys2Proof.Machine.execLoaderTimeout s
  | .accClear acc => Sys2Proof.Machine.execAccClear acc s
  | .windowPageWrite core val => Sys2Proof.Machine.execWindowPageWrite core val s
  | .spoolWindowAccess core word access => Sys2Proof.Machine.execSpoolWindowAccess core word access s
  | .firstInvalidClear core => Sys2Proof.Machine.execFirstInvalidClear core s
  | .firstFIssue => Sys2Proof.Machine.execFirstFIssue s
  | .frameReserve stage microBatch => Sys2Proof.Machine.execFrameReserve stage microBatch s
  | .tileIssue cluster ready err => Sys2Proof.Machine.execTileIssue cluster ready err s
  | .agedTilePriority cluster layer tileRow tileCol microBatch phase => Sys2Proof.Machine.execAgedTilePriority cluster layer tileRow tileCol microBatch phase s
  | .slubPass acc err => Sys2Proof.Machine.execSlubPass acc err s
  | .tileDrain d => Sys2Proof.Machine.execTileDrain d s
  | .whorlOp w => Sys2Proof.Machine.execWhorlOp w s
  | .bobbinPop stage microBatch layer dst damage err => Sys2Proof.Machine.execBobbinPop stage microBatch layer dst damage err s
  | .schedulerWaitTimeout cluster unissued => Sys2Proof.Machine.execSchedulerWaitTimeout cluster unissued s
  | .updateShard tag err => Sys2Proof.Machine.execUpdateShard tag err s
  | .updateSegmentCheck tag segment faulty => Sys2Proof.Machine.execUpdateSegmentCheck tag segment faulty s
  | .sendVerdictSet => Sys2Proof.Machine.execSendVerdictSet s
  | .admitRequest rx => Sys2Proof.Machine.execAdmitRequest rx s
  | .admitReply rx => Sys2Proof.Machine.execAdmitReply rx s
  | .admitRetry => Sys2Proof.Machine.execAdmitRetry s
  | .nonfiniteNotice rx => Sys2Proof.Machine.execNonfiniteNotice rx s
  | .verdict rx => Sys2Proof.Machine.execVerdict rx s
  | .layerCounts rx => Sys2Proof.Machine.execLayerCounts rx s
  | .shardRatios rx => Sys2Proof.Machine.execShardRatios rx s
  | .skipNotice rx => Sys2Proof.Machine.execSkipNotice rx s
  | .commit rx => Sys2Proof.Machine.execCommit rx s
  | .skip rx => Sys2Proof.Machine.execSkip rx s
  | .replay rx => Sys2Proof.Machine.execReplay rx s
  | .halt rx => Sys2Proof.Machine.execHalt rx s
  | .start rx => Sys2Proof.Machine.execStart rx s
  | .decisionQuery rx => Sys2Proof.Machine.execDecisionQuery rx s
  | .decisionQueryTimer => Sys2Proof.Machine.execDecisionQueryTimer s
  | .decisionTimeout => Sys2Proof.Machine.execDecisionTimeout s
  | .verdictTimeout => Sys2Proof.Machine.execVerdictTimeout s
  | .hankSegment rx => Sys2Proof.Machine.execHankSegment rx s
  | .rescale rx => Sys2Proof.Machine.execRescale rx s
  | .scaleProposal rx => Sys2Proof.Machine.execScaleProposal rx s
  | .scaleAgreed rx => Sys2Proof.Machine.execScaleAgreed rx s
  | .factorResult rx => Sys2Proof.Machine.execFactorResult rx s
  | .paramSegment rx => Sys2Proof.Machine.execParamSegment rx s
  | .paramEnd rx => Sys2Proof.Machine.execParamEnd rx s
  | .paramResend rx => Sys2Proof.Machine.execParamResend rx s
  | .plyLeaf rx => Sys2Proof.Machine.execPlyLeaf rx s
  | .plyLeafQuery rx => Sys2Proof.Machine.execPlyLeafQuery rx s
  | .plyLeafMissing tag step => Sys2Proof.Machine.execPlyLeafMissing tag step s
  | .scaleAgreementTimeout tag => Sys2Proof.Machine.execScaleAgreementTimeout tag s
  | .hankTimeout tag rank => Sys2Proof.Machine.execHankTimeout tag rank s
  | .paramEndTimeout tag => Sys2Proof.Machine.execParamEndTimeout tag s
  | .kvBlock rx => Sys2Proof.Machine.execKvBlock rx s
  | .kvBlockTimeout layer shard block => Sys2Proof.Machine.execKvBlockTimeout layer shard block s
  | .initialisation err => Sys2Proof.Machine.execInitialisation err s
  | .nepTestRun val => Sys2Proof.Machine.execNepTestRun val s
  | .nepTestDone => Sys2Proof.Machine.execNepTestDone s
  | .skeinRequest cls byLoader addr op ecc parity => Sys2Proof.Machine.execSkeinRequest cls byLoader addr op ecc parity s
  | .cxlMemRead addr len ecc parity => Sys2Proof.Machine.execCxlMemRead addr len ecc parity s
  | .cxlMemWrite addr data parity => Sys2Proof.Machine.execCxlMemWrite addr data parity s
  | .refresh stack chan bank => Sys2Proof.Machine.execRefresh stack chan bank s
  | .scrub stack off kind => Sys2Proof.Machine.execScrub stack off kind s
  | .windowRefill stack chan beats => Sys2Proof.Machine.execWindowRefill stack chan beats s
  | .arbitration stack chan requests beats wait => Sys2Proof.Machine.execArbitration stack chan requests beats wait s
  | .burstLimit stack chan requests beats wait => Sys2Proof.Machine.execBurstLimit stack chan requests beats wait s
  | .backoffEnd stack chan cls => Sys2Proof.Machine.execBackoffEnd stack chan cls s
  | .shuttleStarved stack chan cls wait => Sys2Proof.Machine.execShuttleStarved stack chan cls wait s
  | .clearWaitMax stack val => Sys2Proof.Machine.execClearWaitMax stack val s
  | .physicalTrainingDone port lanes rtt => Sys2Proof.Machine.execPhysicalTrainingDone port lanes rtt s
  | .trainingAttemptTimeout port => Sys2Proof.Machine.execTrainingAttemptTimeout port s
  | .hello rx => Sys2Proof.Machine.execHello rx s
  | .helloTimeout port => Sys2Proof.Machine.execHelloTimeout port s
  | .lossOfLock port lanes => Sys2Proof.Machine.execLossOfLock port lanes s
  | .portDown port => Sys2Proof.Machine.execPortDown port s
  | .align port count => Sys2Proof.Machine.execAlign port count s
  | .idle port => Sys2Proof.Machine.execIdle port s
  | .idleSend port => Sys2Proof.Machine.execIdleSend port s
  | .alignSend port => Sys2Proof.Machine.execAlignSend port s
  | .uncorrectableCodeword port discarded => Sys2Proof.Machine.execUncorrectableCodeword port discarded s
  | .linkCtrl rx => Sys2Proof.Machine.execLinkCtrl rx s
  | .linkCtrlSend port => Sys2Proof.Machine.execLinkCtrlSend port s
  | .ackTimeout port => Sys2Proof.Machine.execAckTimeout port s
  | .vc0CreditTimeout port => Sys2Proof.Machine.execVc0CreditTimeout port s
  | .notReady rx => Sys2Proof.Machine.execNotReady rx s
  | .notReadyBackoff port => Sys2Proof.Machine.execNotReadyBackoff port s
  | .portDisable mask => Sys2Proof.Machine.execPortDisable mask s
  | .retrain port val => Sys2Proof.Machine.execRetrain port val s
  | .hostAttachReset kind => Sys2Proof.Machine.execHostAttachReset kind s
  | .hostLinkRetrain => Sys2Proof.Machine.execHostLinkRetrain s
  | .hostLinkDown => Sys2Proof.Machine.execHostLinkDown s
  | .doorbell q val => Sys2Proof.Machine.execDoorbell q val s
  | .descriptorConsume q words => Sys2Proof.Machine.execDescriptorConsume q words s
  | .complHeadWrite q val => Sys2Proof.Machine.execComplHeadWrite q val s
  | .queueEnable q val => Sys2Proof.Machine.execQueueEnable q val s
  | .queueDisable q val => Sys2Proof.Machine.execQueueDisable q val s
  | .eventRingEnable val => Sys2Proof.Machine.execEventRingEnable val s
  | .eventHeadWrite val => Sys2Proof.Machine.execEventHeadWrite val s
  | .step seqTable tokens poisonAt => Sys2Proof.Machine.execStep seqTable tokens poisonAt s
  | .infer seqTable tokens reqTable poisonAt err => Sys2Proof.Machine.execInfer seqTable tokens reqTable poisonAt err s
  | .seed => Sys2Proof.Machine.execSeed s
  | .ckptSave err => Sys2Proof.Machine.execCkptSave err s
  | .ckptRestore buffer poisoned => Sys2Proof.Machine.execCkptRestore buffer poisoned s
  | .copyIn data poisoned err => Sys2Proof.Machine.execCopyIn data poisoned err s
  | .copyOut bytes err => Sys2Proof.Machine.execCopyOut bytes err s
  | .descriptorReadTimeout q => Sys2Proof.Machine.execDescriptorReadTimeout q s
  | .dataReadTimeout q seqTable tokens reqTable word => Sys2Proof.Machine.execDataReadTimeout q seqTable tokens reqTable word s
  | .hostWriteTimeout ring => Sys2Proof.Machine.execHostWriteTimeout ring s
  | .completionBlocked q => Sys2Proof.Machine.execCompletionBlocked q s
  | .cardingStart val => Sys2Proof.Machine.execCardingStart val s
  | .cardingResult unit part => Sys2Proof.Machine.execCardingResult unit part s
  | .cardingTimeout unit => Sys2Proof.Machine.execCardingTimeout unit s
  | .inputLow => Sys2Proof.Machine.execInputLow s
  | .inputRecovered => Sys2Proof.Machine.execInputRecovered s
  | .inputLoss => Sys2Proof.Machine.execInputLoss s
  | .overvoltage => Sys2Proof.Machine.execOvervoltage s
  | .stateRequest who val => Sys2Proof.Machine.execStateRequest who val s
  | .capWrite val => Sys2Proof.Machine.execCapWrite val s
  | .managementCap watts => Sys2Proof.Machine.execManagementCap watts s
  | .controlInterval estimate measurement target hot hotQuarter => Sys2Proof.Machine.execControlInterval estimate measurement target hot hotQuarter s
  | .powerDisagreement => Sys2Proof.Machine.execPowerDisagreement s
  | .estimatorRecalibrated => Sys2Proof.Machine.execEstimatorRecalibrated s
  | .powerSensorSuspect => Sys2Proof.Machine.execPowerSensorSuspect s
  | .sensorFaultClear => Sys2Proof.Machine.execSensorFaultClear s
  | .capNotHeld => Sys2Proof.Machine.execCapNotHeld s
  | .emergencyAsserted src => Sys2Proof.Machine.execEmergencyAsserted src s
  | .lastUnitStopped => Sys2Proof.Machine.execLastUnitStopped s
  | .emergencyReleased src => Sys2Proof.Machine.execEmergencyReleased src s
  | .emergencyCommand on => Sys2Proof.Machine.execEmergencyCommand on s
  | .thermalLimit sensor quarterDeg => Sys2Proof.Machine.execThermalLimit sensor quarterDeg s
  | .thermalRelease => Sys2Proof.Machine.execThermalRelease s
  | .thermalTrip sensor quarterDeg => Sys2Proof.Machine.execThermalTrip sensor quarterDeg s
  | .marginEvaluation slackOk shortfall => Sys2Proof.Machine.execMarginEvaluation slackOk shortfall s
  | .marginRaised reserve => Sys2Proof.Machine.execMarginRaised reserve s
  | .refclkHoldover => Sys2Proof.Machine.execRefclkHoldover s
  | .refclkRelock => Sys2Proof.Machine.execRefclkRelock s
  | .refclkLost => Sys2Proof.Machine.execRefclkLost s
  | .refclkRestored => Sys2Proof.Machine.execRefclkRestored s
  | .moduleReset => Sys2Proof.Machine.execModuleReset s
  | .watchdogExpiry => Sys2Proof.Machine.execWatchdogExpiry s
  | .bringupStart straps slot => Sys2Proof.Machine.execBringupStart straps slot s
  | .bootStageVerified stage stack pufOk => Sys2Proof.Machine.execBootStageVerified stage stack pufOk s
  | .attestationReady edOk mlOk => Sys2Proof.Machine.execAttestationReady edOk mlOk s
  | .railFault => Sys2Proof.Machine.execRailFault s
  | .bootStageTimeout => Sys2Proof.Machine.execBootStageTimeout s
  | .skeinTrained => Sys2Proof.Machine.execSkeinTrained s
  | .skeinTrainingFailed stack channels => Sys2Proof.Machine.execSkeinTrainingFailed stack channels s
  | .hostLinkUp hdmBase => Sys2Proof.Machine.execHostLinkUp hdmBase s
  | .hostLinkNotTrained => Sys2Proof.Machine.execHostLinkNotTrained s
  | .bringupComplete failed edOk mlOk => Sys2Proof.Machine.execBringupComplete failed edOk mlOk s
  | .selfTestTimeout untested => Sys2Proof.Machine.execSelfTestTimeout untested s
  | .spiExternalEnable => Sys2Proof.Machine.execSpiExternalEnable s
  | .firmwareUpdate image via => Sys2Proof.Machine.execFirmwareUpdate image via s
  | .revocationList list sequence names via => Sys2Proof.Machine.execRevocationList list sequence names via s
  | .ownershipVoucher v serial sequence edPub mlPub => Sys2Proof.Machine.execOwnershipVoucher v serial sequence edPub mlPub s
  | .enrolWarpKey env keyId edPub mlPub => Sys2Proof.Machine.execEnrolWarpKey env keyId edPub mlPub s
  | .revokeWarpKey env keyId => Sys2Proof.Machine.execRevokeWarpKey env keyId s
  | .enrolSealingKey env keyId key => Sys2Proof.Machine.execEnrolSealingKey env keyId key s
  | .revokeSealingKey env keyId => Sys2Proof.Machine.execRevokeSealingKey env keyId s
  | .raiseWarpFloor env floor => Sys2Proof.Machine.execRaiseWarpFloor env floor s
  | .applyServiceAuth env auth serial generation cores => Sys2Proof.Machine.execApplyServiceAuth env auth serial generation cores s
  | .getVersion => Sys2Proof.Machine.execGetVersion s
  | .getCapabilities => Sys2Proof.Machine.execGetCapabilities s
  | .negotiateAlgorithms => Sys2Proof.Machine.execNegotiateAlgorithms s
  | .getDigests => Sys2Proof.Machine.execGetDigests s
  | .getCertificate slot offset length => Sys2Proof.Machine.execGetCertificate slot offset length s
  | .challenge slot nonce => Sys2Proof.Machine.execChallenge slot nonce s
  | .getMeasurements index nonce => Sys2Proof.Machine.execGetMeasurements index nonce s
  | .keyExchange exchange => Sys2Proof.Machine.execKeyExchange exchange s
  | .finish verifyOk => Sys2Proof.Machine.execFinish verifyOk s
  | .heartbeat => Sys2Proof.Machine.execHeartbeat s
  | .endSession => Sys2Proof.Machine.execEndSession s
  | .sessionTimeout => Sys2Proof.Machine.execSessionTimeout s
  | .getReport nonce => Sys2Proof.Machine.execGetReport nonce s
  | .getPqCert offset length => Sys2Proof.Machine.execGetPqCert offset length s
  | .getQuarantineMap => Sys2Proof.Machine.execGetQuarantineMap s
  | .reportRequest val => Sys2Proof.Machine.execReportRequest val s
  | .setdasa addr => Sys2Proof.Machine.execSetdasa addr s
  | .i3cTransferTimeout => Sys2Proof.Machine.execI3cTransferTimeout s
  | .idcode => Sys2Proof.Machine.execIdcode s
  | .bypass code => Sys2Proof.Machine.execBypass code s
  | .samplePreload pins preload => Sys2Proof.Machine.execSamplePreload pins preload s
  | .extest => Sys2Proof.Machine.execExtest s
  | .clamp => Sys2Proof.Machine.execClamp s
  | .highz => Sys2Proof.Machine.execHighz s
  | .extestPulse => Sys2Proof.Machine.execExtestPulse s
  | .extestTrain => Sys2Proof.Machine.execExtestTrain s
  | .snoop addr => Sys2Proof.Machine.execSnoop addr s

end Sys2Proof.Machine
end

