-- ==== Sys2Proof/Machine/Step.lean ====
section
/-! DEFINITION. One step: the command at the front of the queue, or, on an empty queue, one tick of the reference timer. -/

namespace Sys2Proof.Machine

/-- One 10 ns tick of the reference timer (R41): the timer counts, the arithmetic clock advances by its own rate, and the skein bases
serve what waited for a slot (R292). What the model does on an empty queue in place of idling (log entry 4). -/
def tick (s : State) : State :=
  skeinTick <| reportTick <| s.onClk fun c => { c with refTimer := c.refTimer + 1, arithScaled := c.arithScaled + arithKhz s }

/-- One step. -/
def step (s : State) : Host.Outcome State Fault Refusal :=
  match s.pending with
  | [] => .next (tick s)
  | c :: rest => exec c { s with pending := rest }

/-- `s` with the command that the word spells put at the front of its queue: the table gives no row any bits, so no word spells
a command and `s` is unchanged. -/
def State.withFetchWord (s : State) (nbits w : Nat) : State :=
  match Sys2Proof.decodeTableWord nbits w with
  | some c => { s with pending := c :: s.pending }
  | none => s

end Sys2Proof.Machine
end

