-- ==== Sys2Proof/Safety.lean ====
section
/-! DEFINITION. What a sound state is, in the terms the statements use: memories in canonical form, and the limits of module flash. -/

namespace Sys2Proof.Machine

/-- The four memories: accumulator storage, spools, creels, skein. -/
def State.mems (s : State) : Memory × Memory × Memory × Memory := (s.acc, s.spool, s.creel, s.skein)

/-- Four memories in canonical form. -/
def memsWf (m : Memory × Memory × Memory × Memory) : Prop := m.1.wf = true ∧ m.2.1.wf = true ∧ m.2.2.1.wf = true ∧ m.2.2.2.wf = true

/-- The memories of a state are in canonical form. -/
def State.memWf (s : State) : Prop := memsWf s.mems

/-- The key store keeps to its limits (R447): at most 16 warp keys that are not revoked, and at most 16 sealing keys. -/
def SecFlash.withinLimits (f : SecFlash) : Prop := f.liveKeys ≤ 16 ∧ f.sealKeys.length ≤ 16

/-- No floor of `f` lies above that of `g` (R445). -/
def SecFlash.floorsUpTo (f g : SecFlash) : Prop :=
  f.floorDistaff ≤ g.floorDistaff ∧ f.floorFlyer ≤ g.floorFlyer ∧ f.floorSkein ≤ g.floorSkein ∧ f.floorWarp ≤ g.floorWarp

/-- A sequenced frame arrives in order at a JOINED port, is well formed, is for this device alone, its batch and execution make it one that
is delivered, and its content passes parity inside the device (R304, R321, R326, R330, R332, R488). -/
def Arrives (r : Rx) (s : State) : Prop :=
  (s.port r.port).st = .joined ∧ r.frame.crc = frameSum r.frame ∧ r.frame.seq.toNat = (s.port r.port).rxSeq ∧ malformed s r = false ∧
    r.frame.hops.toNat ≠ deviceCount s ∧ r.frame.dest.toNat = rankOf s ∧ r.frame.dest ≠ 0xFFFF ∧ fate s r.frame = .deliver ∧ r.parity = none

/-- A frame is taken in order: counted, and the sequence number moved on (R329, R330). -/
def taken (r : Rx) (s : State) : State :=
  countEvt (portBase r.port + 0x1C) ((s.onPort r.port fun x => { x with partnerNotReady := false }).onPort r.port fun x =>
    { x with rxSeq := (x.rxSeq + 1) % 65536, nakSent := false })

/-- The state a delivered frame acts on: taken, its credits to return, and what a REVOKE marker drops gone (R327, R333). -/
def arrived (r : Rx) (s : State) : State :=
  giveBack r.port r.frame.vc.toNat r.blocks
    (if r.frame.marker == 4 then dropRevoked r.frame.batch.toNat r.frame.exec.toNat (taken r s) else taken r s)

end Sys2Proof.Machine
end

