-- ==== Sys2Proof/WellFormed.lean ====
section
/-! DEFINITION. Which commands have the form of their row. A command without it cannot be sent: its meaning faults. -/

namespace Sys2Proof.WellFormed

open Sys2Proof.Machine

/-- A command has the form of its row. -/
def Instr.wf : Instr → Bool
  | .admitRequest r => frameOf 0x20 r
  | .admitReply r => frameOf 0x21 r
  | .nonfiniteNotice r => frameOf 0x22 r
  | .verdict r => verdictFrame r
  | .layerCounts r => frameOf 0x24 r
  | .shardRatios r => frameOf 0x25 r
  | .skipNotice r => frameOf 0x26 r
  | .commit r => commitFrame r
  | .skip r => decisionOf 2 r
  | .replay r => decisionOf 3 r
  | .halt r => decisionOf 4 r
  | .start r => decisionOf 5 r
  | .decisionQuery r => frameOf 0x28 r
  | .hankSegment r => segmentFrame r
  | .rescale r => reelOf 2 r
  | .scaleProposal r => reelOf 3 r
  | .scaleAgreed r => reelOf 4 r
  | .factorResult r => reelOf 5 r
  | .paramSegment r => reelOf 6 r
  | .paramEnd r => reelOf 7 r
  | .paramResend r => reelOf 8 r
  | .plyLeaf r => reelOf 9 r
  | .plyLeafQuery r => reelOf 10 r
  | .kvBlock r => frameOf 0x11 r
  | .hello r => frameOf 0x03 r
  | .linkCtrl r => frameOf 0x01 r
  | .notReady r => frameOf 0x04 r
  | .bringupStart straps _ => straps.length == 4
  | .bobbinPop _ _ _ dst damage _ => damage.length == 4 && Loc.near dst && Loc.fits 0 dst
  | .tileIssue cl ready _ => ready.all (Work.shaped cl)
  | .schedulerWaitTimeout cl unissued => unissued.all (Work.shaped cl)
  | .whorlOp w => whorlShaped w
  | .skeinRequest _ _ addr op _ _ => requestShaped addr.toNat op
  | .cxlMemRead addr len _ _ => lineShaped addr.toNat len
  | .cxlMemWrite addr data _ => lineShaped addr.toNat data.length
  | .copyIn data _ _ => wholeLinesLong data.length
  | .copyOut bytes _ => wholeLinesLong bytes
  | .scrub _ off _ => scrubShaped off.toNat
  | .descriptorConsume _ words => words.length == 32
  | .queueEnable _ val => wbit val 31
  | .queueDisable _ val => !wbit val 31
  | .stateRequest _ val => wbit val 27
  | .reportRequest val => wbit val 31
  | .challenge _ nonce => nonce.length == 32
  | .getMeasurements _ nonce => nonce.length == 32
  | .getReport nonce => nonce.length == 32
  | _ => true

/-- The frame that a frame row carries. -/
def Instr.rx? : Instr → Option Rx
  | .admitRequest r => some r
  | .admitReply r => some r
  | .nonfiniteNotice r => some r
  | .verdict r => some r
  | .layerCounts r => some r
  | .shardRatios r => some r
  | .skipNotice r => some r
  | .commit r => some r
  | .skip r => some r
  | .replay r => some r
  | .halt r => some r
  | .start r => some r
  | .decisionQuery r => some r
  | .hankSegment r => some r
  | .rescale r => some r
  | .scaleProposal r => some r
  | .scaleAgreed r => some r
  | .factorResult r => some r
  | .paramSegment r => some r
  | .paramEnd r => some r
  | .paramResend r => some r
  | .plyLeaf r => some r
  | .plyLeafQuery r => some r
  | .kvBlock r => some r
  | .hello r => some r
  | .linkCtrl r => some r
  | .notReady r => some r
  | _ => none

end Sys2Proof.WellFormed
end

