-- ==== Sys2Proof/Certificates/Slice0/Obligations.lean ====
section
/-! DEFINITION. The statements for the provers. A next state is written out as the state before with the parts that change, so each
statement is also the frame of its commands. -/

open Sys2Proof Sys2Proof.Machine

/-- With command c at the front of the queue, a step is exec of c on the state with the rest of the queue. -/
def Obligations.StepRunsFrontCommand : Prop :=
  ∀ (c : Instr) (rest : List Instr) (s : State), s.pending = c :: rest → step s = exec c { s with pending := rest }

/-- With no command waiting, no read waiting for a slot of a skein base and no attestation report being written, a step
advances the reference timer by one and the arithmetic-cycle count by the arithmetic clock in kHz; no granule stays
outstanding at a skein base; nothing else changes. That an empty queue ticks is the choice of log entry 4, and that a
granule stays outstanding until the next tick that of log entry 134. -/
def Obligations.EmptyQueueTicks : Prop :=
  ∀ s : State, s.pending = [] → s.skn.waiting = [] → s.sec.reporting = none →
    step s = .next { s with
      clk := { refTimer := s.clk.refTimer + 1, arithScaled := s.clk.arithScaled + s.trd.rootKhz / 4 }
      skn := { s.skn with stk := s.skn.stk.map fun x => { x with outstanding := 0 } } }

/-- From every state whose accumulator, spool, creel and skein memories are in canonical form, a step that answers a next
state leaves them in canonical form. -/
def Obligations.StepKeepsMemoriesCanonical : Prop :=
  ∀ s t : State, s.memWf → step s = .next t → t.memWf

/-- At reset the four memories list nothing and are in canonical form. -/
def Obligations.ResetMemoriesCanonical : Prop :=
  State.reset.memWf ∧ State.reset.acc = [] ∧ State.reset.spool = [] ∧ State.reset.creel = [] ∧ State.reset.skein = []

/-- Whatever command runs, the queue of waiting commands is the same in the next state. -/
def Obligations.ExecLeavesQueue : Prop :=
  ∀ (c : Instr) (s t : State), exec c s = .next t → t.pending = s.pending

/-- Every command with the form of its row answers a next state in every state; every other command stops with
commandMalformed. No command is refused. -/
def Obligations.WellFormedCommandsComplete : Prop :=
  ∀ (c : Instr) (s : State),
    (WellFormed.Instr.wf c = true → ∃ t, exec c s = .next t) ∧ (WellFormed.Instr.wf c = false → exec c s = .fault .commandMalformed)

/-- At reset: ports deaf, both queues DISABLED, the event ring disabled, loader EMPTY with no image, ladder T0 with n at 256
and the accumulator of the issue throttle at 0, host and management cap 2,600 W, droop reserve 8 per cent, root at 4.2 GHz,
tile status words IDLE and clear, no latched FIRST_INVALID record. -/
def Obligations.ResetState : Prop :=
  (∀ p : PortIx, (State.reset.port p).st = .deaf) ∧ (∀ q : QueueIx, (State.reset.queue q).st = .disabled) ∧
    State.reset.tel.ring.enable = false ∧ State.reset.warp.state = .empty ∧ State.reset.warp.image = none ∧
    State.reset.trd.ladder = .t0 ∧ State.reset.trd.issueN = 256 ∧ State.reset.trd.issueAcc = 0 ∧ State.reset.trd.hostCap = 2600 ∧
    State.reset.trd.mgmtCap = 2600 ∧ State.reset.trd.activeReserve = 80 ∧ State.reset.trd.rootKhz = 4200000 ∧
    (∀ a : AccRef, State.reset.tile a = AccTile.reset) ∧ (∀ c : CoreIx, (State.reset.core c.val).firstInvalid = none)

/-- Before READY each command that writes a BAR0 register outside the boot window writes nothing: HUB_BAR_ERRORS counts it
and event 0x5020 carries the offset. -/
def Obligations.RegisterWritesBeforeReady : Prop :=
  ∀ s : State, isReady s = false →
    (∀ (off : BitVec 28) v, inBootWindow off.toNat = false → exec (.registerWrite off v) s = .next (refuseWrite off.toNat s)) ∧
    (∀ (off : BitVec 28) n, inBootWindow off.toNat = false → exec (.badAccess true off n) s = .next (refuseWrite off.toNat s)) ∧
    (∀ r v, exec (.snap r v) s = .next (refuseWrite (snapOff r) s)) ∧
    (∀ b, exec (.load b) s = .next (refuseWrite 0x400 s)) ∧ (∀ b, exec (.unload b) s = .next (refuseWrite 0x400 s)) ∧
    (∀ a, exec (.accClear a) s = .next (refuseWrite (accStatusOff a) s)) ∧
    (∀ c v, exec (.windowPageWrite c v) s = .next (refuseWrite (coreBase c.val + 0x60) s)) ∧
    (∀ c w v, exec (.spoolWindowAccess c w (.write v)) s = .next (refuseWrite (coreBase c.val + 0x8000 + 4 * w.val) s)) ∧
    (∀ c, exec (.firstInvalidClear c) s = .next (refuseWrite (coreBase c.val + 0x10) s)) ∧
    (∀ v, exec (.nepTestRun v) s = .next (refuseWrite 0xA00 s)) ∧
    (∀ k v, exec (.clearWaitMax k v) s = .next (refuseWrite (sknBase k + 0x4) s)) ∧
    (∀ m, exec (.portDisable m) s = .next (refuseWrite 0x500004 s)) ∧
    (∀ p v, exec (.retrain p v) s = .next (refuseWrite (portBase p + 4) s)) ∧
    (∀ q v, exec (.doorbell q v) s = .next (refuseWrite (queueBase q + 0x18) s)) ∧
    (∀ q v, exec (.complHeadWrite q v) s = .next (refuseWrite (queueBase q + 0x20) s)) ∧
    (∀ q v, wbit v 31 = true → exec (.queueEnable q v) s = .next (refuseWrite (queueBase q) s)) ∧
    (∀ q v, wbit v 31 = false → exec (.queueDisable q v) s = .next (refuseWrite (queueBase q) s)) ∧
    (∀ v, exec (.eventRingEnable v) s = .next (refuseWrite 0x100010 s)) ∧
    (∀ v, exec (.eventHeadWrite v) s = .next (refuseWrite 0x100018 s)) ∧
    (∀ v, exec (.cardingStart v) s = .next (refuseWrite 0x300008 s)) ∧
    (∀ v, wbit v 27 = true → exec (.stateRequest .host v) s = .next (refuseWrite 0x200004 s)) ∧
    (∀ v, exec (.capWrite v) s = .next (refuseWrite 0x20000C s)) ∧
    (∀ v, wbit v 31 = true → exec (.reportRequest v) s = .next (refuseWrite 0x600008 s)) ∧
    (∀ off t, (refuseWrite off t).tel = (raise 0x5020 [off] (count 16 0x18 1 t)).tel ∧
      refuseWrite off t = { t with tel := (refuseWrite off t).tel })

/-- HUB_BOOT_SCRATCH is stored at any time; when READY, HUB_WARP_LENGTH, HUB_WARP_SRC_LO and HUB_WARP_SRC_HI store the value
written; nothing else changes. When READY, an access of a size other than four bytes, or at an offset that is not a multiple
of four, is counted in HUB_BAR_ERRORS: a write stores nothing and a read gives zeros. -/
def Obligations.RegisterAccessRows : Prop :=
  ∀ (off : BitVec 28) (n : Nat) (v : Word) (s : State),
    exec (.registerWrite 0xFC v) s = .next { s with hub := { s.hub with bootScratch := v } } ∧
    (isReady s = true →
      exec (.registerWrite 0x40C v) s = .next { s with warp := { s.warp with length := v } } ∧
      exec (.registerWrite 0x410 v) s = .next { s with warp := { s.warp with srcLo := v } } ∧
      exec (.registerWrite 0x414 v) s = .next { s with warp := { s.warp with srcHi := v } }) ∧
    (isReady s = true → n ≠ 4 ∨ off.toNat % 4 ≠ 0 →
      exec (.badAccess true off n) s = .next (count 16 0x18 1 s) ∧
      exec (.badAccess false off n) s =
        .next { (count 16 0x18 1 s) with out := { s.out with lastRead := some ⟨List.replicate n 0, false⟩ } } ∧
      count 16 0x18 1 s = { s with tel := (count 16 0x18 1 s).tel })

/-- When READY, a write of 1 to a SNAP register latches the registers of its block and changes nothing else. In every later
state that is READY and keeps the latched copies, the pair of WEFT_EVENTS_DROPPED reads as it was at the SNAP of WEFT_. -/
def Obligations.SnapLatches : Prop :=
  ∀ (v : Word) (s u : State), isReady s = true → wbit v 0 = true →
    (∀ r, exec (.snap r v) s = .next { s with hub := { s.hub with latched := (latch (snapRegs s r) s).hub.latched } }) ∧
    (isReady u = true → u.hub.latched = (latch (snapRegs s .weft) s).hub.latched →
      readReg u 0x10001C = w32 (ctrGet s.tel.ctrs 0x10001C).n ∧
      readReg u 0x100020 = w32 ((ctrGet s.tel.ctrs 0x10001C).n / 2 ^ 32 % 65536 + 2 ^ 31 * b2n (ctrGet s.tel.ctrs 0x10001C).sat))

/-- When READY: enabling a DISABLED queue with SIZE_LOG2 from 6 to 14 makes it ENABLED with that size and no error cause;
disabling a queue that is not DISABLED returns its pointers, its descriptors and its state to reset and keeps its size and
base registers; a COMPL_HEAD below SIZE releases the completion slots up to it, and where it releases any ends the wait
event 0x5025 marks; a TAIL below SIZE is stored, and one of SIZE or more puts the queue in ERROR with cause 1, raises event
0x5022 with queue, slot and cause and signals vector 3. Nothing else changes. The effect of a COMPL_HEAD of SIZE or more is
the choice of log entry 15 and is not stated. -/
def Obligations.QueueControlRows : Prop :=
  ∀ (q : QueueIx) (v : Word) (s : State), isReady s = true →
    (wbit v 31 = true → (s.queue q).st = .disabled → 6 ≤ wfield v 4 0 → wfield v 4 0 ≤ 14 →
      exec (.queueEnable q v) s =
        .next (s.onQueue q fun x => { x with enable := true, sizeLog2 := wfield v 4 0, cause := 0, st := .enabled })) ∧
    (wbit v 31 = false → (s.queue q).st ≠ .disabled →
      exec (.queueDisable q v) s =
        .next (s.onQueue q fun x =>
          { Queue.reset with sizeLog2 := x.sizeLog2, errorSeen := x.errorSeen, baseLo := x.baseLo, baseHi := x.baseHi,
                             complLo := x.complLo, complHi := x.complHi })) ∧
    ((s.queue q).st = .enabled → wfield v 15 0 < (s.queue q).size →
      exec (.complHeadWrite q v) s =
        .next (s.onQueue q fun x =>
          { x with released := x.released + (wfield v 15 0 + x.size - x.complHead) % x.size, complHead := wfield v 15 0,
                   blockedRaised := x.blockedRaised && wfield v 15 0 == x.complHead })) ∧
    ((s.queue q).st = .enabled → wfield v 15 0 < (s.queue q).size →
      exec (.doorbell q v) s = .next (s.onQueue q fun x => { x with tail := wfield v 15 0 })) ∧
    ((s.queue q).st = .enabled → (s.queue q).size ≤ wfield v 15 0 →
      exec (.doorbell q v) s =
        .next (signal 3 (raise 0x5022 [q.val, (s.queue q).head, 1]
          (s.onQueue q fun x => { x with st := .error, cause := 1, errorSeen := true }))))

/-- When READY: a write of WEFT_EVENT_CTRL with ENABLE and a SIZE_LOG2 from 6 to 16 enables the ring with that size and
EVENT_INT as written; without ENABLE it empties the ring; a HEAD below the size is stored. Nothing else changes. -/
def Obligations.EventRingRows : Prop :=
  ∀ (v : Word) (s : State), isReady s = true →
    (wbit v 31 = true → 6 ≤ wfield v 4 0 → wfield v 4 0 ≤ 16 →
      exec (.eventRingEnable v) s =
        .next (s.onTel fun t =>
          { t with ring := { t.ring with enable := true, evInt := wbit v 30, sizeLog2 := wfield v 4 0 } })) ∧
    (wbit v 31 = false → ∃ n,
      exec (.eventRingEnable v) s =
        .next (s.onTel fun t =>
          { t with ring := { t.ring with enable := false, evInt := wbit v 30, sizeLog2 := n, tail := 0, head := 0, written := 0 } })) ∧
    (wfield v 15 0 < s.tel.ring.size →
      exec (.eventHeadWrite v) s = .next (s.onTel fun t => { t with ring := { t.ring with head := wfield v 15 0 } }))

/-- A posted descriptor is copied in with its slot and PHASE, HEAD advances around the ring and one slot is consumed, while
a credit and prefetch room (4 descriptors of queue 0, 16 of queue 1) are left; otherwise the command changes nothing. A
descriptor read that is not answered puts the queue in ERROR with cause 2 after event 0x5023; a completion write that is not
completed puts it in ERROR with cause 3 after event 0x5024; a posted descriptor without credit for 100 ms raises event
0x5025 once. ERROR raises 0x5022 and signals vector 3. What a failed event-ring write does (event 0x5024 with queue number
2) is log entry 79. -/
def Obligations.DescriptorQueueRows : Prop :=
  ∀ (q : QueueIx) (ws : List Word) (s : State),
    (ws.length = 32 → (s.queue q).hasPosted = true → 0 < (s.queue q).credits →
      (s.queue q).fetched.length < (if q = 0 then 4 else 16) →
      exec (.descriptorConsume q ws) s =
        .next (s.onQueue q fun x =>
          { x with fetched := x.fetched ++ [⟨x.head, x.consumed / x.size % 2 == 0, ws⟩], head := (x.head + 1) % x.size,
                   consumed := x.consumed + 1 })) ∧
    (ws.length = 32 →
      ((s.queue q).hasPosted = false ∨ (s.queue q).credits = 0 ∨ (if q = 0 then 4 else 16) ≤ (s.queue q).fetched.length) →
      exec (.descriptorConsume q ws) s = .next s) ∧
    ((s.queue q).hasPosted = true →
      exec (.descriptorReadTimeout q) s = .next (queueError q 2 (raise 0x5023 [q.val, (s.queue q).head] s))) ∧
    ((s.queue q).st = .enabled →
      exec (.hostWriteTimeout (.completion q)) s = .next (queueError q 3 (raise 0x5024 [q.val, (s.queue q).head] s))) ∧
    (s.tel.ring.enable = true → exec (.hostWriteTimeout .eventRing) s = .next (raise 0x5024 [2, s.tel.ring.tail] s)) ∧
    ((s.queue q).hasPosted = true → (s.queue q).credits = 0 → (s.queue q).blockedRaised = false →
      exec (.completionBlocked q) s =
        .next (raise 0x5025 [q.val, (s.queue q).head] (s.onQueue q fun x => { x with blockedRaised := true }))) ∧
    ((s.queue q).blockedRaised = true → exec (.completionBlocked q) s = .next s) ∧
    (∀ n, queueError q n s =
      signal 3 (raise 0x5022 [q.val, (s.queue q).head, n] (s.onQueue q fun x => { x with st := .error, cause := n, errorSeen := true })))

/-- A link that loses synchronisation retrains without an attach reset: the attach state keeps everything but the retraining
mark, the retrain counter, event 0x4040 and vector 3. A retrain that has not completed within 100 ms raises event 0x4041 and
is then the host attach reset of a link that goes down: the link is down and no longer retraining. With the flyer running
and the ladder not in T4 the link comes up. A link not trained by 600 ms raises event 0x4043 once. -/
def Obligations.HostLinkRows : Prop :=
  ∀ (b : BitVec 64) (s : State),
    (s.hub.linkUp = true →
      exec .hostLinkRetrain s =
        .next (signal 3 (raise 0x4040 [] (count 16 0x1C 1 { s with hub := { s.hub with retraining := true } })))) ∧
    (s.hub.retraining = true → ∃ t, exec .hostLinkDown s = .next t ∧
      exec (.hostAttachReset .linkDown) (raise 0x4041 [] s) = .next t ∧ t.hub.linkUp = false ∧ t.hub.retraining = false) ∧
    (flyerRuns s = true → s.trd.ladder ≠ .t4 → ∃ t, exec (.hostLinkUp b) s = .next t ∧ t.hub.linkUp = true ∧
      t.hub.retraining = false ∧ t = { s with hub := t.hub, freeCtr := s.freeCtr + 1 }) ∧
    (flyerRuns s = true → s.hub.linkUp = false → s.mod.linkLateRaised = false →
      exec .hostLinkNotTrained s = .next (raise 0x4043 [] { s with mod := { s.mod with linkLateRaised := true } })) ∧
    (s.mod.linkLateRaised = true → exec .hostLinkNotTrained s = .next s)

/-- Every kind of host attach reset completes: the weft queues are at their reset values, so every queue is DISABLED and its
descriptors are gone; the event ring, the MSI-X table and HUB_BOOT_SCRATCH return to reset; everything outside the weft, the
telemetry, the host block, the loader and a START that is held for it (R66) stays as it was, the image included. With the
host link up a snoop of any address is answered as a miss and changes nothing else: the device holds no host memory. -/
def Obligations.HostAttachRows : Prop :=
  ∀ (k : AttachKind) (a : BitVec 64) (s : State),
    (∃ t, exec (.hostAttachReset k) s = .next t ∧
      t.weft = WeftBlk.reset ∧ t.tel.ring.enable = false ∧ t.tel.msix.table = List.replicate 16 0 ∧ t.hub.bootScratch = 0 ∧
      t = { s with weft := t.weft, tel := t.tel, hub := t.hub, warp := t.warp, job := { s.job with resumed := t.job.resumed } } ∧
        t.warp.image = s.warp.image) ∧
    (s.hub.linkUp = true →
      exec (.snoop a) s = .next { s with out := { s.out with snoopMisses := s.out.snoopMisses + 1 } })

/-- When READY: CLEAR of a tile whose core is open (no step running, core in service) clears bits 7 to 1 of its status word,
and does nothing where it is not open; a page up to 55 becomes the window page and a higher one only marks PAGE_REFUSED; a
cleared VALID drops the latched FIRST_INVALID record. Every other field, tile and core stays. -/
def Obligations.CoreRegisterRows : Prop :=
  ∀ s : State, isReady s = true →
    (∀ a : AccRef, windowOpen s a.core.val = true →
      exec (.accClear a) s = .next (s.onTile a fun t => { t with flags := TileFlags.clear })) ∧
    (∀ a : AccRef, windowOpen s a.core.val = false → exec (.accClear a) s = .next s) ∧
    (∀ (c : CoreIx) v, wfield v 7 0 ≤ 55 →
      exec (.windowPageWrite c v) s = .next (s.onCore c.val fun k => { k with page := wfield v 7 0 })) ∧
    (∀ (c : CoreIx) v, 55 < wfield v 7 0 →
      exec (.windowPageWrite c v) s = .next (s.onCore c.val fun k => { k with pageRefused := true })) ∧
    (∀ c : CoreIx, exec (.firstInvalidClear c) s = .next (s.onCore c.val fun k => { k with firstInvalid := none })) ∧
    (∀ (c : Nat) f, (s.onCore c f).core c = f (s.core c) ∧ (∀ d, d ≠ c → (s.onCore c f).core d = s.core d) ∧
      s.onCore c f = { s with cores := (s.onCore c f).cores }) ∧
    (∀ (a b : AccRef) f, (s.onTile a f).tile b = if b.core.val = a.core.val ∧ b.eng = a.eng ∧ b.tile = a.tile then f (s.tile a) else s.tile b)

/-- When READY and the core is open: a write through pages 0 to 47 stores the word in the spool of the core at page x 32,768
+ 4 x word, and through pages 48 to 55 in the accumulator tile the page names, marking SW_WRITTEN; every other byte stays. A
read returns the four bytes that stand there and changes nothing else; in page 47, which holds the descriptor queue, it
returns four bytes of a form the spec leaves open. While a step runs or the core is quarantined a write stores nothing and a
read gives zero, ACCESS_REFUSED is marked and event 0x1025 raised. -/
def Obligations.SpoolWindowRows : Prop :=
  ∀ (c : CoreIx) (w : Fin 8192) (s : State), isReady s = true → s.memWf →
    (windowOpen s c.val = true →
      (∀ v a, windowPlace c (s.core c.val).page w.val = .spool a → ∃ t, exec (.spoolWindowAccess c w (.write v)) s = .next t ∧
        t = { s with spool := t.spool } ∧ t.spool.readBytes a 4 = leBytes 4 v.toNat ∧
        ∀ x, x < a ∨ a + 4 ≤ x → t.spool.readByte x = s.spool.readByte x) ∧
      (∀ v r off, windowPlace c (s.core c.val).page w.val = .tile r off → ∃ t, exec (.spoolWindowAccess c w (.write v)) s = .next t ∧
        t = ({ s with acc := t.acc } : State).onTile r (fun x => { x with flags := { x.flags with swWritten := true } }) ∧
        t.acc.readBytes (accBase r + off) 4 = leBytes 4 v.toNat ∧
        ∀ x, x < accBase r + off ∨ accBase r + off + 4 ≤ x → t.acc.readByte x = s.acc.readByte x) ∧
      (∀ a, windowPlace c (s.core c.val).page w.val = .spool a → (s.core c.val).page ≠ 47 →
        exec (.spoolWindowAccess c w .read) s = .next (s.onOut fun o => { o with lastRead := some ⟨s.spool.readBytes a 4, false⟩ })) ∧
      ((s.core c.val).page = 47 → ∃ d : List Byte, d.length = 4 ∧
        exec (.spoolWindowAccess c w .read) s = .next (s.onOut fun o => { o with lastRead := some ⟨d, false⟩ })) ∧
      (∀ r off, windowPlace c (s.core c.val).page w.val = .tile r off →
        exec (.spoolWindowAccess c w .read) s =
          .next (s.onOut fun o => { o with lastRead := some ⟨s.acc.readBytes (accBase r + off) 4, false⟩ }))) ∧
    ((s.core c.val).page ≤ 47 →
      windowPlace c (s.core c.val).page w.val = .spool (c.val * 1572864 + (s.core c.val).page * 32768 + w.val * 4)) ∧
    (48 ≤ (s.core c.val).page → (s.core c.val).page ≤ 55 → ∃ r : AccRef, r.core = c ∧
      (s.core c.val).page = 48 + 4 * b2n r.eng + 2 * b2n r.tile + (s.core c.val).page % 2 ∧
      windowPlace c (s.core c.val).page w.val = .tile r ((s.core c.val).page % 2 * 32768 + w.val * 4)) ∧
    (windowOpen s c.val = false →
      (∀ v, exec (.spoolWindowAccess c w (.write v)) s =
        .next (raise 0x1025 [c.val] (s.onCore c.val fun k => { k with accessRefused := true }))) ∧
      exec (.spoolWindowAccess c w .read) s =
        .next ((raise 0x1025 [c.val] (s.onCore c.val fun k => { k with accessRefused := true })).onOut fun o =>
          { o with lastRead := some ⟨[0, 0, 0, 0], false⟩ }))

/-- Where the conditions of R180 hold (the device is LOADED with its distributed structure, in T0 with no emergency stop
begun) the first F issue completes: the batch runs and IN_STEP is set, the mode the last decision named is in force, the
phase timers start with F at cycle 0, the numeric state the last decision brought comes into force, every core has clear
step flags and keeps its tiles, and batch, execution number, descriptor, memories and every block not named stay; where a
skip notice of the execution is already held, its abandonment (R205) follows at once. Otherwise the command changes nothing.
That the carding of R387 goes first is part of the condition. -/
def Obligations.FirstFIssueRow : Prop :=
  ∀ s : State,
    (firstFReady s = true ↔
      s.warp.state = .loaded ∧ s.warp.dist = true ∧ s.nep.seed.isSome = true ∧ s.job.formed = true ∧ s.stp.desc.isSome = true ∧
        s.stp.running = false ∧
        s.reel.initialised = true ∧ (∀ l ∈ firstLayers s, paramsResident s l = true) ∧ s.ply.quarantineHalt = false ∧
        engineCarding s = false ∧ s.trd.ladder = .t0 ∧ s.trd.stopping = false) ∧
    (firstFReady s = false → exec .firstFIssue s = .next s) ∧
    (firstFReady s = true → s.stp.skipHeld = true → ∃ t, exec .firstFIssue s = .next t ∧ t.stp.running = true ∧ t.stp.skipHeld = true ∧
      t = { s with stp := t.stp, num := t.num, trd := t.trd, cores := t.cores, reel := t.reel, tel := t.tel, ply := t.ply, res := t.res }) ∧
    (firstFReady s = true → s.stp.skipHeld = false → ∃ t, exec .firstFIssue s = .next t ∧
      t.stp.running = true ∧ t.stp.inStep = true ∧ t.stp.settled = s.stp.nextSettled ∧ t.stp.settledReason = s.stp.nextReason ∧
      t.stp.phases = { Phases.none with f := ⟨some 0, none⟩ } ∧ t.stp.firstFTick = s.clk.refTimer ∧
      t.stp.firstFCycle = arithCycles s ∧ t.stp.batch = s.stp.batch ∧ t.stp.exec = s.stp.exec ∧ t.stp.desc = s.stp.desc ∧
      t.stp.stepIndex = s.stp.stepIndex ∧ t.num.next = none ∧
      (∀ n, s.num.next = some n → t.num.e = n.e ∧ t.num.clean = n.clean ∧ t.num.layers = n.modes) ∧
      (s.num.next = none → t.num.e = s.num.e ∧ t.num.clean = s.num.clean ∧ t.num.layers = s.num.layers) ∧
      (∀ c, (t.core c).stepFlags = TileFlags.clear ∧ (t.core c).e0t0 = (s.core c).e0t0 ∧ (t.core c).e0t1 = (s.core c).e0t1 ∧
        (t.core c).e1t0 = (s.core c).e1t0 ∧ (t.core c).e1t1 = (s.core c).e1t1 ∧ (t.core c).page = (s.core c).page ∧
        (t.core c).firstInvalid = (s.core c).firstInvalid) ∧
      t = { s with stp := t.stp, num := t.num, trd := t.trd, cores := t.cores, reel := t.reel, tel := t.tel, ply := t.ply })

/-- FRAME_RESERVE completes in every state. In T0 or T1 a frame of a micro-batch of the batch is reserved at the end of its
stage bobbin where the micro-batch has none and the reduced-form size of the frame fits, and nothing changes where it does
not fit. BOBBIN_POP completes in every state for every place in spool or creel. While a batch runs, with no protection error
and no granule of the bobbin unreadable, a pop takes the last pushed record out of its frame at once: where its header, with
the damage that protection let through, passes the check of R189, the content of the record stands at the destination; where
it fails, a fault is outstanding, event 0x1306 is raised and no content is used. A header with an odd number of ones fails
the check. Telemetry and step state change only by that event and fault. -/
def Obligations.BobbinRows : Prop :=
  ∀ (stage mb : Nat) (s : State),
    (∃ t, exec (.frameReserve stage mb) s = .next t) ∧
    (∀ (layer : Nat) (dst : Loc) (damage : List Word) (err : Option UnitError), damage.length = 4 → Loc.near dst = true →
      Loc.fits 0 dst = true → ∃ t, exec (.bobbinPop stage mb layer dst damage err) s = .next t) ∧
    (∀ b, s.bobbin stage = some b → unitsRun s = true →
      (mb < mbCount s → (∀ f ∈ b.frames, f.microBatch ≠ mb) → b.used + frameBytes s stage mb ≤ bobbinSize s stage →
        ∃ t, exec (.frameReserve stage mb) s = .next t ∧ t = { s with bob := t.bob } ∧
          t.bobbin stage = some (BobStage.noteUse { b with frames := b.frames ++ [⟨mb, frameBytes s stage mb, [], false⟩] })) ∧
      (bobbinSize s stage < b.used + frameBytes s stage mb → exec (.frameReserve stage mb) s = .next s) ∧
      (∀ (layer : Nat) (dst : Loc) (damage : List Word) (r : BobRecord), s.stp.running = true → damage.length = 4 →
        nextRecord s stage mb = some r → Loc.near dst = true → Loc.fits (256 * r.grains.length) dst = true → s.skn.bad = [] →
        (∀ f ∈ b.frames, ∀ x ∈ f.records, ∀ g ∈ x.grains, ∀ k, g.skein = some k →
          firstForbidden s 1 false (grainAddr s stage k) 256 = none) →
        ∃ bytes, (takeGrains stage r.grains s).2 = some bytes ∧
          (headerOk s stage mb layer r.grains.length (damaged (bytesWords 4 bytes) damage) = true →
            ∃ t : State, exec (.bobbinPop stage mb layer dst damage none) s = .next (t.storeAt dst (bytes.drop 16)) ∧
              t = { s with bob := t.bob, creel := t.creel, res := t.res, skn := t.skn }) ∧
          (headerOk s stage mb layer r.grains.length (damaged (bytesWords 4 bytes) damage) = false →
            ∃ t, exec (.bobbinPop stage mb layer dst damage none) s = .next t ∧
              t.stp = (faultNow s).stp ∧ t.tel = (raise 0x1306 [stage, layer, mb] s).tel ∧
              t = { s with bob := t.bob, creel := t.creel, res := t.res, skn := t.skn, stp := t.stp, tel := t.tel }))) ∧
    (∀ (c : CoreIx) off bs, Loc.fits bs.length (.spool c off) = true → quarantined s c.val = false →
      (s.storeAt (.spool c off) bs).spool = s.spool.writeBytes (spoolAddr c off) bs) ∧
    (∀ layer units (hdr : List Word), (hdr.map fun w => popcount 32 w.toNat).sum % 2 = 1 → headerOk s stage mb layer units hdr = false)

/-- While a batch runs an aged tile is noted, to go before the others, and nothing else changes. A cluster in which work
remains, none of it ready, none executing and none waiting for what roving brings, raises event 0x1305 after 20 ms and
leaves a fault outstanding, and its works are given up with what depends on them (log entry 138); without such work the time
limit does nothing. -/
def Obligations.SchedulerRows : Prop :=
  ∀ (cl : ClusterIx) (s : State),
    (s.stp.running = true → ∀ layer row col mb ph,
      exec (.agedTilePriority cl layer row col mb ph) s =
        .next { s with stp := { s.stp with aged := s.stp.aged ++ [⟨cl.val, layer, row, col, mb, ph⟩] } }) ∧
    (∀ works, works.all (Work.shaped cl) = true → schedulerWaits s cl works = true →
      exec (.schedulerWaitTimeout cl works) s =
        .next (noteEnds (loseCluster cl works (faultNow (raise 0x1305 [cl.val] s)))) ∧
      (faultNow (raise 0x1305 [cl.val] s)).stp.fault = true) ∧
    (∀ works, works.all (Work.shaped cl) = true → schedulerWaits s cl works = false →
      exec (.schedulerWaitTimeout cl works) s = .next s)

/-- In T0 with no emergency stop begun, in a cluster with a usable core: where the order of R184 picks a part that starts at
chunk 0 and takes no hand-over slot, and no error is found, the accumulator tile that takes it is accumulating with that
part (unless it is the first part of a gradient tile, which a non-finite sum drops, R205), its element (i, j) holds the
chunks of row i and column j added in ascending order from +0, and no byte outside that accumulator tile changes, nor any
byte of spools, creels and skein. Where it picks a drain or a whorl operation the command is that drain or operation. After
an issue the prefetchers of the cluster take what else is ready, which changes the descriptor queues of its cores and
nothing else. With no work ready nothing changes. -/
def Obligations.TileIssueRow : Prop :=
  ∀ (cl : ClusterIx) (ready : List Work) (s : State), s.trd.ladder = .t0 → s.trd.stopping = false → ready.all (Work.shaped cl) = true →
    s.memWf →
    ((clusterCores cl).filter (usable s)).isEmpty = false →
    (pickWork s cl ready = none → ∀ e, exec (.tileIssue cl ready e) s = .next s) ∧
    (∀ w a l, pickWork s cl ready = some (.tile w) → placeWork s cl w = some a → layerOf s w.layer = some l → w.start = .zero →
      w.park = none →
      ∃ t, exec (.tileIssue cl ready none) s = .next t ∧ (partGradient (fun _ => true) [w] = false → (t.tile a).st = .accumulating ∧
        (t.tile a).parts = [w]) ∧
        (∀ n, n < 16384 → (accWords t a).getD n 0 =
          (elemChunks l.ply (TileWork.hi w - TileWork.lo w) 0 (w.chunkHi - w.chunkLo) ((unpackSide s l true w).pos.getD (n / 128) [])
            ((unpackSide s l false w).pos.getD (n % 128) []) (ElemAcc.start 0)).bits) ∧
        (∀ x, x < accBase a ∨ accBase a + 65536 ≤ x → t.acc.readByte x = s.acc.readByte x) ∧
        t.spool = s.spool ∧ t.creel = s.creel ∧ t.skein = s.skein) ∧
    (∀ d, pickWork s cl ready = some (.drain d) → ∃ t, exec (.tileDrain d) s = .next t ∧
      exec (.tileIssue cl ready none) s = .next (prefetch cl ready (.drain d) t)) ∧
    (∀ w, pickWork s cl ready = some (.whorl w) → ∃ t, exec (.whorlOp w) s = .next t ∧
      exec (.tileIssue cl ready none) s = .next (prefetch cl ready (.whorl w) t)) ∧
    (∀ w t, prefetch cl ready w t = { t with cores := (prefetch cl ready w t).cores } ∧
      ∀ c, (prefetch cl ready w t).core c = { t.core c with queue := ((prefetch cl ready w t).core c).queue })

/-- In T0, for a tile that accumulates on a core in service, has all its chunks and whose operands are resident, with no
error found: after the pass its status is SLUB, its parts stay, its element (i, j) holds the slub terms of row i and column
j added to what it held, and no byte outside the tile changes, nor any byte of spools, creels and skein. -/
def Obligations.SlubPassRow : Prop :=
  ∀ (a : AccRef) (w : TileWork) (l : Layer) (s : State), s.trd.ladder = .t0 → s.memWf → (s.tile a).st = .accumulating →
    quarantined s a.core.val = false → (s.tile a).work = some w → layerOf s w.layer = some l → workComplete w = true →
      partsHere s l (s.tile a).parts = true →
    ∃ t, exec (.slubPass a none) s = .next t ∧ (t.tile a).st = .slub ∧ (t.tile a).parts = (s.tile a).parts ∧
      (∀ n, n < 16384 → (accWords t a).getD n 0 =
        (elemSlub w.kExtent ((wholeRows s l true (s.tile a).parts).getD (n / 128) []) ((wholeRows s l false (s.tile a).parts).getD (n % 128) [])
          (ElemAcc.start ((accWords s a).getD n 0))).bits) ∧
      (∀ x, x < accBase a ∨ accBase a + 65536 ≤ x → t.acc.readByte x = s.acc.readByte x) ∧ t.spool = s.spool ∧
      t.creel = s.creel ∧ t.skein = s.skein

/-- In T0, for a tile whose slub pass is done and a drain that is ready, with no error found and the checker agreeing: after
the drain the tile is IDLE without work, and no byte of accumulator storage has changed. A drain that is not ready (its
scale, its bias or the scale of its hank is missing) changes nothing. -/
def Obligations.TileDrainRow : Prop :=
  ∀ (d : DrainSpec) (s : State), s.trd.ladder = .t0 →
    (drainReady s d = false → exec (.tileDrain d) s = .next s) ∧
    (drainReady s d = true → (s.tile d.acc).st = .slub → d.err = none → d.reExec = none →
      ∃ t, exec (.tileDrain d) s = .next t ∧ (t.tile d.acc).st = .idle ∧ (t.tile d.acc).parts = [] ∧ t.acc = s.acc)

/-- In T0 with no emergency stop begun, for a whorl operation that is ready, with no error found, the skein it reads itself
readable, the checker agreeing, no copy through the twist unit, no record and no step of the ring: the results stand in the
spool of its core from its place on, no other byte of the spools changes, and no byte of accumulator storage and creels. The
skein changes only by a residual addition. -/
def Obligations.WhorlOpRow : Prop :=
  ∀ (w : WhorlWork) (l : Layer) (s : State), s.trd.ladder = .t0 → s.trd.stopping = false → s.memWf → layerOf s w.layer = some l →
    whorlReady s w = true →
    whorlShaped w = true → w.err = none → w.reExec = none → w.dests = [] → w.push = none → w.ring = none → w.ringMove = none →
    (whorlEval s l w).spool.length ≤ WhorlOp.size w.op →
    (∀ x v, w.op = .residualAdd x v → s.skn.bad = [] ∧ firstForbidden s 0 false x (4 * v.len) = none) →
    ∃ t, exec (.whorlOp w) s = .next t ∧
      t.spool.readWords (spoolAddr w.core w.dst) (whorlEval s l w).spool.length = (whorlEval s l w).spool ∧
      (∀ x, x < spoolAddr w.core w.dst ∨ spoolAddr w.core w.dst + 4 * (whorlEval s l w).spool.length ≤ x →
        t.spool.readByte x = s.spool.readByte x) ∧
      t.acc = s.acc ∧ t.creel = s.creel ∧ ((∀ a v, w.op ≠ .residualAdd a v) → t.skein = s.skein)

/-- In T0 or T1, for a gradient shard of this device whose reduced slice is complete and whose values can be read with no
protection error, while the batch runs in tile-by-tile mode, no skip notice is held and the shard is neither updated nor
abandoned: the skein takes the result of the update of the master copy in the place of the shadow copy and changes nowhere
else, the shadow leaf follows the new weights, the shard is SHADOW_READY, the other shards and the other memories stay.
While a skip notice is held nothing happens. -/
def Obligations.UpdateShardRow : Prop :=
  ∀ (tag : BitVec 20) (im : Image) (p : Hank) (x : Shard) (h : HankRt) (l : Layer) (s : State), s.warp.image = some im →
    findHank s tag.toNat = some p → s.shard tag.toNat = some x → s.hank tag.toNat = some h → layerOf s p.layer = some l →
    (s.stp.skipHeld = true → ∀ e, exec (.updateShard tag e) s = .next s) ∧
    (unitsRun s = true → (readShard p s).2 = true → p.owner = rankOf s → p.kind ≠ 2 → s.stp.running = true → s.stp.skipHeld = false →
      s.stp.settled = false → x.shadowReady = false →
      x.abandoned = false → sliceReady s p = true → ∃ t y, exec (.updateShard tag none) s = .next t ∧
        let r := (updateBuf (recipeOf s im.hanks p (masterBuf s p)) (masterBuf s p) ((shardGrads s im.hanks l p h).map (·.val.bits))).1
        t.skein = (putSide p (!shardSel s p.tag) r s).skein ∧ t.shard tag.toNat = some y ∧ y.shadowReady = true ∧
        y.shadowLeaf = leafOf tag.toNat r.w ∧ y.leaf = x.leaf ∧ (∀ g, g ≠ tag.toNat → t.shard g = s.shard g) ∧
        t = { s with skein := t.skein, reel := { s.reel with shards := t.reel.shards }, stp := t.stp, ply := t.ply, tel := t.tel,
                     bob := t.bob, skn := t.skn })

/-- In T0 or T1 the answer of the neighbour to a sampled segment (its own computation, or what an engine with a fault
returns in its place) is counted and no longer awaited. Where it agrees nothing else changes; where it differs, and no
placed core is out of service, the execution carries a failed ply check, PLY_LAST_MISMATCH ends in the two words that
differ, and both update engines are noted for carding after the decision; no other part of the state changes but telemetry. -/
def Obligations.SegmentCheckRow : Prop :=
  ∀ (tag : BitVec 20) (seg : Nat) (faulty : Option (List Word)) (w : SegWait) (s : State),
    unitsRun s = true → s.ply.segWaits.find? (fun x => x.tag == tag.toNat && x.segment == seg) = some w →
    (firstWord 0 w.expected (faulty.getD (segmentShadow s w)) = none →
      exec (.updateSegmentCheck tag seg faulty) s =
        .next (countEvt 0x30001C { s with ply := { s.ply with segWaits := s.ply.segWaits.filter fun x => x != w } })) ∧
    (∀ i a b, firstWord 0 w.expected (faulty.getD (segmentShadow s w)) = some (i, a, b) → structureLost s = false →
      ∃ t, exec (.updateSegmentCheck tag seg faulty) s = .next t ∧ t.stp = { s.stp with plyFail := true } ∧
        t.ply.segWaits = s.ply.segWaits.filter (fun x => x != w) ∧
        (∀ u, u = CardUnit.update (shardStack s w.tag) ∨ u = CardUnit.update (shardStack s w.tag + 1) → u ∈ t.ply.cardLater) ∧
        t.ply.lastMismatch[6]? = some a ∧ t.ply.lastMismatch[7]? = some b ∧ t = { s with stp := t.stp, ply := t.ply, tel := t.tel })

/-- When READY, START of PLY_CARDING_CTRL for a core, an update engine or a reel engine begins the test while no step and no
test runs, and is refused otherwise, with CTRL_REFUSED set. A test that reproduces nothing ends with RESULT 2 and event
0x2120 and changes nothing else; one that reproduces, or runs out of time, ends in lasting fault, for a core its quarantine.
A retry is no part of a test that the host started. -/
def Obligations.CardingRows : Prop :=
  ∀ s : State,
    (isReady s = true → ∀ v u, wbit v 31 = true → wbit v 30 = false → wfield v 17 16 ≠ 3 →
      cardTargetOf (wfield v 17 16) (wfield v 15 0) = some u →
      (s.stp.inStep = false → s.ply.carding = [] →
        exec (.cardingStart v) s = .next { s with ply := { s.ply with
          ctrlUnit := wfield v 17 16, ctrlTarget := wfield v 15 0, carding := [u], cardHost := some u, cardResult := 1,
          cardUnit := wfield v 17 16, cardPart := 0, cardTarget := wfield v 15 0 } }) ∧
      (s.stp.inStep = true ∨ s.ply.carding ≠ [] →
        exec (.cardingStart v) s = .next { s with ply := { s.ply with
          ctrlUnit := wfield v 17 16, ctrlTarget := wfield v 15 0, ctrlRefused := true } })) ∧
    (∀ u, s.ply.carding.contains u = true → ∃ t, exec (.cardingResult u .none) s = .next t ∧
      t.ply.carding = s.ply.carding.filter (fun x => x != u) ∧ t.ply.cardResult = 2 ∧ t.ply.cardPart = 0 ∧
      t = { s with ply := t.ply, tel := t.tel }) ∧
    (∀ u part, s.ply.carding.contains u = true → partRuns s u part = true → exec (.cardingResult u part) s = .next (cardingEnds u part s)) ∧
    (∀ u, s.ply.cardHost = some u → exec (.cardingResult u .retry) s = .next s) ∧
    (∀ u, s.ply.carding.contains u = true → exec (.cardingTimeout u) s = .next (cardingEnds u .limit s)) ∧
    (∀ c part, part ≠ .none → (cardingEnds (.core c) part s).flash.map.getLsbD c.val = true)

/-- A value outside 900 W to 2,600 W is refused with cause 2, a value below the floor of the loaded image with cause 1;
every other value becomes the host cap, or the management cap; the caps in force follow at the next control interval. A
refusal leaves the caps, marks CAP_REFUSED with its cause and raises event 0x3110 with value, writer and cause. The distaff
answers with the same cause. Below the minimum cap of the image the caps set are void for the deadline, with event 0x3120.
With the sensor-fault cap set a management command clears it. -/
def Obligations.CapRows : Prop :=
  ∀ s : State,
    (∀ n, (n < 900 ∨ 2600 < n → capRefusal n s = some 2) ∧
      (900 ≤ n → n ≤ 2600 → n * 8000 < floor8 s → capRefusal n s = some 1) ∧
      (900 ≤ n → n ≤ 2600 → floor8 s ≤ n * 8000 → capRefusal n s = none)) ∧
    (isReady s = true → ∀ v : Word,
      (capRefusal (wfield v 15 0) s = none →
        exec (.capWrite v) s = .next { s with trd := { s.trd with hostCap := wfield v 15 0 } }) ∧
      (∀ c, capRefusal (wfield v 15 0) s = some c →
        exec (.capWrite v) s = .next (raise 0x3110 [wfield v 15 0, 0,
          c] { s with trd := { s.trd with capRefused := true, refuseCause := c } }))) ∧
    (distaffRuns s = true → s.sec.attestReady = true →
      (∀ w : BitVec 16, capRefusal w.toNat s = none →
        exec (.managementCap w) s = .next (reply (.capResult 0) { s with trd := { s.trd with mgmtCap := w.toNat } })) ∧
      (∀ (w : BitVec 16) c, capRefusal w.toNat s = some c →
        exec (.managementCap w) s = .next (reply (.capResult c)
          (raise 0x3110 [w.toNat, 1, c] { s with trd := { s.trd with capRefused := true, refuseCause := c } }))) ∧
      (s.trd.sensorCap.isSome = true →
        exec .sensorFaultClear s = .next (applyCaps { s with trd := { s.trd with sensorCap := none } }))) ∧
    (s.trd.effective < minCap s → s.trd.deadlineVoid = false →
      applyCaps s = raise 0x3120 [s.trd.effective, minCap s] { s with trd := { s.trd with
        inForce := s.trd.effective, deadlineVoid := true, voidDuringStep := s.trd.voidDuringStep || s.stp.inStep } }) ∧
    (minCap s ≤ s.trd.effective → applyCaps s = { s with trd := { s.trd with inForce := s.trd.effective, deadlineVoid := false } }) ∧
    s.trd.effective ≤ s.trd.hostCap ∧ s.trd.effective ≤ s.trd.mgmtCap ∧ (∀ c, s.trd.sensorCap = some c → s.trd.effective ≤ c)

/-- Disagreement above 15 per cent for 1 ms (100 intervals) makes the measurement govern unless the sensor-fault cap is set,
counts, raises event 0x3101 and begins the recalibration; agreement at or below 5 per cent for 10 ms makes the estimate
govern again with event 0x3103; disagreement above 40 per cent for 100 ms puts the sensor-fault cap of nine tenths of the
lower 1 ms average, but not below the floor of the image, into force with event 0x3102, and the estimate governs; none of
the three acts before its time is over; n at 32 above the cap in force for 1 ms sets AT_FLOOR with event 0x3104. Once the
distaff runs, an evaluation writes a pending trim record of the next generation and a reserve between 3.0 and 8.0 per cent,
which with a shortfall is not lower than the reserve in force and without slack equal to it, and leaves the reserve in
force; a reserve that a monitor demands above the one in force is applied at once, at most 8.0 per cent. How far a lowering
goes is a free value. -/
def Obligations.PowerMarginRows : Prop :=
  ∀ s : State,
    (100 ≤ s.trd.over15 → s.trd.measGoverns = false → s.trd.sensorCap = none → exec .powerDisagreement s =
      .next (raise 0x3101 [(lastReading s).1, (lastReading s).2] (countErr 0x200048
        { s with trd := { s.trd with measGoverns := true, pairs := some [] } }))) ∧
    (s.trd.over15 < 100 → exec .powerDisagreement s = .next s) ∧
    (1000 ≤ s.trd.within5 → s.trd.measGoverns = true → exec .estimatorRecalibrated s =
      .next (raise 0x3103 [] { s with trd := { s.trd with measGoverns := false } })) ∧
    (s.trd.within5 < 1000 → exec .estimatorRecalibrated s = .next s) ∧
    (10000 ≤ s.trd.over40 → s.trd.sensorCap = none → ∀ e m, e = average (s.trd.readings.map (·.1)) → m = average (s.trd.readings.map (·.2)) →
      exec .powerSensorSuspect s =
        .next (applyCaps (raise 0x3102 [e, m, max (9 * min e m / 10) (floorWatts s)] (countErr 0x200048
          { s with trd := { s.trd with sensorCap := some (max (9 * min e m / 10) (floorWatts s)), measGoverns := false } })))) ∧
    (s.trd.over40 < 10000 → exec .powerSensorSuspect s = .next s) ∧
    (s.trd.ladder = .t0 → s.trd.issueN = 32 → s.trd.atFloor = false →
      s.trd.inForce < (if s.trd.measGoverns then (lastReading s).2 else (lastReading s).1) →
      exec .capNotHeld s = .next (raise 0x3104 [] { s with trd := { s.trd with atFloor := true } })) ∧
    (distaffRuns s = true →
      (∀ slack short, 30 ≤ s.trd.activeReserve → s.trd.activeReserve ≤ 80 → ∃ t, exec (.marginEvaluation slack short) s = .next t ∧
        30 ≤ t.flash.trimReserve ∧ t.flash.trimReserve ≤ 80 ∧ t.flash.trimGen = s.flash.trimGen + 1 ∧
        t.flash.trimRec = some (DevRec.make 2 (s.flash.trimGen + 1) (trimBody t.flash.trimReserve t.flash.trimCalib)) ∧
        (0 < short → s.trd.activeReserve ≤ t.flash.trimReserve) ∧
        (short = 0 → slack = false → t.flash.trimReserve = s.trd.activeReserve) ∧
        (short = 0 → slack = true → t.flash.trimReserve ≤ s.trd.activeReserve ∧ s.trd.activeReserve ≤ t.flash.trimReserve + 5) ∧
        t = { s with flash := { s.flash with trimReserve := t.flash.trimReserve, trimCalib := t.flash.trimCalib,
                                             trimGen := t.flash.trimGen, trimRec := t.flash.trimRec, rpCounter := t.flash.rpCounter,
                                             rpTag := t.flash.rpTag }, tel := t.tel, freeCtr := s.freeCtr + 2 }) ∧
      (∀ r, s.trd.activeReserve < r → exec (.marginRaised r) s =
        .next (raise 0x3202 [min 80 r] { s with trd := { s.trd with activeReserve := min 80 r } })) ∧
      (∀ r, r ≤ s.trd.activeReserve → exec (.marginRaised r) s = .next s))

/-- While rails are up a control interval completes and changes the treadle, the free-value counter and telemetry only: the
caps set come into force; from a root at or above 4.2 GHz it leaves the root there, n ends at 32 under the emergency cap,
else at most 256, and lower than before, down to 32, where the governing reading is above the effective cap; the pair of
readings is kept, the estimate by the coefficients of the last recalibration; the ladder and the caps stay. The accumulator
over k cycles is the accumulator of R414 stepped k times, and over 256 cycles it allows exactly n. -/
def Obligations.ControlIntervalRow : Prop :=
  (∀ (e m tgt hq : Nat) (hot : Sensor) (s : State), s.mod.bring ≠ .off → s.mod.bring ≠ .held → 32 ≤ s.trd.issueN → s.trd.issueN ≤ 256 →
    4200000 ≤ s.trd.rootKhz → ∃ t, exec (.controlInterval e m tgt hot hq) s = .next t ∧
      t = { s with trd := t.trd, tel := t.tel, freeCtr := s.freeCtr + 1 } ∧ t.trd.inForce = s.trd.effective ∧
      32 ≤ t.trd.issueN ∧ t.trd.issueN ≤ 256 ∧ (s.trd.em.any = true → t.trd.issueN = 32) ∧ 4200000 ≤ t.trd.rootKhz ∧
      t.trd.ladder = s.trd.ladder ∧ t.trd.hostCap = s.trd.hostCap ∧ t.trd.mgmtCap = s.trd.mgmtCap ∧ t.trd.sensorCap = s.trd.sensorCap ∧
      t.trd.hotQuarter = hq ∧ t.trd.readings.head? = some (s.trd.estimate e, m) ∧
      (s.trd.em.any = false → s.trd.ramp = false → s.trd.effective < (if s.trd.measGoverns then m else s.trd.estimate e) →
        t.trd.issueN ≤ max 32 (s.trd.issueN - 1))) ∧
  (∀ acc n k : Nat, acc < 256 → n ≤ 256 →
    issueCycles acc n 0 = (acc, 0) ∧
    issueCycles acc n (k + 1) =
      (let p := issueCycles acc n k
       if 256 ≤ p.1 + n then (p.1 + n - 256, p.2 + 1) else (p.1 + n, p.2)) ∧
    issueCycles acc n 256 = (acc, n))

/-- An assertion by a source that does not assert yet sets it, drops n to 32 and makes a device in T0 stop its units; a
source that asserts already changes nothing. The input-low rows are the source INPUT_LOW and the management command, once
commands are taken, the source COMMAND. The last unit stopped enters T1. A release while another source still asserts only
clears its own mark; the last one takes a device in T1 back to T0 with n at 32 and the ramp running. -/
def Obligations.EmergencyRows : Prop :=
  ∀ (src : EmSource) (s : State),
    (s.trd.em.get src = true → exec (.emergencyAsserted src) s = .next s) ∧
    (s.trd.em.get src = false → ∃ t, exec (.emergencyAsserted src) s = .next t ∧ t.trd.em.get src = true ∧ t.trd.em.any = true ∧
      t.trd.issueN = 32 ∧ t.trd.stopping = (s.trd.ladder == .t0) ∧ (distaffRuns s = true → t = { s with trd := t.trd, tel := t.tel }) ∧
      (distaffRuns s = false → t = { s with trd := t.trd, mod := { s.mod with emEarly := s.mod.emEarly ++ [src] } })) ∧
    exec .inputLow s = exec (.emergencyAsserted .inputLow) s ∧ exec .inputRecovered s = exec (.emergencyReleased .inputLow) s ∧
    (distaffRuns s = true → s.sec.attestReady = true →
      exec (.emergencyCommand true) s = exec (.emergencyAsserted .command) s ∧
      exec (.emergencyCommand false) s = exec (.emergencyReleased .command) s) ∧
    (s.trd.stopping = true → s.trd.em.any = true → s.trd.ladder = .t0 → ∃ t, exec .lastUnitStopped s = .next t ∧ t.trd.ladder = .t1 ∧
      t.trd.stopping = false ∧ t = { s with trd := t.trd, tel := t.tel }) ∧
    (s.trd.em.get src = true → (s.trd.em.put src false).any = true →
      exec (.emergencyReleased src) s = .next { s with trd := { s.trd with em := s.trd.em.put src false } }) ∧
    (s.trd.em.get src = true → (s.trd.em.put src false).any = false → s.trd.ladder = .t1 →
      ∃ t, exec (.emergencyReleased src) s = .next t ∧ t.trd.ladder = .t0 ∧ t.trd.issueN = 32 ∧ t.trd.ramp = true ∧ t.trd.em.any = false ∧
        t = { s with trd := t.trd, tel := t.tel })

/-- A sensor above its assertion figure, once the distaff runs, reports event 0x3301 and asserts the emergency cap; the
release clears the trip and releases that source. A sensor above its trip figure while rails are up forces T3 with event
0x3302, keeps the trip noted, takes every roving port out of JOINED and UP and switches off the SRAM, unless the device is
in T4 already; module flash stays. The figures are 100 and 110 degrees for the spindle and flyer dies, 90 and 100 for the
skein stacks, in quarter degrees. A reference that fails while rails are up puts the device in holdover with event 0x3401;
within 1 ms it relocks; otherwise FAULT_N and, above T3, the hardware trip to T3; once it is good again T3 may be left. -/
def Obligations.ThermalRows : Prop :=
  ∀ (x : Sensor) (q : Nat) (s : State),
    (∀ d i, thermalAssert (.spindle d i) = 400 ∧ thermalTripAt (.spindle d i) = 440) ∧
    (∀ i, thermalAssert (.flyer i) = 400 ∧ thermalTripAt (.flyer i) = 440) ∧
    (∀ k i, thermalAssert (.skein k i) = 360 ∧ thermalTripAt (.skein k i) = 400) ∧
    (thermalAssert x < q → distaffRuns s = true → s.trd.em.thermal = false → ∃ t, exec (.thermalLimit x q) s = .next t ∧
      t.trd.em.thermal = true ∧ t.trd.issueN = 32 ∧ t.trd.hotQuarter = max s.trd.hotQuarter q ∧
      (s.trd.hotQuarter < q → t.trd.hotSensor = x) ∧ t = { s with trd := t.trd, tel := t.tel }) ∧
    (q ≤ thermalAssert x → exec (.thermalLimit x q) s = .next s) ∧
    exec .thermalRelease s = exec (.emergencyReleased .thermal) { s with trd := { s.trd with tripped := false } } ∧
    (thermalTripAt x < q → s.mod.bring ≠ .off → s.mod.bring ≠ .held → s.trd.ladder ≠ .t3 → s.trd.ladder ≠ .t4 →
      ∃ t, exec (.thermalTrip x q) s = .next t ∧ t.trd.ladder = .t3 ∧ t.trd.tripped = true ∧ (∀ p, (t.port p).st ≠ .joined ∧
        (t.port p).st ≠ .up) ∧
        t.acc = [] ∧ t.spool = [] ∧ t.creel = [] ∧ t.flash = s.flash) ∧
    (q ≤ thermalTripAt x → exec (.thermalTrip x q) s = .next s) ∧
    (s.mod.refclk = .good → s.mod.bring ≠ .off →
      exec .refclkHoldover s = .next (raise 0x3401 [] { s with mod := { s.mod with refclk := .holdover } })) ∧
    (s.mod.refclk = .holdover → exec .refclkRelock s = .next { s with mod := { s.mod with refclk := .good } }) ∧
    (s.mod.refclk = .holdover → s.trd.ladder ≠ .t3 → s.trd.ladder ≠ .t4 → ∃ t, exec .refclkLost s = .next t ∧ t.mod.refclk = .lost ∧
      t.mod.refFault = true ∧ t.trd.ladder = .t3 ∧ t.flash = s.flash) ∧
    (s.mod.refclk = .lost → exec .refclkRestored s = .next { s with mod := { s.mod with refclk := .good, refFault := false } })

/-- STATE_REQUEST, a request with REQUEST set, completes in every state, for every requester and TARGET. A request of the
host (READY) or of the distaff (through the management interface, from ATTEST_READY) for a state whose conditions hold
enters that state; for a state whose conditions do not hold, and for a TARGET that the requester may not name, it changes no
state, marks CAP_REFUSED with cause 3 and raises event 0x3110 with the requester as the writer. T0 is not accepted while an
emergency cap is asserted, T1 from the host only without a step, T2 and T3 only without a step and a load, T4 only from the
distaff under the same conditions. -/
def Obligations.StateRequestRow : Prop :=
  ∀ (v : Word) (s : State), wbit v 27 = true →
    (∀ who, ∃ t, exec (.stateRequest who v) s = .next t) ∧
    (isReady s = true → wfield v 30 28 ≤ 3 → s.trd.ladder ≠ ladderOf (wfield v 30 28) →
      stateAccepted .host (ladderOf (wfield v 30 28)) s = true →
      ∃ t, exec (.stateRequest .host v) s = .next t ∧ t.trd.ladder = ladderOf (wfield v 30 28) ∧ t.trd.target = wfield v 30 28 ∧
        t.trd.freeDraftEn = wbit v 31 ∧ t.flash = s.flash) ∧
    (isReady s = true → wfield v 30 28 ≤ 3 → stateAccepted .host (ladderOf (wfield v 30 28)) s = false →
      exec (.stateRequest .host v) s = .next (raise 0x3110 [wfield v 30 28, 0, 3] { s with trd := { s.trd with
        freeDraftEn := wbit v 31, target := wfield v 30 28, capRefused := true, refuseCause := 3 } })) ∧
    (isReady s = true → 4 ≤ wfield v 30 28 →
      exec (.stateRequest .host v) s = .next (raise 0x3110 [wfield v 30 28, 0, 3] { s with trd := { s.trd with
        freeDraftEn := wbit v 31, capRefused := true, refuseCause := 3 } })) ∧
    (distaffRuns s = true → s.sec.attestReady = true → wfield v 30 28 ≤ 4 → s.trd.ladder ≠ ladderOf (wfield v 30 28) →
      stateAccepted .distaff (ladderOf (wfield v 30 28)) s = true →
      ∃ t, exec (.stateRequest .distaff v) s = .next t ∧ t.trd.ladder = ladderOf (wfield v 30 28) ∧ t.flash = s.flash) ∧
    (distaffRuns s = true → s.sec.attestReady = true → (5 ≤ wfield v 30 28 ∨ stateAccepted .distaff (ladderOf (wfield v 30 28)) s = false) →
      exec (.stateRequest .distaff v) s = .next (raise 0x3110 [wfield v 30 28, 1, 3] { s with trd := { s.trd with
        capRefused := true, refuseCause := 3 } })) ∧
    (∀ who, s.trd.em.any = true → stateAccepted who .t0 s = false) ∧
    (s.stp.inStep = true → stateAccepted .host .t1 s = false) ∧
    (∀ who n, s.stp.inStep = true ∨ loadRunning s = true → n = .t2 ∨ n = .t3 ∨ n = .t4 → stateAccepted who n s = false) ∧
    stateAccepted .host .t4 s = false

/-- ADMIT_REQUEST: the answer is 2 for a logical hash that is not the manager's, 3 for a rank known under another module
serial, else 1, and only then is the rank admitted with its serial. ADMIT_REPLY: a worker is admitted by code 1 alone, and
every other code raises event 0x5010. With no reply a worker that is LOADED or HALTED and not admitted sends the request
again. A frame sent changes the ports and the telemetry only. What the admission of the last rank starts is the operation
formJob, which changes nothing while a rank lacks. -/
def Obligations.AdmissionRows : Prop :=
  ∀ (rx : Rx) (s : State),
    (Arrives rx s → frameOf 0x20 rx = true → ∃ a, exec (.admitRequest rx) s =
        .next (formJob (sendUnicast (mkFrame 0x21 0 0 0 rx.frame.src.toNat (rankOf s) 0 0 [w32 (a * 2 ^ 28)])
          (if a = 1 then admitRank rx.frame.src.toNat (leNat (slice (wordsBytes rx.frame.payload) 64 8)) (arrived rx s) else arrived rx s))) ∧
      ((wordsBytes rx.frame.payload).take 64 ≠ s.warp.logicalHash → a = 2) ∧
      (∀ k, (wordsBytes rx.frame.payload).take 64 = s.warp.logicalHash →
        s.job.knownSerials.find? (fun x => x.1 == rx.frame.src.toNat) = some (rx.frame.src.toNat, k) →
        a = if k = leNat (slice (wordsBytes rx.frame.payload) 64 8) then 1 else 3) ∧
      ((wordsBytes rx.frame.payload).take 64 = s.warp.logicalHash →
        s.job.knownSerials.find? (fun x => x.1 == rx.frame.src.toNat) = none → a = 1)) ∧
    (∀ r n (u : State), ((admitRank r n u).job.admittedRanks.find? (fun x => x.1 == r)).isSome = true ∧
      ((admitRank r n u).job.knownSerials.find? (fun x => x.1 == r)) = some (r, n) ∧
        admitRank r n u = { u with job := (admitRank r n u).job }) ∧
    (∀ u : State, u.job.admittedRanks.length ≠ deviceCount u → formJob u = u) ∧
    (∀ f (u : State), sendUnicast f u = { u with rov := (sendUnicast f u).rov, tel := (sendUnicast f u).tel }) ∧
    (Arrives rx s → frameOf 0x21 rx = true →
      (wfield (wordAt rx.frame.payload 0) 31 28 = 1 → exec (.admitReply rx) s =
        .next ((arrived rx s).onJob fun j => { j with admitted := true, answered := true })) ∧
      (wfield (wordAt rx.frame.payload 0) 31 28 ≠ 1 → exec (.admitReply rx) s =
        .next (raise 0x5010 [rankOf s, wfield (wordAt rx.frame.payload 0) 31 28]
          ((arrived rx s).onJob fun j => { j with admitted := false, answered := true })))) ∧
    ((standing s = .loaded ∨ standing s = .halted) → s.job.admitted = false → s.job.answered = false → isManager s = false →
      exec .admitRetry s = .next (sendUnicast (mkFrame 0x20 0 0 0 (managerRank s) (rankOf s) 0 0
        (bytesWords 16 s.warp.logicalHash ++ words64 moduleSerial)) s)) ∧
    (s.job.answered = true ∨ s.job.admitted = true → exec .admitRetry s = .next s)

/-- NONFINITE_NOTICE of the present execution: the manager answers by managerNotice, which holds and sends the skip notice
once. SKIP_NOTICE of the present execution: the device holds it; every hank not delivered is abandoned and every shard has
lost its shadow copy. VERDICT, LAYER_COUNTS and SHARD_RATIOS of the present execution: the set of the rank is opened, or
gains the records and one frame; while a rank has no complete set nothing else changes. A worker without a decision for 4 s
raises event 0x4031 once. -/
def Obligations.VerdictGatheringRows : Prop :=
  ∀ (rx : Rx) (s : State),
    (Arrives rx s → presentExec s rx.frame = true →
      (frameOf 0x22 rx = true → exec (.nonfiniteNotice rx) s = .next (noteEnds (managerNotice (arrived rx s)))) ∧
      (frameOf 0x26 rx = true → exec (.skipNotice rx) s = .next (noteEnds (holdSkip (arrived rx s)))) ∧
      (verdictFrame rx = true → s.job.sets.any (fun v => v.rank == rx.frame.src.toNat) = false →
        exec (.verdict rx) s = .next (tryDecide ((arrived rx s).onJob fun j =>
          { j with sets := j.sets ++ [readVerdict rx.frame.src.toNat rx.frame.payload] }))) ∧
      (verdictFrame rx = true → s.job.sets.any (fun v => v.rank == rx.frame.src.toNat) = true →
        exec (.verdict rx) s = .next (arrived rx s)) ∧
      (frameOf 0x24 rx = true → exec (.layerCounts rx) s = .next (tryDecide ((arrived rx s).onJob fun j =>
        { j with sets := updWhere (fun v => v.rank == rx.frame.src.toNat)
                   (fun v => { v with gotCounts := v.gotCounts + 1, counts := v.counts ++ readCounts rx.frame.payload }) j.sets }))) ∧
      (frameOf 0x25 rx = true → exec (.shardRatios rx) s = .next (tryDecide ((arrived rx s).onJob fun j =>
        { j with sets := updWhere (fun v => v.rank == rx.frame.src.toNat)
                   (fun v => { v with gotRatios := v.gotRatios + 1, ratios := v.ratios ++ readRatios rx.frame.payload }) j.sets })))) ∧
    (s.job.skipNoticeSent = true → managerNotice s = s) ∧
    (s.job.skipNoticeSent = false → (managerNotice s).job = { s.job with skipNoticeSent := true } ∧ (managerNotice s).stp.skipHeld = true ∧
      (managerNotice s).reel = s.reel.abandon) ∧
    (holdSkip s).stp = { s.stp with skipHeld := true } ∧ (holdSkip s).reel = s.reel.abandon ∧
    (∀ (h : HankRt), h ∈ s.reel.abandon.hanks → h.st = .delivered ∨ h.st = .nonfinite ∨ h.st = .abandoned) ∧
    (∀ x ∈ s.reel.abandon.shards, x.abandoned = true ∧ x.shadowReady = false ∧ x.shadowLeaf = []) ∧
    (∀ (u : State) r, r ∈ silentRanks u → tryDecide u = u) ∧
    (s.stp.verdictSent = true → isManager s = false → jobLoaded s = true →
      (s.job.timeoutRaised = false → exec .decisionTimeout s =
        .next (raise 0x4031 [managerRank s] { s with job := { s.job with timeoutRaised := true } })) ∧
      (s.job.timeoutRaised = true → exec .decisionTimeout s = .next s))

/-- When C may begin on a worker in T0 or T1 its set goes to the manager: C starts, and only ports, telemetry and the step
block change. On the manager, while another rank lacks a complete set, its own set joins the gathered ones. Before that the
command changes nothing. A worker that waits for its decision asks the manager with its batch and execution; the manager
answers from the decisions it keeps and ignores any other query. When a rank is silent past the limit, the manager enters
HALTED with the job halted for reason 3, unless its committed state is lost. -/
def Obligations.VerdictSendingRows : Prop :=
  ∀ (rx : Rx) (s : State),
    (cReady s = false → exec .sendVerdictSet s = .next s) ∧
    (unitsRun s = true → cReady s = true → isManager s = false → ∃ t, exec .sendVerdictSet s = .next t ∧ t.stp.verdictSent = true ∧
      t.stp.phases.c.start = some (sinceFirstF s) ∧ t.stp.batch = s.stp.batch ∧ t.stp.exec = s.stp.exec ∧
      t = { s with rov := t.rov, tel := t.tel, stp := t.stp }) ∧
    (∀ r, unitsRun s = true → cReady s = true → isManager s = true → r < deviceCount s → r ≠ rankOf s →
      (∀ v ∈ s.job.sets, v.rank = r → v.complete = false) → ∃ t v, exec .sendVerdictSet s = .next t ∧ t.stp.verdictSent = true ∧
        v.rank = rankOf s ∧ v.complete = true ∧ t.job.sets = s.job.sets.filter (fun x => x.rank != rankOf s) ++ [v] ∧
        t.job.gathering = true ∧ t = { s with tel := t.tel, stp := t.stp, job := t.job }) ∧
    (s.stp.verdictSent = true → isManager s = false → jobLoaded s = true →
      exec .decisionQueryTimer s =
        .next (sendUnicast (mkFrame 0x28 0 0 0 (managerRank s) (rankOf s) s.stp.exec s.stp.batch []) s)) ∧
    (s.stp.verdictSent = false → exec .decisionQueryTimer s = .next s) ∧
    (Arrives rx s → frameOf 0x28 rx = true →
      (∀ d, s.job.kept.find? (fun y => y.batch == rx.frame.batch.toNat && y.exec == rx.frame.exec.toNat) = some d →
        exec (.decisionQuery rx) s = .next (sendUnicast (decFrame s (readDec d.payload).kind rx.frame.src.toNat d.exec d.batch d.payload)
          (arrived rx s))) ∧
      (s.job.kept.find? (fun y => y.batch == rx.frame.batch.toNat && y.exec == rx.frame.exec.toNat) = none →
        exec (.decisionQuery rx) s = .next (arrived rx s))) ∧
    (isManager s = true → s.job.gathering = true → s.warp.state = .loaded → (∃ r, r ∈ silentRanks s) → s.stp.exec < 4 →
      s.skn.stk.any (·.stateLost) = false → ∃ t, exec .verdictTimeout s = .next t ∧ t.warp.state = .halted ∧
        t.job.haltedJob = true ∧ t.job.lastKind = 4 ∧ t.job.lastHalt = 3 ∧ t.job.lastBatch = s.stp.batch ∧
        t.job.admittedRanks = s.job.admittedRanks.filter (fun r => !(withdrawn s 3).contains r.1) ∧ t.stp.running = false ∧
        t.stp.batch = s.stp.batch ∧ t.stp.exec = 0) ∧
    (isManager s = true → silentRanks s = [] → exec .verdictTimeout s = .next s)

/-- The first decision a worker receives for its present execution. COMMIT: the batch index goes up by one, the step index
is the one the decision names, and of every shard with a shadow copy the shadow leaf becomes the committed one. SKIP: the
batch index goes up by one and every shard keeps its leaf and loses its shadow copy. Both bring E and the clean-step count
of the decision for the next batch. REPLAY: the batch stays, the execution is the one ordered, on the cores of the mask, and
every shard keeps its leaf. In each case nothing runs any more, the mode for the next execution is the one named, and
accumulator storage, spools and module flash stay; then the frames held for the new batch or execution are released. -/
def Obligations.DecisionRows : Prop :=
  ∀ (rx : Rx) (s : State), Arrives rx s → presentExec s rx.frame = true →
    s.job.acted.find? (fun y => y.batch == rx.frame.batch.toNat && y.exec == rx.frame.exec.toNat) = none → (s.reel.shards.map (·.tag)).Nodup →
    (decisionOf 1 rx = true → ∃ u n, exec (.commit rx) s = .next (quarantineAgain (releaseHeld u)) ∧
      u.stp.batch = (s.stp.batch + 1) % 2 ^ 48 ∧ u.stp.stepIndex = readStep rx.frame.payload 1 ∧ u.stp.exec = 0 ∧ u.stp.running = false ∧
      u.stp.desc = none ∧ u.stp.nextSettled = wbit (wordAt rx.frame.payload 0) 25 ∧ u.num.next = some n ∧
      n.e = signed 8 (wfield (wordAt rx.frame.payload 3) 7 0) ∧ n.clean = wfield (wordAt rx.frame.payload 3) 28 8 ∧
      u.reel.shards.map (fun x => (x.tag, x.leaf)) = s.reel.shards.map (fun x => (x.tag, if x.shadowReady then x.shadowLeaf else x.leaf)) ∧
      u.acc = s.acc ∧ u.spool = s.spool ∧ u.flash = s.flash) ∧
    (decisionOf 2 rx = true → ∃ u n, exec (.skip rx) s = .next (quarantineAgain (releaseHeld u)) ∧
      u.stp.batch = (s.stp.batch + 1) % 2 ^ 48 ∧ u.stp.stepIndex = readStep rx.frame.payload 1 ∧ u.stp.exec = 0 ∧ u.stp.running = false ∧
      u.stp.desc = none ∧ u.stp.nextSettled = wbit (wordAt rx.frame.payload 0) 25 ∧ u.num.next = some n ∧
      n.e = signed 8 (wfield (wordAt rx.frame.payload 3) 7 0) ∧ n.clean = wfield (wordAt rx.frame.payload 3) 28 8 ∧
      u.reel.shards.map (fun x => (x.tag, x.leaf)) = s.reel.shards.map (fun x => (x.tag, x.leaf)) ∧
      (∀ x ∈ u.reel.shards, x.shadowReady = false) ∧ u.acc = s.acc ∧ u.spool = s.spool ∧ u.flash = s.flash) ∧
    (decisionOf 3 rx = true → ∃ u, exec (.replay rx) s = .next (quarantineAgain (releaseHeld u)) ∧ u.stp.batch = s.stp.batch ∧
      u.stp.exec = wfield (wordAt rx.frame.payload 0) 27 26 ∧ u.stp.stepIndex = s.stp.stepIndex ∧ u.stp.running = false ∧
      u.stp.desc = s.stp.desc ∧ u.stp.nextSettled = wbit (wordAt rx.frame.payload 0) 25 ∧
      u.ply.mask = BitVec.ofNat 576 (leNat (wordsBytes ((rx.frame.payload.drop 8).take 18))) ∧
      u.reel.shards.map (fun x => (x.tag, x.leaf)) = s.reel.shards.map (fun x => (x.tag, x.leaf)) ∧
      (∀ x ∈ u.reel.shards, x.shadowReady = false) ∧ u.acc = s.acc ∧ u.spool = s.spool ∧ u.skein = s.skein ∧ u.flash = s.flash ∧
      u.trd = s.trd)

/-- HALT, as the first decision of the present execution of a LOADED worker whose skein has lost no committed state: the
device is HALTED at its batch with nothing running and no descriptor, the leaves of the shards and the skein stay, and the
halt reason is noted. START, with the job not formed or the device HALTED, a running load set aside: the job is formed, the
device is LOADED (from HALTED at once where no load runs and it holds a distributed structure, else the START is kept for
that), and batch and step index are those the frame carries; then held frames are released, and a quarantined placed core
stops the job; with the job formed and the device LOADED it changes nothing else. A second decision for the same execution
is ignored, and raises event 0x4021 where it differs. -/
def Obligations.HaltAndStartRows : Prop :=
  ∀ (rx : Rx) (s : State), Arrives rx s →
    (decisionOf 4 rx = true → presentExec s rx.frame = true → s.warp.state = .loaded → s.skn.stk.any (·.stateLost) = false →
      s.job.acted.find? (fun y => y.batch == rx.frame.batch.toNat && y.exec == rx.frame.exec.toNat) = none →
      ∃ t, exec (.halt rx) s = .next t ∧ t.warp.state = .halted ∧ t.stp.batch = s.stp.batch ∧ t.stp.stepIndex = s.stp.stepIndex ∧
        t.stp.exec = 0 ∧ t.stp.running = false ∧ t.stp.desc = none ∧ t.stp.outcome = 5 ∧
        t.job.lastHalt = wfield (wordAt rx.frame.payload 0) 21 18 ∧ t.num.e = s.num.e ∧ t.warp.image = s.warp.image ∧
        t.reel.shards.map (fun x => (x.tag, x.leaf)) = s.reel.shards.map (fun x => (x.tag, x.leaf)) ∧
        (∀ x ∈ t.reel.shards, x.shadowReady = false) ∧
        t.acc = s.acc ∧ t.spool = s.spool ∧ t.skein = s.skein ∧ t.flash = s.flash ∧ t.trd = s.trd) ∧
    (decisionOf 5 rx = true → standing s = .halted ∨ standing s = .loaded ∧ s.job.formed = false →
      ∃ u, exec (.start rx) s = .next (stopIfPlaced (releaseHeld u)) ∧ u.job.formed = true ∧
        (s.warp.state = .halted → s.warp.dist = true → u.warp.state = .loaded) ∧
        (s.warp.state ≠ .halted ∨ s.warp.dist = false → u.warp = s.warp ∧ (standing s = .halted → u.job.resumed = true)) ∧
        u.job.acted = [] ∧ u.job.kept = [] ∧ u.stp.batch = rx.frame.batch.toNat ∧
        u.stp.stepIndex = readStep rx.frame.payload 1 ∧ u.stp.exec = 0 ∧ u.num.e = s.num.e ∧
        u.acc = s.acc ∧ u.spool = s.spool ∧ u.skein = s.skein ∧ u.flash = s.flash ∧ u.trd = s.trd) ∧
    (decisionOf 5 rx = true → s.warp.state = .loaded → s.job.formed = true → exec (.start rx) s = .next (stopIfPlaced (arrived rx s))) ∧
    (∀ y, decisionOf 4 rx = true →
      s.job.acted.find? (fun y => y.batch == rx.frame.batch.toNat && y.exec == rx.frame.exec.toNat) = some y →
      exec (.halt rx) s = .next (if y.payload = rx.frame.payload then arrived rx s
        else raise 0x4021 [rx.frame.src.toNat, rx.frame.batch.toNat, rx.frame.exec.toNat] (arrived rx s)))

/-- With a complete verdict set of every rank, on a LOADED manager at execution 0, 1 or 2 that holds no frame, does not stop
for a quarantined core and whose skein has lost no committed state: any set with cause 2 halts for reason 2; else any with
cause 3 for reason 1; else a fault or a failed check orders execution x + 1 where x is below 2 and halts for reason 0 where
x is 2; else a non-finite flag skips; else the batch commits. The kind and the reason are noted as the last decision; a halt
leaves the manager HALTED. -/
def Obligations.ManagerDecides : Prop :=
  ∀ s : State, isManager s = true → s.job.sets ≠ [] → silentRanks s = [] → s.warp.state = .loaded → s.stp.exec ≤ 2 →
    s.num.layers.length < 32768 → s.skn.stk.any (·.stateLost) = false → s.rov.held = [] →
    s.ply.quarantineHalt = false →
    ((∃ v ∈ s.job.sets, v.cause = 2) →
      (tryDecide s).job.lastKind = 4 ∧ (tryDecide s).job.lastHalt = 2 ∧ (tryDecide s).warp.state = .halted) ∧
    ((∀ v ∈ s.job.sets, v.cause ≠ 2) →
      ((∃ v ∈ s.job.sets, v.cause = 3) →
        (tryDecide s).job.lastKind = 4 ∧ (tryDecide s).job.lastHalt = 1 ∧ (tryDecide s).warp.state = .halted) ∧
      ((∀ v ∈ s.job.sets, v.cause ≠ 3) →
        ((∃ v ∈ s.job.sets, v.fault = true ∨ v.plyFail = true ∨ v.twoPathFail = true) →
          (s.stp.exec < 2 → (tryDecide s).job.lastKind = 3 ∧ (tryDecide s).stp.exec = s.stp.exec + 1 ∧
            (tryDecide s).stp.batch = s.stp.batch) ∧
          (s.stp.exec = 2 → (tryDecide s).job.lastKind = 4 ∧ (tryDecide s).job.lastHalt = 0 ∧ (tryDecide s).warp.state = .halted)) ∧
        ((∀ v ∈ s.job.sets, v.fault = false ∧ v.plyFail = false ∧ v.twoPathFail = false) →
          ((∃ v ∈ s.job.sets, v.nonfinite = true) →
            (tryDecide s).job.lastKind = 2 ∧ (tryDecide s).stp.batch = (s.stp.batch + 1) % 2 ^ 48 ∧
              (tryDecide s).stp.stepIndex = s.stp.stepIndex % 2 ^ 48) ∧
          ((∀ v ∈ s.job.sets, v.nonfinite = false) →
            (tryDecide s).job.lastKind = 1 ∧ (tryDecide s).stp.batch = (s.stp.batch + 1) % 2 ^ 48 ∧
              (tryDecide s).stp.stepIndex = (s.stp.stepIndex + 1) % 2 ^ 48))))

/-- Each of the eleven rows completes on a frame that arrives, with no skein word held bad. Whatever it carries, batch,
execution, step index, loader and job formation stay, and so do accumulator storage, spools, creels, module flash, the
queues, the attachment to the host, bring-up and the sessions. A reel message that fails the checks of R253 is not used:
event 0x2330 carries its tag, type and source, and a fault is outstanding. -/
def Obligations.ReelMessageRows : Prop :=
  ∀ (rx : Rx) (s : State) (c : Instr), Arrives rx s → s.skn.bad = [] →
    c ∈ [Instr.hankSegment rx, .rescale rx, .scaleProposal rx, .scaleAgreed rx, .factorResult rx, .paramSegment rx, .paramEnd rx,
      .paramResend rx, .plyLeaf rx, .plyLeafQuery rx, .kvBlock rx] → WellFormed.Instr.wf c = true →
    ∃ t, exec c s = .next t ∧ t.stp.batch = s.stp.batch ∧ t.stp.exec = s.stp.exec ∧ t.stp.stepIndex = s.stp.stepIndex ∧
      t.stp.running = s.stp.running ∧ t.job.formed = s.job.formed ∧ t.warp = s.warp ∧ t.acc = s.acc ∧ t.spool = s.spool ∧
      t.creel = s.creel ∧ t.flash = s.flash ∧ t.weft = s.weft ∧ t.hub = s.hub ∧ t.mod = s.mod ∧ t.spdm = s.spdm ∧ t.nep = s.nep ∧
      (c ≠ .kvBlock rx → reelValid s rx.frame.payload = false →
        t = faultNow (raise 0x2330 [wfield (wordAt rx.frame.payload 0) 19 0, wfield (wordAt rx.frame.payload 0) 31 24,
          wfield (wordAt rx.frame.payload 1) 31 16] (arrived rx s)))

/-- What the message does is followed by the sending of factors that have become complete and by the notes of phases that
end. A valid HANK_SEGMENT of the sender and the contributors that the route implies: below the current attempt, or for a
hank that is abandoned or non-finite, it changes nothing of the reel; above it it is held; at the current attempt, while
operands of the segment lack, it becomes one more operand of its adder. A RESCALE from the owner for the present attempt
restarts the hank on any other device: the attempt is one higher and HS four higher, at most 128. SCALE_AGREED stores every
rho it carries as agreed. SCALE_PROPOSAL is kept while other proposals of the route lack. -/
def Obligations.HankReductionRows : Prop :=
  ∀ (rx : Rx) (s : State), Arrives rx s → reelValid s rx.frame.payload = true → ∀ h, h = readRHdr rx.frame.payload →
    (segmentFrame rx = true → ∀ x : HankRt, s.hank h.tag = some x →
      (h.source, h.contributors) ∈ routeIn s (ownerOf s h.tag) (rankOf s) (h.path == 1) → h.wide = (h.path == 1 || isExact s) →
      rx.frame.payload.length = 8 + (if h.wide then 1024 else 512) →
        ∃ u, exec (.hankSegment rx) s = .next (noteP (noteEnds (sendNewFactors (arrived rx s) u))) ∧
        (h.attempt < x.attempt ∨ x.st = .abandoned ∨ x.st = .nonfinite → u.reel = s.reel) ∧
        (x.st ≠ .abandoned → x.st ≠ .nonfinite → x.attempt < h.attempt →
          u.hank h.tag = some { x with held := x.held ++ [rx] } ∧ ∀ g, g ≠ h.tag → u.hank g = s.hank g) ∧
        (x.st = .first → x.attempt = h.attempt → x.sat = false → (∀ p, findHank s h.tag = some p → x.doneCount false ≠ 16 * p.tileCount) →
          x.adders.any (fun a => a.at (h.path == 1) h.tile h.segment) = false → 1 < expectedOperands s h.tag (h.path == 1) →
          (segOperand h rx.frame.payload).vals.any (·.isNone) = false →
          u.hank h.tag = some { x with
            clippedSeen := x.clippedSeen || h.clipped
            adders := x.adders ++ [⟨h.path == 1, h.tile, h.segment, [segOperand h rx.frame.payload], false⟩] } ∧
          ∀ g, g ≠ h.tag → u.hank g = s.hank g)) ∧
    (reelOf 2 rx = true → ∀ x : HankRt, s.hank h.tag = some x → h.source = ownerOf s h.tag → ownerOf s h.tag ≠ rankOf s →
      h.attempt = x.attempt → s.stp.skipHeld = false → x.st ≠ .abandoned →
      ∃ u y, exec (.rescale rx) s = .next (noteP (noteEnds (sendNewFactors (arrived rx s) u))) ∧ u.hank h.tag = some y ∧
        y.attempt = x.attempt + 1 ∧ y.hs = min (x.hs + 4) 128) ∧
    (reelOf 4 rx = true → tableValid s rx.frame.payload = true →
      ∃ u, exec (.scaleAgreed rx) s = .next (noteP (noteEnds (sendNewFactors (arrived rx s) u))) ∧
      ∀ i, i < (wordAt rx.frame.payload 8).toNat → ∀ x, s.hank (h.tag + i) = some x → ∃ y, u.hank (h.tag + i) = some y ∧
        y.agreed = true ∧ y.rho = signed 16 (wfield (wordAt rx.frame.payload (9 + i / 2)) (16 * (i % 2) + 15) (16 * (i % 2)))) ∧
    (reelOf 3 rx = true → tableValid s rx.frame.payload = true → (wordAt rx.frame.payload 8).toNat = 1 →
      (∃ p ∈ routeIn s (ownerOf s h.tag) (rankOf s) false, p.1 = h.source) → ∀ x : HankRt, s.hank h.tag = some x → x.proposals = [] →
      ∃ u, exec (.scaleProposal rx) s = .next (noteP (noteEnds (sendNewFactors (arrived rx s) u))) ∧
        u.hank h.tag = some { x with proposals := [(h.source, signed 16 (wfield (wordAt rx.frame.payload 9) 15 0))] } ∧
        ∀ g, g ≠ h.tag → u.hank g = s.hank g)

/-- What the message does is followed by the sending of factors that have become complete and by the notes of phases that
end. FACTOR_RESULT of a Q factor of this execution that has not come before goes into the next Q of its layer. PARAM_SEGMENT
in the copy and format of its layer, of a tile of its shard and of its full length, is written where the image places it and
its bytes are kept for the hash. PARAM_END with the hash of the bytes received makes the parameters of its hank resident;
with another it asks for them again and forgets the bytes. PARAM_RESEND at the owner is counted and answered by emitting
again under event 0x1307. PLY_LEAF of a step and shard that is not held and not yet complete is held, or completes its step.
PLY_LEAF_QUERY is answered to the asking device alone. KV_BLOCK puts its bytes into the buffer of its block. -/
def Obligations.ReelDistributionRows : Prop :=
  ∀ (rx : Rx) (s : State), Arrives rx s → ∀ h, h = readRHdr rx.frame.payload →
    (reelValid s rx.frame.payload = true →
      (∀ p (x : LowRankRt), reelOf 5 rx = true → findHank s h.tag = some p → p.kind = 2 → rx.frame.payload.length = 1032 →
        rx.frame.exec.toNat = s.stp.exec → s.lowRank p.layer = some x → x.gotQ.contains (h.tile, h.segment) = false →
        ∃ u y, exec (.factorResult rx) s = .next (noteP (noteEnds (sendNewFactors (arrived rx s) u))) ∧ u.lowRank p.layer = some y ∧
          y.gotQ = (h.tile, h.segment) :: x.gotQ ∧ y.q = x.q ∧
          y.qNext = putPiece (rankOfLayer s p.layer) (h.tile / gridCols (rankOfLayer s p.layer) * 128 + 8 * h.segment)
            (h.tile % gridCols (rankOfLayer s p.layer) * 128) (rx.frame.payload.drop 8) x.qNext) ∧
      (∀ p (x : ParamRt) n, reelOf 6 rx = true → findHank s h.tag = some p → s.param h.tag = some x →
        n = wfield (wordAt rx.frame.payload 8) 31 16 → n ≤ 4096 → rx.frame.payload.length = 9 + ceilDiv n 4 →
        segmentFits s p (wfield (wordAt rx.frame.payload 8) 1 0) (wfield (wordAt rx.frame.payload 8) 7 4) h.tile h.segment n = true →
        ∃ u, exec (.paramSegment rx) s = .next (noteP (noteEnds (sendNewFactors (arrived rx s) u))) ∧
          u.param h.tag = some { x with bytes := x.bytes ++ (wordsBytes (rx.frame.payload.drop 9)).take n, waiting := true } ∧
          (∀ l base, p.kind ≠ 2 → layerOf s p.layer = some l → paramBase s p.layer = some base → u.skein = writePlaces
            (segPlaces l (wfield (wordAt rx.frame.payload 8) 7 4) base (wfield (wordAt rx.frame.payload 8) 1 0) h.tile h.segment)
            ((wordsBytes (rx.frame.payload.drop 9)).take n) s.skein)) ∧
      (∀ x : ParamRt, reelOf 7 rx = true → rx.frame.payload.length = 18 → s.param h.tag = some x →
        ∃ u, exec (.paramEnd rx) s = .next (noteP (noteEnds (sendNewFactors (arrived rx s) u))) ∧
        (bytesWords 8 (shake256 32 x.bytes) = rx.frame.payload.drop 10 →
          u.param h.tag = some { x with bytes := [], ended := true, waiting := false }) ∧
        (bytesWords 8 (shake256 32 x.bytes) ≠ rx.frame.payload.drop 10 →
          u.param h.tag = some { x with bytes := [], ended := false, waiting := false })) ∧
      (∀ p, reelOf 8 rx = true → findHank s h.tag = some p → p.owner = rankOf s → exec (.paramResend rx) s =
        .next (noteP (noteEnds (sendNewFactors (arrived rx s)
          (emitHank p (raise 0x1307 [p.tag] (countEvt 0x400050 (arrived rx s)))))))) ∧
      (reelOf 9 rx = true → rx.frame.payload.length = 18 → s.reel.leafStep ≤ readStep rx.frame.payload 8 →
        leafHeld s (readStep rx.frame.payload 8) h.tag = none →
          ∃ u, exec (.plyLeaf rx) s = .next (noteP (noteEnds (sendNewFactors (arrived rx s) u))) ∧
          (readStep rx.frame.payload 8 < u.reel.leafStep ∨
            leafHeld u (readStep rx.frame.payload 8) h.tag = some (wordsBytes (rx.frame.payload.drop 10)))) ∧
      (reelOf 10 rx = true → ∃ u, exec (.plyLeafQuery rx) s = .next (noteP (noteEnds (sendNewFactors (arrived rx s) u))) ∧
        (∀ x, s.reel.own.find? (fun x => x.step == readStep rx.frame.payload 8 && x.tag == h.tag) = some x →
          u = sendUnicast (mkFrame 0x10 2 2 h.tag h.source (rankOf s) s.stp.exec (leafMsg s h.tag x.step x.leaf).1.batch
            ((leafMsg s h.tag x.step x.leaf).1.words ++ (leafMsg s h.tag x.step x.leaf).2)) (arrived rx s)) ∧
        (s.reel.own.find? (fun x => x.step == readStep rx.frame.payload 8 && x.tag == h.tag) = none → u = arrived rx s))) ∧
    (frameOf 0x11 rx = true → kvShaped rx.frame.payload = true → ∃ t b, exec (.kvBlock rx) s = .next t ∧ b ∈ t.reel.kv ∧
      b.is (readKv rx.frame.payload) = true ∧ ∃ q ∈ b.pieces, q.1 = (readKv rx.frame.payload).offset)

/-- No agreed scale 500 ms into a batch: event 0x2301, a fault outstanding, and the hank and its shard are abandoned, those
of a dense layer alone. A lacking operand or RESCALE: event 0x2331, likewise. A lacking PARAM_END: the parameters are asked
for again and the bytes forgotten. A lacking leaf: event 0x6041 and a query to the owner, and nothing but the ports,
telemetry and the list of queries changes. A part of a key or value block that the ring step owes and that has not come
whole: event 0x4032 and a fault outstanding, and the work that needs it is given up (log entry 138). Initialisation of a
LOADED device with a seed in T0 or T1, with no skein word uncorrectable: every shard of this device gets its first weights,
once, and the leaf over them. -/
def Obligations.ReelTimeoutRows : Prop :=
  ∀ s : State,
    (∀ (tag : BitVec 20) x p, s.hank tag.toNat = some x → findHank s tag.toNat = some p →
      (s.stp.running = true → x.agreed = false → ∃ u, exec (.scaleAgreementTimeout tag) s = .next (noteEnds u) ∧ u.stp.fault = true ∧
        u.hank tag.toNat = some { x with st := .abandoned, held := [] } ∧
        (∀ y ∈ u.reel.shards, y.tag = tag.toNat → y.abandoned = true) ∧
        (p.kind = 0 → ∀ g, g ≠ tag.toNat → u.hank g = s.hank g ∧ u.shard g = s.shard g) ∧
        u = { s with tel := u.tel, stp := u.stp, reel := u.reel }) ∧
      (x.agreed = true → exec (.scaleAgreementTimeout tag) s = .next s) ∧
      (∀ r, x.held ≠ [] ∨ (∃ a ∈ x.adders, a.done = false ∧ a.operands ≠ []) → ∃ u, exec (.hankTimeout tag r) s = .next (noteEnds u) ∧
        u.stp.fault = true ∧ u.hank tag.toNat = some { x with st := .abandoned, held := [] } ∧
        (∀ y ∈ u.reel.shards, y.tag = tag.toNat → y.abandoned = true) ∧
        (p.kind = 0 → ∀ g, g ≠ tag.toNat → u.hank g = s.hank g ∧ u.shard g = s.shard g) ∧
        u = { s with tel := u.tel, stp := u.stp, reel := u.reel })) ∧
    (∀ (tag : BitVec 20) (x : ParamRt), s.param tag.toNat = some x →
      (x.waiting = true → ∃ t, exec (.paramEndTimeout tag) s = .next t ∧
        t.param tag.toNat = some { x with bytes := [], ended := false, waiting := false } ∧
        t = { s with rov := t.rov, tel := t.tel, reel := t.reel }) ∧
      (x.waiting = false → exec (.paramEndTimeout tag) s = .next s)) ∧
    (∀ (tag : BitVec 20) (st : BitVec 48), tag.toNat ∈ shardTags s → ownerOf s tag.toNat ≠ rankOf s → s.reel.leafStep ≤ st.toNat →
      st.toNat ≤ s.stp.stepIndex → leafHeld s st.toNat tag.toNat = none → ∃ t, exec (.plyLeafMissing tag st) s = .next t ∧
        t = { s with rov := t.rov, tel := t.tel, reel := { s.reel with leafAsked := (st.toNat, tag.toNat) :: s.reel.leafAsked } }) ∧
    (∀ l sh b, s.stp.running = true → blockLacks s l sh b = true →
      exec (.kvBlockTimeout l sh b) s =
        .next (noteEnds ((if s.stp.phases.f.stop = none then loseF else loseBelow (l + 1)) (faultNow (raise 0x4032 [l, sh, b] s))))) ∧
    (∀ l sh b x, s.stp.running = true → sh = shardNow s l → (∃ mb, mb < mbCount s ∧ b < ringBlocks s mb) →
      x ∈ dueParts s (s.stp.ringBack.contains l) (assocGet 0 l s.stp.ring) → partHere s l b x = false →
      ∃ t, exec (.kvBlockTimeout l sh b) s = .next t) ∧
    (∀ err, s.reel.initialised = true → exec (.initialisation err) s = .next s) ∧
    (∀ err, unitsRun s = true → (∀ a x, err ≠ some (.skein a x)) → s.warp.state = .loaded → s.nep.seed.isSome = true →
      s.reel.initialised = false → s.stp.running = false →
      ∃ t, exec (.initialisation err) s = .next t ∧ t.reel.initialised = true ∧ t.acc = s.acc ∧ t.spool = s.spool ∧ t.flash = s.flash ∧
        (∀ x ∈ t.reel.shards, x.shadowReady = false ∧ x.abandoned = false) ∧
        (∀ p l, p ∈ ownShards s → layerOf s p.layer = some l → ∃ y ∈ t.reel.shards, y.tag = p.tag ∧
          y.leaf = leafOf p.tag ((shardCoords l p).map fun c =>
            initValue (findStream s (streamId 2 2 2 l.id 0)) (streamKey (seedOf s) (streamId 2 2 2 l.id 0)) c.1 c.2)))

/-- When READY: a RUN outside a step with a generator and a target that exist is accepted: DONE goes and the outputs of the
generator on the key and counter registers come with the completion; a RUN that breaks a condition, or the reserved
generator, sets REFUSED and leaves the outputs and a pending test as they are. A write without RUN takes the fields and,
with a 1 in REFUSED, clears it. Nothing but the nep block changes. -/
def Obligations.NepTestRows : Prop :=
  ∀ (v : Word) (s : State),
    (isReady s = true → ∀ g, g = wfield v 17 16 →
      (wbit v 31 = true → g ≠ 3 → s.stp.inStep = false → nepTargetOk s g (wfield v 15 0) = true → exec (.nepTestRun v) s =
        .next { s with nep := { s.nep with
          testGenerator := g, testTarget := wfield v 15 0, testRefused := s.nep.testRefused && !wbit v 29, testDone := false
          testPending := some (nepTestWords s.nep) } }) ∧
      (wbit v 31 = true → g = 3 ∨ s.stp.inStep = true ∨ nepTargetOk s g (wfield v 15 0) = false → exec (.nepTestRun v) s =
        .next { s with nep := { s.nep with
          testGenerator := if g = 3 then s.nep.testGenerator else g, testTarget := wfield v 15 0, testRefused := true } }) ∧
      (wbit v 31 = false → g ≠ 3 → exec (.nepTestRun v) s =
        .next { s with nep := { s.nep with
          testGenerator := g, testTarget := wfield v 15 0, testRefused := s.nep.testRefused && !wbit v 29 } })) ∧
    (∀ ws, s.nep.testPending = some ws → exec .nepTestDone s =
      .next { s with nep := { s.nep with testPending := none, testDone := true, out := ws } }) ∧
    (s.nep.testPending = none → exec .nepTestDone s = .next s)

/-- A request in T0 or T1 on a trained stack. One that R284 forbids to its class is counted, raises event 0x2406 and leaves
a fault outstanding; nothing is written and a read gives nothing. A write of the update engines' class into committed
values, once the job has its shards, is not made (log entry 181). An admitted write whose parity holds puts the bytes at its
address and leaves every other byte; a store puts there what stands in spool or creel, and a move of the cluster DMA copies
between spools and creels; a read, with fewer than 8,192 granules outstanding at the stack, returns the bytes that stand
there, corrected or not, and a fetch puts them into spool or creel; none of them changes a byte of the skein; a read that
finds no slot waits. A read that meets an uncorrectable word gives nothing, and in committed state that state is lost, with
cause 2 outstanding. A parity failure leaves all bytes. -/
def Obligations.SkeinAccessRows : Prop :=
  ∀ s : State, unitsRun s = true →
    (∀ (l w : Bool) (k : Nat) (r : Rgn), (mayReach 1 l w k r = true ↔ r = .bobbin) ∧ (mayReach 4 l w k r = true ↔ r = .window) ∧
      (mayReach 0 l w k r = true ↔ r = .working ∨ r = .retention ∨ r = .window ∨ (∃ n, r = .params n ∧ w = false) ∨ (r = .loader ∧
        l = true)) ∧
      (mayReach 2 l w k r = true ↔ (∃ n, r = .params n ∧ w = true) ∨ (r = .system ∧ k = 0)) ∧
      (mayReach 3 l w k r = true ↔ (∃ n, r = .params n ∧ w = true) ∨ r = .master ∨ r = .shadow ∨ r = .optimiser ∨ r = .system)) ∧
    (∀ (l : Bool) (a : BitVec 40) (e : List Ecc) n src dst, requestShaped a.toNat (.move n src dst) = true → s.resident src n = true →
      (∀ x ∈ e, x = Ecc.good) → exec (.skeinRequest 0 l a (.move n src dst) e none) s = .next (s.storeAt dst (s.readAt src n))) ∧
    (∀ (c : ClassIx) (l : Bool) (a : BitVec 40) (e : List Ecc) (op : SkeinOp), (s.stack (skeinStack a.toNat)).trained = true →
      requestShaped a.toNat op = true → (∀ n src dst, op ≠ .move n src dst) →
      (∀ p, mayReach c.val l (SkeinReq.isWrite ⟨c.val, l, a.toNat, op, e, p⟩) (skeinStack a.toNat).val (regionOf s a.toNat) = false →
        ∃ t, exec (.skeinRequest c l a op e p) s = .next t ∧ t.stp.fault = true ∧
          ((∃ n, op = .read n) → c ≠ 4 → t.out.lastRead = none) ∧ ((∃ n, op = .read n) → c = 4 → t.out.lastRead = some ⟨[], true⟩) ∧
          t = { s with stp := t.stp, tel := t.tel, skn := t.skn, out := t.out }) ∧
      (∀ p, mayReach c.val l (SkeinReq.isWrite ⟨c.val, l, a.toNat, op, e, p⟩) (skeinStack a.toNat).val (regionOf s a.toNat) = true →
        SkeinReq.untimely s ⟨c.val, l, a.toNat, op, e, p⟩ = true → exec (.skeinRequest c l a op e p) s = .next s) ∧
      (mayReach c.val l (SkeinReq.isWrite ⟨c.val, l, a.toNat, op, e, none⟩) (skeinStack a.toNat).val (regionOf s a.toNat) = true →
        SkeinReq.untimely s ⟨c.val, l, a.toNat, op, e, none⟩ = false →
        (∀ b, ∃ t, exec (.skeinRequest c l a op e (some b)) s = .next t ∧ t.stp.fault = true ∧
          t = { s with stp := t.stp, tel := t.tel, skn := t.skn, out := t.out }) ∧
        (∀ d, op = .write d → s.memWf → (c = 4 → guarded s (windowOff a.toNat) d.length = false) →
          ∃ t, exec (.skeinRequest c l a op e none) s = .next t ∧ t.skein.readBytes a.toNat d.length = d ∧
            (∀ x, x < a.toNat ∨ a.toNat + d.length ≤ x → t.skein.readByte x = s.skein.readByte x) ∧
            t = { s with skein := t.skein, skn := t.skn }) ∧
        (∀ n src, op = .store n src → s.resident src n = true → c ≠ 4 →
          ((∀ x ∈ e, x = Ecc.good) → exec (.skeinRequest c l a op e none) s = .next (s.putSkein a.toNat (s.readAt src n))) ∧
          (Ecc.uncorrectable ∈ e → ∃ t, exec (.skeinRequest c l a op e none) s = .next t ∧ t.stp.fault = true ∧
            t = { s with stp := t.stp, tel := t.tel, skn := t.skn })) ∧
        (∀ n, op = .read n → (s.stack (skeinStack a.toNat)).outstanding < 8192 →
          ((∀ w ∈ wordsOf a.toNat n, s.skn.bad.contains w = false) → Ecc.uncorrectable ∉ e →
            ∃ t, exec (.skeinRequest c l a op e none) s = .next t ∧
              t.out.lastRead = some ⟨s.skein.readBytes a.toNat n, false⟩ ∧ t = { s with tel := t.tel, skn := t.skn, out := t.out }) ∧
          ((∃ w ∈ wordsOf a.toNat n, s.skn.bad.contains w = true) ∨ e.head? = some .uncorrectable →
            (∀ w ∈ wordsOf a.toNat n, (regionOf s w).committed = true) → c ≠ 4 → s.warp.state ≠ .halted →
            (loadRunning s = true → s.warp.began ≠ .halted) →
            ∃ t, exec (.skeinRequest c l a op e none) s = .next t ∧ t.out.lastRead = none ∧ t.stp.fault = true ∧
              (s.stp.faultCause ≤ 2 → t.stp.faultCause = 2) ∧ (t.stack (skeinStack a.toNat)).stateLost = true ∧
              t = { s with stp := t.stp, tel := t.tel, skn := t.skn, out := t.out })) ∧
        (∀ n dst, op = .fetch n dst → (s.stack (skeinStack a.toNat)).outstanding < 8192 →
          (∀ w ∈ wordsOf a.toNat n, s.skn.bad.contains w = false) → Ecc.uncorrectable ∉ e →
          ∃ u : State, exec (.skeinRequest c l a op e none) s = .next (u.storeAt dst (s.skein.readBytes a.toNat n)) ∧
            u = { s with tel := u.tel, skn := u.skn }) ∧
        (((∃ n, op = .read n) ∨ ∃ n dst, op = .fetch n dst) → 8192 ≤ (s.stack (skeinStack a.toNat)).outstanding →
          exec (.skeinRequest c l a op e none) s = .next { s with skn := { s.skn with
            waiting := s.skn.waiting ++ [⟨c.val, l, a.toNat, op, e, none⟩] } })))

/-- A host access in T0 or T1 within one line of the decoded range, at offset h of the window: before READY a write is
dropped and a read gives zeros, poisoned; when READY a read of words with good check bits gives the bytes at the place of h,
where the stack has a slot free, else it waits; a write puts them there, and a write to the guarded image is counted and
dropped; one that fails parity on its way changes no byte, and a read that does is poisoned. An access outside the range
does nothing. Refresh changes nothing. Scrub changes no byte, and unless it finds an uncorrectable word, nothing but the
skein bases and telemetry. -/
def Obligations.WindowAccessRows : Prop :=
  ∀ s : State,
    (∀ (o : BitVec 64) n d h p, unitsRun s = true → lineShaped o.toNat n = true → d.length = n → hdmOffset s o.toNat = some h →
      (isReady s = false → exec (.cxlMemWrite o d p) s = .next s ∧
        ∀ e, exec (.cxlMemRead o n e p) s = .next { s with out := { s.out with lastRead := some ⟨List.replicate n 0, true⟩ } }) ∧
      (isReady s = true →
        ((s.stack (skeinStack (windowAddr h))).outstanding < 8192 → (∀ w ∈ wordsOf (windowAddr h) n, s.skn.bad.contains w = false) →
          ∃ t, exec (.cxlMemRead o n [] none) s = .next t ∧
            t.out.lastRead = some ⟨s.skein.readBytes (windowAddr h) n, false⟩ ∧ t = { s with skn := t.skn, out := t.out }) ∧
        (8192 ≤ (s.stack (skeinStack (windowAddr h))).outstanding → ∀ e, exec (.cxlMemRead o n e none) s = .next { s with skn :=
          { s.skn with waiting := s.skn.waiting ++ [⟨4, false, windowAddr h, .read n, e, none⟩] } }) ∧
        (guarded s (windowOff (windowAddr h)) n = false →
          exec (.cxlMemWrite o d none) s = .next (s.putSkein (windowAddr h) d)) ∧
        (guarded s (windowOff (windowAddr h)) n = true → ∃ t, exec (.cxlMemWrite o d none) s = .next t ∧ t = { s with tel := t.tel }) ∧
        (∀ b, ∃ t, exec (.cxlMemWrite o d (some b)) s = .next t ∧ t.stp.fault = true ∧
          t = { s with stp := t.stp, tel := t.tel, skn := t.skn }) ∧
        (∀ b e, ∃ t, exec (.cxlMemRead o n e (some b)) s = .next t ∧ t.out.lastRead = some ⟨[], true⟩ ∧ t.skein = s.skein))) ∧
    (∀ (o : BitVec 64) n d e p, lineShaped o.toNat n = true → d.length = n → hdmOffset s o.toNat = none →
      exec (.cxlMemWrite o d p) s = .next s ∧ exec (.cxlMemRead o n e p) s = .next s) ∧
    (∀ h, h < 2 ^ 35 → windowOff (windowAddr h) = h) ∧
    (∀ k c b, exec (.refresh k c b) s = .next s) ∧
    (∀ k (o : BitVec 37) kind, scrubShaped o.toNat = true → ∃ t, exec (.scrub k o kind) s = .next t ∧ t.skein = s.skein ∧
      (kind ≠ .uncorrectable → s.skn.bad.contains (k.val * 2 ^ 37 + o.toNat) = false → t = { s with tel := t.tel, skn := t.skn }) ∧
      (s.warp.state ≠ .halted → (loadRunning s = true → s.warp.began ≠ .halted) → t = { s with stp := t.stp, tel := t.tel, skn := t.skn }))

/-- WINDOW_REFILL sets every counter of the arbiter to the weight of its class and leaves owner, losses and back-offs.
ARBITRATION, on an idle channel or when the owner has deasserted its request, charges the owner its beats, stopping at zero,
and then grants the eligible class with the fullest counter, of equal ones the lower number: its losses are cleared, and
every other eligible class backs off with one loss more, at most 8; with no eligible class there is no owner; while the
owner still requests nothing changes. A burst limit that has expired is the same arbitration while the owner still requests.
A back-off ends for its class alone. CLEAR_WAIT_MAX clears the longest waits of its stack. No other arbiter changes, and
nothing but the skein bases and telemetry. -/
def Obligations.ShuttleRows : Prop :=
  ∀ (k : StackIx) (ch : ChanIx) (s : State),
    (∀ beats, ∃ t, exec (.windowRefill k ch beats) s = .next t ∧ (∀ i : ClassIx, (t.arbiter k ch).credits[i] = shuttleWeight s k ch i.val) ∧
      (t.arbiter k ch).owner = (s.arbiter k ch).owner ∧ (t.arbiter k ch).losses = (s.arbiter k ch).losses ∧
      (t.arbiter k ch).backoff = (s.arbiter k ch).backoff ∧ t = { s with skn := t.skn, tel := t.tel }) ∧
    (∀ (rq : BitVec 5) beats wait, (∀ o, (s.arbiter k ch).owner = some o → rq.getLsbD o.val = false) →
      ∃ t, exec (.arbitration k ch rq beats wait) s = .next t ∧ t = arbitrate k ch rq beats wait s) ∧
    (∀ (rq : BitVec 5) beats wait o, (s.arbiter k ch).owner = some o → rq.getLsbD o.val = true →
      exec (.arbitration k ch rq beats wait) s = .next s ∧
      exec (.burstLimit k ch rq beats wait) s =
        .next (if burstOver k ch o beats s then arbitrate k ch rq beats wait s else s)) ∧
    (∀ (rq : BitVec 5) beats wait t, t = arbitrate k ch rq beats wait s →
      (∀ j d, j ≠ k ∨ d ≠ ch → t.arbiter j d = s.arbiter j d) ∧ t = { s with skn := t.skn, tel := t.tel } ∧
      (∀ i : ClassIx, (t.arbiter k ch).credits[i] =
        if (s.arbiter k ch).owner = some i then (s.arbiter k ch).credits[i] - beats else (s.arbiter k ch).credits[i]) ∧
      ((∀ i, (s.arbiter k ch).eligible rq i = false) → (t.arbiter k ch).owner = none) ∧
      ((∃ i, (s.arbiter k ch).eligible rq i = true) → ∃ w, (t.arbiter k ch).owner = some w ∧ (s.arbiter k ch).eligible rq w = true ∧
        (∀ i, (s.arbiter k ch).eligible rq i = true → (t.arbiter k ch).credits[i] < (t.arbiter k ch).credits[w] ∨
          (t.arbiter k ch).credits[i] = (t.arbiter k ch).credits[w] ∧ w ≤ i) ∧
        (t.arbiter k ch).losses[w] = 0 ∧ (t.arbiter k ch).backoff[w] = false ∧
        (∀ i, i ≠ w → (s.arbiter k ch).eligible rq i = true → (t.arbiter k ch).backoff[i] = true ∧
          (t.arbiter k ch).losses[i] = min ((s.arbiter k ch).losses[i] + 1) 8) ∧
        (∀ i, (s.arbiter k ch).eligible rq i = false → (t.arbiter k ch).backoff[i] = (s.arbiter k ch).backoff[i] ∧
          (t.arbiter k ch).losses[i] = (s.arbiter k ch).losses[i]))) ∧
    (∀ c : ClassIx, ∃ t, exec (.backoffEnd k ch c) s = .next t ∧
      t.arbiter k ch = { s.arbiter k ch with backoff := (s.arbiter k ch).backoff.set c false } ∧
      (∀ j d, j ≠ k ∨ d ≠ ch → t.arbiter j d = s.arbiter j d) ∧ t = { s with skn := t.skn }) ∧
    (isReady s = true → ∀ v : Word,
      (wbit v 0 = true → ∃ t, exec (.clearWaitMax k v) s = .next t ∧
        t.stack k = { s.stack k with waitMax := Vector.replicate 160 0 } ∧ (∀ j, j ≠ k → t.stack j = s.stack j) ∧
        t = { s with skn := t.skn }) ∧
      (wbit v 0 = false → exec (.clearWaitMax k v) s = .next s))

/-- A class that is not the owner and has requested for 4,096 channel cycles: SKN_SHUTTLE_STARVED counts the interval and
the longest wait is noted; where the stack has not reported in this batch, event 0x7201 carries stack, channel, class and
wait, and the stack has reported; otherwise there is no event. Nothing else changes: no fault and no data. A shorter wait
changes nothing. -/
def Obligations.ShuttleStarvedRow : Prop :=
  ∀ (k : StackIx) (ch : ChanIx) (c : ClassIx) (wait : Nat) (s : State),
    (4096 ≤ wait → (s.arbiter k ch).owner ≠ some c →
      ((s.stack k).starved = false → exec (.shuttleStarved k ch c wait) s =
        .next (raise 0x7201 [k.val, ch.val, c.val, wait]
          ((noteWait k ch c wait (count 48 (shuttleKey (sknBase k + 0x3C) ch.val c.val) 1 s)).onStack k
            fun x => { x with starved := true }))) ∧
      ((s.stack k).starved = true → exec (.shuttleStarved k ch c wait) s =
        .next (noteWait k ch c wait (count 48 (shuttleKey (sknBase k + 0x3C) ch.val c.val) 1 s)))) ∧
    (wait < 4096 → exec (.shuttleStarved k ch c wait) s = .next s) ∧
    (∀ u : State, noteWait k ch c wait u = { u with skn := (noteWait k ch c wait u).skn } ∧
      (∀ j, j ≠ k → (noteWait k ch c wait u).stack j = u.stack j))

/-- While the flyer runs and its power state holds (else nothing happens), physical training on all eight lanes takes a
TRAINING, RETRAINING or DOWN port to UP with a HELLO on the line, on fewer lanes it stays as it is; a deaf port only trains.
At an UP or JOINED port a good HELLO is kept: where image, job tag, device count, rank, role and parallel index match the
port is JOINED, from UP with fresh sequence numbers and full credits, or, where both sides resume, with the retry buffer
from the partner's NEXT_SEQ on; with no image on both sides it is UP; otherwise it is UP with event 0x4004. Loss of lock
takes a JOINED port to RETRAINING, which keeps retry buffer and sequence numbers, and an UP one back to training. A port
that does not rejoin goes DOWN without its retry buffer, and with a role it leaves a fault outstanding. PORT_DISABLE
disables the ports of the mask and lets the others train again; RETRAIN retrains a JOINED port. That fresh joining starts at
zero with full credits is log entry 14. -/
def Obligations.PortTrainingRows : Prop :=
  ∀ (p : PortIx) (s : State),
    (∀ (lanes : BitVec 8) rtt a b, a = (s.onPort p fun q => { q with lanes := lanes, rtt := rtt }) →
      b = (a.onPort p fun q => { q with st := .up, hello := none }) →
      (flyerRuns s = false ∨ unitsRun s = false → exec (.physicalTrainingDone p lanes rtt) s = .next s) ∧
      (flyerRuns s = true → unitsRun s = true → (s.port p).st = .deaf → exec (.physicalTrainingDone p lanes rtt) s = .next a) ∧
      (flyerRuns s = true → unitsRun s = true → (s.port p).st = .training ∨ (s.port p).st = .retraining ∨ (s.port p).st = .down →
        exec (.physicalTrainingDone p lanes rtt) s = .next (if lanes = 0xFF then putWire p (helloFrame b p) b else a)) ∧
      ((s.port p).st = .up ∨ (s.port p).st = .joined ∨ (s.port p).st = .disabled → exec (.physicalTrainingDone p lanes rtt) s = .next s)) ∧
    ((s.port p).st = .training ∨ (s.port p).st = .retraining ∨ (s.port p).st = .down ∨ (s.port p).st = .deaf →
      exec (.trainingAttemptTimeout p) s = .next (s.onPort p fun q => { q with attemptTick := s.clk.refTimer })) ∧
    (∀ (rx : Rx) h, rx.port = p → rx.frame.crc = frameSum rx.frame → frameAllowed rx.frame = true → reservedSet rx.frame = false →
      rx.blocks = blocksOf rx.frame → (s.port p).st = .up ∨ (s.port p).st = .joined → frameOf 0x03 rx = true →
        h = readHello rx.frame.payload →
      ∃ t, exec (.hello rx) s = .next t ∧ t = { s with rov := t.rov, tel := t.tel } ∧ (t.port p).hello = some h ∧
        (t.port p).partnerRank = h.rank ∧
        (helloMatches s p h = true → (t.port p).st = .joined) ∧
        (helloMatches s p h = false → (t.port p).st = .up ∧ (t.port p).retry = (s.port p).retry ∧ ∀ q, q ≠ p → t.port q = s.port q) ∧
        (helloMatches s p h = true → (s.port p).st = .up → (s.port p).waiting = 0 →
          ((s.port p).resume && h.resume) = false → t.port p = { s.port p with
            partnerNotReady := false, hello := some h, partnerRank := h.rank, st := .joined, resume := false, retry := [], resends := 0
            nakSent := false, refused := [], txSeq := 0, rxSeq := 0, c0 := 2048, c1 := 12288, c2 := 8192, c3 := 10240, r0 := 0, r1 := 0,
              r2 := 0, r3 := 0 }) ∧
        (helloMatches s p h = true → (s.port p).st = .up → (s.port p).waiting = 0 → ((s.port p).resume && h.resume) = true → ∃ n,
          n = (h.nextSeq + 65536 - ((s.port p).txSeq + 65536 - (s.port p).retry.length) % 65536) % 65536 ∧
          t.port p = { s.port p with
            partnerNotReady := false, hello := some h, partnerRank := h.rank, st := .joined, resume := false,
              retry := (s.port p).retry.drop n, resends := 0
            nakSent := false, refused := [], wire := (((s.port p).retry.drop n).map sealFrame).reverse ++ (s.port p).wire })) ∧
    ((s.port p).st = .up → exec (.helloTimeout p) s = .next (putWire p (helloFrame s p) s)) ∧
    ((s.port p).st ≠ .up → exec (.helloTimeout p) s = .next s) ∧
    (∀ f (u : State), (putWire p f u).port p = { u.port p with wire := sealFrame f :: (u.port p).wire } ∧
      (∀ q, q ≠ p → (putWire p f u).port q = u.port q) ∧ putWire p f u = { u with rov := (putWire p f u).rov, tel := (putWire p f u).tel }) ∧
    (∀ lanes t, exec (.lossOfLock p lanes) s = .next t → (∀ q, q ≠ p → t.port q = s.port q) ∧ t = { s with rov := t.rov, tel := t.tel }) ∧
    (∀ lanes, (s.port p).st = .joined → ∃ t, exec (.lossOfLock p lanes) s = .next t ∧
      t.port p = { s.port p with
        lanes := lanes, st := .retraining, resume := true, hello := none, alignRx := none, attemptTick := s.clk.refTimer }) ∧
    (∀ lanes, (s.port p).st = .up → ∃ t, exec (.lossOfLock p lanes) s = .next t ∧
      t.port p = { s.port p with
        lanes := lanes, st := if (s.port p).resume then .retraining else .training, hello := none, alignRx := none
        attemptTick := s.clk.refTimer }) ∧
    ((s.port p).st = .retraining → ∃ t, exec (.portDown p) s = .next t ∧ (t.port p).st = .down ∧ (t.port p).retry = [] ∧
      (portRole s p ≠ 0 → t.stp.fault = true ∧ t.stp.portFault = true) ∧ (portRole s p = 0 → t.stp = s.stp) ∧
      (∀ q, q ≠ p → t.port q = s.port q) ∧ t = { s with rov := t.rov, tel := t.tel, stp := t.stp }) ∧
    (isReady s = true →
      (∀ mask : BitVec 9, ∃ t, exec (.portDisable mask) s = .next t ∧ t.rov.disable = mask ∧
        (mask.getLsbD p.val = true → s.rov.disable.getLsbD p.val = false → (t.port p).st = .disabled ∧ (t.port p).retry = []) ∧
        (mask.getLsbD p.val = false → s.rov.disable.getLsbD p.val = true → (t.port p).st = .training) ∧
        (mask.getLsbD p.val = s.rov.disable.getLsbD p.val → t.port p = s.port p) ∧
        t = { s with rov := t.rov, tel := t.tel, stp := t.stp }) ∧
      (∀ v : Word, (s.port p).st = .joined → wbit v 0 = true → ∃ t, exec (.retrain p v) s = .next t ∧
        t.port p = { s.port p with st := .retraining, resume := true, hello := none, alignRx := none, attemptTick := s.clk.refTimer } ∧
        (∀ q, q ≠ p → t.port q = s.port q) ∧ t = { s with rov := t.rov, tel := t.tel }))

/-- At an UP or JOINED port: IDLE is counted; ALIGN in its running count is noted with the codewords corrected since the
last, and a gap takes a JOINED port to RETRAINING; the sent IDLE and ALIGN are single blocks without CRC; LINK_CTRL sent
returns every block owed. LINK_CTRL received releases the frames before NEXT_SEQ and takes the credits. The ACK timeout
resends every unacknowledged frame in order and counts one more resend; after eight in a row it retrains the port instead,
with retry buffer kept. A VC0 frame without credit for 10 ms retrains a JOINED port. NOT_READY keeps the frame it names,
which after the back-off goes again, a sequenced one with those behind it, and counts no resend. An uncorrectable codeword
is counted and, where it touches a frame of an UP or JOINED port, NAKed. The codewords that the FEC corrects are a free
value (log entry 128). -/
def Obligations.PortLinkRows : Prop :=
  ∀ (p : PortIx) (s : State),
    ((s.port p).st = .up ∨ (s.port p).st = .joined →
      exec (.idle p) s = .next (count 48 (portBase p + 0x1C) 1 s) ∧
      exec (.idleSend p) s = .next (putWire p (mkFrame 0 0 0 0 0 0 0 0 []) s) ∧
      exec (.alignSend p) s = .next (putWire p (mkFrame 2 0 0 0 0 0 0 0 [(s.port p).alignTx + 1])
        (s.onPort p fun q => { q with alignTx := (s.port p).alignTx + 1 })) ∧
      (∀ n, (s.port p).alignRx = none ∨ (s.port p).alignRx = some (n - 1) → exec (.align p n) s =
        .next (count 48 (portBase p + 0x24) (Config.fecCorrected p.val n.toNat)
          (count 48 (portBase p + 0x1C) 1 (s.onPort p fun x => { x with alignRx := some n })))) ∧
      exec (.linkCtrlSend p) s = .next (sendLinkCtrl p (s.port p).nakSent s)) ∧
    (∀ n c, (s.port p).st = .joined → (s.port p).alignRx = some c → n ≠ c + 1 → ∃ t, exec (.align p n) s = .next t ∧
      t.port p = { s.port p with st := .retraining, resume := true, hello := none, alignRx := none, attemptTick := s.clk.refTimer } ∧
      (∀ q, q ≠ p → t.port q = s.port q) ∧ t = { s with rov := t.rov, tel := t.tel }) ∧
    (∀ rx : Rx, rx.port = p → rx.frame.crc = frameSum rx.frame → frameAllowed rx.frame = true → reservedSet rx.frame = false →
      rx.blocks = blocksOf rx.frame → (s.port p).st = .up ∨ (s.port p).st = .joined →
      (frameOf 0x04 rx = true → ∃ t, exec (.notReady rx) s = .next t ∧ (∀ q, q ≠ p → t.port q = s.port q) ∧
        t = { s with rov := t.rov, tel := t.tel } ∧ ∃ f : Option Frame, t.port p = { s.port p with
          partnerNotReady := true, refused := (s.port p).refused ++ f.toList } ∧
          (wfield (wordAt rx.frame.payload 0) 23 16 = 3 → f = some (helloFrame s p)) ∧
          (∀ g, f = some g → wfield (wordAt rx.frame.payload 0) 23 16 = 1 → g ∈ (s.port p).wire ∧ g.ftype = 1) ∧
          (3 < wfield (wordAt rx.frame.payload 0) 23 16 → f = (s.port p).retry.find? fun g =>
            g.ftype.toNat == wfield (wordAt rx.frame.payload 0) 23 16 && g.seq.toNat == wfield (wordAt rx.frame.payload 0) 15 0)) ∧
      (frameOf 0x01 rx = true → ∃ t n, exec (.linkCtrl rx) s = .next t ∧ t = { s with rov := t.rov, tel := t.tel } ∧
        (wfield (wordAt rx.frame.payload 0) 15 0 + 65536 - ((s.port p).txSeq + 65536 - (s.port p).retry.length) % 65536) % 65536 = n ∧
        ((s.port p).st = .up ∨ wbit (wordAt rx.frame.payload 0) 16 = false ∧ (s.port p).waiting = 0 → n ≤ (s.port p).retry.length →
          (∀ q, q ≠ p → t.port q = s.port q) ∧ t.port p = { s.port p with
            partnerNotReady := false, retry := (s.port p).retry.drop n, resends := if 0 < n then 0 else (s.port p).resends
            c0 := (s.port p).c0 + wfield (wordAt rx.frame.payload 1) 15 0, c1 := (s.port p).c1 + wfield (wordAt rx.frame.payload 1) 31 16
            c2 := (s.port p).c2 + wfield (wordAt rx.frame.payload 2) 15 0
            c3 := (s.port p).c3 + wfield (wordAt rx.frame.payload 2) 31 16 }))) ∧
    ((s.port p).st = .joined → (s.port p).blocked = false →
      ((s.port p).retry = [] → exec (.ackTimeout p) s = .next s) ∧
      ((s.port p).retry ≠ [] → (s.port p).resends < 8 → ∃ t, exec (.ackTimeout p) s = .next t ∧ t.port p = { s.port p with
        wire := ((s.port p).retry.map sealFrame).reverse ++ (s.port p).wire, resends := (s.port p).resends + 1 } ∧
        (∀ q, q ≠ p → t.port q = s.port q) ∧ t = { s with rov := t.rov, tel := t.tel }) ∧
      ((s.port p).retry ≠ [] → 8 ≤ (s.port p).resends → ∃ t, exec (.ackTimeout p) s = .next t ∧ (t.port p).st = .retraining ∧
        (t.port p).retry = (s.port p).retry ∧ (∀ q, q ≠ p → t.port q = s.port q) ∧ t = { s with rov := t.rov, tel := t.tel })) ∧
    (∀ f l, (s.port p).st = .joined → (s.port p).q0 = f :: l → (s.port p).c0 < blocksOf f.frame →
      ∃ t, exec (.vc0CreditTimeout p) s = .next t ∧
        t.port p = { s.port p with st := .retraining, resume := true, hello := none, alignRx := none, attemptTick := s.clk.refTimer } ∧
        (∀ q, q ≠ p → t.port q = s.port q) ∧ t = { s with rov := t.rov, tel := t.tel }) ∧
    ((s.port p).st = .up ∨ (s.port p).st = .joined → (s.port p).waiting = 0 → ∃ t, exec (.notReadyBackoff p) s = .next t ∧
      (∀ q, q ≠ p → t.port q = s.port q) ∧ t = { s with rov := t.rov, tel := t.tel } ∧ t.port p = { s.port p with
        refused := []
        wire := ((((s.port p).refused.filter fun f => !sequenced f) ++
          if (s.port p).st = .joined ∧ (s.port p).blocked = true then fromRefused (s.port p) else []).map sealFrame).reverse ++
            (s.port p).wire }) ∧
    (∀ n, ∃ t, exec (.uncorrectableCodeword p n) s = .next t ∧ (t.port p).st = (s.port p).st ∧ (t.port p).retry = (s.port p).retry ∧
      (0 < n → (s.port p).st = .up ∨ (s.port p).st = .joined → (t.port p).nakSent = true ∧
        ∃ f, (t.port p).wire = f :: (s.port p).wire ∧ f.ftype = 1 ∧ wbit (wordAt f.payload 0) 16 = true) ∧
      (n = 0 → (t.port p).wire = (s.port p).wire) ∧
      (∀ q, q ≠ p → t.port q = s.port q) ∧ t = { s with rov := t.rov, tel := t.tel }) ∧
    (∀ b (u : State), ∃ f, (sendLinkCtrl p b u).port p =
        { u.port p with r0 := 0, r1 := 0, r2 := 0, r3 := 0, nakSent := (u.port p).nakSent || b, wire := f :: (u.port p).wire } ∧
      f.ftype = 1 ∧ wfield (wordAt f.payload 0) 15 0 = (u.port p).rxSeq % 65536 ∧
      sendLinkCtrl p b u = { u with rov := (sendLinkCtrl p b u).rov, tel := (sendLinkCtrl p b u).tel }) ∧
    sealFrame (mkFrame 0 0 0 0 0 0 0 0 []) = mkFrame 0 0 0 0 0 0 0 0 [] ∧ (∀ n, blocksOf (mkFrame 2 0 0 0 0 0 0 0 [n]) = 1)

/-- A queue that is not ENABLED, or has fetched nothing, treats nothing, none does in T2 to T4, and queue 0 nothing while a
STEP runs; a type that the queue does not carry is refused with status 1, and the descriptor of another row waits. A refusal
takes the descriptor, counts, raises event 0x5021 with queue, slot, status and detail, completes with them and changes
nothing else. A STEP is refused with the first status of R368 that applies: at most 4 where no image is LOADED, at most 5
without a seed, at most 8 for another batch. An accepted STEP runs in queue 0; its batch, sequences and settled request are
taken, its token words stand in the free half of the token region, and no other byte of memory changes. SEED stores the seed
whose commitment matches; one that differs is refused with status 6 after event 0x5005. A read that is not answered
completes HOST_READ_FAILED after event 0x5023, unless a status before it applies. -/
def Obligations.DescriptorHeadRows : Prop :=
  ∀ (s : State),
    (∀ (ty : Nat) (c : Instr), (ty, c) = (3, .seed) ∨ (∃ e, (ty, c) = (4, .ckptSave e)) ∨ (∃ a b p, (ty, c) = (1, .step a b p)) ∨
        (∃ a b r p e, (ty, c) = (2, .infer a b r p e)) ∨ (∃ b p, (ty, c) = (5, .ckptRestore b p)) →
      ((s.queue 0).fetched = [] ∨ (s.queue 0).st ≠ .enabled ∨ (s.queue 0).running.isSome = true ∨ unitsRun s = false → exec c s = .next s) ∧
      (∀ d ds, (s.queue 0).fetched = d :: ds → (s.queue 0).st = .enabled → unitsRun s = true → (s.queue 0).running = none →
        (carries 0 d.type = false → exec c s = .next (refuseHead 0 1 0 s)) ∧
        (carries 0 d.type = true → d.type ≠ ty → exec c s = .next s))) ∧
    (∀ (ty : Nat) (c : Instr), (∃ b p e, wholeLinesLong b.length = true ∧ (ty, c) = (0x10, .copyIn b p e)) ∨
        (∃ n e, wholeLinesLong n = true ∧ (ty, c) = (0x11, .copyOut n e)) →
      ((s.queue 1).st ≠ .enabled ∨ unitsRun s = false ∨ ((s.queue 1).running = none ∧ (s.queue 1).fetched = []) → exec c s = .next s) ∧
      (∀ d, (s.queue 1).st = .enabled → unitsRun s = true → (s.queue 1).running = some d → (d.type == 0x10) ≠ (ty == 0x10) →
        exec c s = .next s) ∧
      (∀ d ds, (s.queue 1).fetched = d :: ds → (s.queue 1).st = .enabled → unitsRun s = true → (s.queue 1).running = none →
        (carries 1 d.type = false → exec c s = .next (refuseHead 1 1 0 s)) ∧
        (carries 1 d.type = true → d.type ≠ ty → exec c s = .next s))) ∧
    (∀ (q : QueueIx) d ds st det, (s.queue q).fetched = d :: ds → refuseHead q st det s =
      complete q d { status := st, detail := det, batch := s.stp.batch }
        ((raise 0x5021 [q.val, d.slot, st, det] (count 16 (queueBase q + 0x30) 1 s)).onQueue q fun x => { x with fetched := ds })) ∧
    (∀ (q : QueueIx) d c (u : State), complete q d c u = { u with tel := (complete q d c u).tel, out := (complete q d c u).out }) ∧
    (∀ d ds a b p, (s.queue 0).fetched = d :: ds → (s.queue 0).st = .enabled → unitsRun s = true → (s.queue 0).running = none →
      d.type = 1 →
      s.stp.desc = none → s.stp.running = false →
      (s.warp.state ≠ .loaded → ∃ st det, firstStatus (stepChecks s d (stepIn d a b p)) = some (st, det) ∧ st ≤ 4) ∧
      (s.nep.seed = none → ∃ st det, firstStatus (stepChecks s d (stepIn d a b p)) = some (st, det) ∧ st ≤ 5) ∧
      (stepBatch d ≠ s.stp.batch → ∃ st det, firstStatus (stepChecks s d (stepIn d a b p)) = some (st, det) ∧ st ≤ 8) ∧
      (∀ st det, firstStatus (stepChecks s d (stepIn d a b p)) = some (st, det) →
        exec (.step a b p) s = .next (refuseHead 0 st det s)) ∧
      (firstStatus (stepChecks s d (stepIn d a b p)) = none → ∃ t, exec (.step a b p) s = .next t ∧
        t.stp.desc = some ⟨s.stp.batch, (stepIn d a b p).es, s.stp.nextHalf, wbit (wordAt d.words 0) 0⟩ ∧
        t.stp.nextHalf = !s.stp.nextHalf ∧ (t.queue 0).running = some d ∧ (t.queue 0).fetched = ds ∧
        t.skein = s.skein.writeWords ((tokenRegion s).1 + if s.stp.nextHalf then (tokenRegion s).2 else 0) (batchTokens s (stepIn d a b p)) ∧
        t = { s with stp := t.stp, job := t.job, weft := t.weft, skein := t.skein, skn := t.skn })) ∧
    (∀ d ds, (s.queue 0).fetched = d :: ds → (s.queue 0).st = .enabled → unitsRun s = true → (s.queue 0).running = none →
      d.type = 3 →
      hdrClear (wordAt d.words 0) = true → wbit (wordAt d.words 0) 0 = false → (∀ i, 6 ≤ i → i < 32 → wordAt d.words i = 0) →
      s.warp.state = .loaded →
      (seedCommitment (seedBytes d) = imageCommitment s → s.nep.seed = none → exec .seed s =
        .next (completeHead 0 { status := 0, batch := s.stp.batch } { s with nep := { s.nep with seed := some (seedBytes d) } })) ∧
      (seedCommitment (seedBytes d) = imageCommitment s → s.nep.seed.isSome = true → exec .seed s = .next (refuseHead 0 7 0 s)) ∧
      (seedCommitment (seedBytes d) ≠ imageCommitment s → exec .seed s = .next (refuseHead 0 6 0 (raise 0x5005 [] s)))) ∧
    (∀ (q : QueueIx) a b r w, (readsNow q s = none → exec (.dataReadTimeout q a b r w) s = .next s) ∧
      (∀ d x, readsNow q s = some d → (s.queue q).running = none → firstStatus (readChecks q a b r w d s) = some x →
        exec (.dataReadTimeout q a b r w) s = .next (refuseHead q x.1 x.2 (if x.1 = 0x10 then raise 0x5023 [q.val, d.slot] s else s)))) ∧
    (∀ d a b r w, (s.queue 1).st = .enabled → unitsRun s = true → (s.queue 1).running = some d → d.type = 0x10 →
      exec (.dataReadTimeout 1 a b r w) s = exec (.copyIn [] true none) (raise 0x5023 [1, d.slot] s))

/-- Each row takes the descriptor at the head of its ENABLED queue, and the first status that applies refuses it. INFER,
outside a step, writes whole lines with four words for each request and completes; memories, step and numeric state stay.
CKPT_SAVE, between steps with every scale and the ply digest agreed: without a seed, an initialised job or a sealing key it
is refused with status 0x12; else the checkpoint under one of the sealing keys is written and completes, or, where BYTES is
too small for it, is refused with status 0x13 and the bytes it takes; with a shard that cannot be read it is refused with
status 0x12 (log entry 179). CKPT_RESTORE: the first failing check is the cause of the refusal and changes no job state; an
accepted one brings step and batch of its record, and the next step is settled for reason 3. A copy that starts runs from
its first byte. COPY_IN writes exactly the window range of the lines that came, and goes on from there, until its bytes are
moved; poisoned data ends it and keeps what it wrote; COPY_OUT writes the bytes its window read gives; lines that it cannot
read it leaves out (log entry 178). Which sealing key is used is a free choice, log entry 42; the logits are free values,
log entry 81. -/
def Obligations.DescriptorDataRows : Prop :=
  ∀ (s : State) (d : Desc) (ds : List Desc),
    ((s.queue 0).fetched = d :: ds → (s.queue 0).st = .enabled → unitsRun s = true → (s.queue 0).running = none →
      (∀ a b r p e, d.type = 2 → s.stp.inStep = false → s.stp.desc = none → arithmeticOn s = true →
        (∀ st det, firstStatus (inferChecks s d (inferIn d a b p) r) = some (st, det) →
          exec (.infer a b r p e) s = .next (refuseHead 0 st det s)) ∧
        (firstStatus (inferChecks s d (inferIn d a b p) r) = none → e = none ∨ (∃ g k, e = some (.nepKey g k)) →
          ∃ t, exec (.infer a b r p e) s = .next t ∧ (t.queue 0).fetched = ds ∧ (∃ data, ⟨nat64 d.words 11, data⟩ ∈ t.tel.hostWrites ∧
            data.length = (16 * wfield (wordAt d.words 2) 31 16 + 63) / 64 * 64) ∧
          (e = none → t = { s with tel := t.tel, out := t.out, weft := t.weft }) ∧
          t = { s with tel := t.tel, out := t.out, weft := t.weft, stp := t.stp })) ∧
      (d.type = 4 → s.stp.inStep = false → s.stp.desc = none → (∀ h ∈ s.reel.hanks, h.agreed = true) → ∀ e,
        (s.reel.initialised = false ∨ s.stp.stepIndex < s.reel.leafStep) → firstStatus (ckptFields d) = none → s.warp.state = .loaded →
        (s.nep.seed = none ∨ s.reel.initialised = false ∨ s.flash.sealKeys = [] → exec (.ckptSave e) s = .next (refuseHead 0 0x12 0 s)) ∧
        (∀ x ok, readShards e s = (x, ok) → s.nep.seed.isSome = true → s.reel.initialised = true → s.flash.sealKeys ≠ [] →
          (ok = false → exec (.ckptSave e) s = .next (refuseHead 0 0x12 0 x)) ∧
          (∀ im, ok = true → x.warp.image = some im → x.flash.sealKeys ≠ [] →
            ∃ key t, key ∈ x.flash.sealKeys ∧ t = { x with freeCtr := t.freeCtr } ∧
              (nat64 d.words 4 < (checkpoint t im key).length →
                exec (.ckptSave e) s = .next (refuseHead 0 0x13 (checkpoint t im key).length t)) ∧
              ((checkpoint t im key).length ≤ nat64 d.words 4 → ∃ u, exec (.ckptSave e) s = .next u ∧ u.ply.ckptOp = 1 ∧
                u.ply.ckptAccepted = true ∧ (x.queue 0 = s.queue 0 → (u.queue 0).fetched = ds) ∧
                u = { x with tel := u.tel, out := u.out, weft := u.weft, ply := u.ply, freeCtr := u.freeCtr })))) ∧
      (∀ buf p im, d.type = 5 → s.warp.image = some im →
        (∀ st det, firstStatus (restoreChecks s p d) = some (st, det) → exec (.ckptRestore buf p) s = .next (refuseHead 0 st det s)) ∧
        (firstStatus (restoreChecks s p d) = none →
          (∀ c, restoreCause s im (fit (nat64 d.words 4) buf) = some c → ∃ t, exec (.ckptRestore buf p) s = .next t ∧
            t.ply.ckptOp = 2 ∧ t.ply.ckptAccepted = false ∧ t.ply.ckptCause = c ∧ (t.queue 0).fetched = ds ∧
            t = { s with tel := t.tel, out := t.out, weft := t.weft, ply := t.ply }) ∧
          (∀ b, restoreCause s im (fit (nat64 d.words 4) buf) = none → readBundle im (fit (nat64 d.words 4) buf) = some b →
            ∃ t, exec (.ckptRestore buf p) s = .next t ∧ t.ply.ckptOp = 2 ∧ t.ply.ckptAccepted = true ∧ t.nep.seed = unsealed s b.job ∧
              t.stp.stepIndex = b.job.index 3 ∧ t.stp.batch = b.job.index 5 ∧ t.stp.nextSettled = true ∧ t.stp.nextReason = 3 ∧
              t.reel.initialised = true ∧ t.acc = s.acc ∧ t.spool = s.spool ∧ t.flash = s.flash)))) ∧
    ((s.queue 1).fetched = d :: ds → (s.queue 1).st = .enabled → unitsRun s = true → (s.queue 1).running = none → ∀ u e,
      u = (s.onQueue 1 fun y => { y with fetched := ds, running := some d, moved := 0 }) →
      (∀ data p, wholeLinesLong data.length = true → d.type = 0x10 →
        (∀ st det, firstStatus (copyChecks s d true p) = some (st, det) → exec (.copyIn data p e) s = .next (refuseHead 1 st det s)) ∧
        (firstStatus (copyChecks s d true p) = none → exec (.copyIn data p e) s = exec (.copyIn data p e) u)) ∧
      (∀ n, wholeLinesLong n = true → d.type = 0x11 →
        (∀ st det, firstStatus (copyChecks s d false false) = some (st, det) → exec (.copyOut n e) s = .next (refuseHead 1 st det s)) ∧
        (firstStatus (copyChecks s d false false) = none → exec (.copyOut n e) s = exec (.copyOut n e) u))) ∧
    (∀ m, (s.queue 1).running = some d → (s.queue 1).st = .enabled → unitsRun s = true → (s.queue 1).moved = m →
      (∀ data bs, wholeLinesLong data.length = true → d.type = 0x10 → bs = data.take (copyBytes d - m) →
        ∃ t, exec (.copyIn data false none) s = .next t ∧
          t.skein = writePlaces (windowRange (nat64 d.words 4 + m) bs.length) bs s.skein ∧
          (m + bs.length < copyBytes d → (t.queue 1).running = some d ∧ (t.queue 1).moved = m + bs.length) ∧
          (copyBytes d ≤ m + bs.length → (t.queue 1).running = none) ∧ (t.queue 1).fetched = (s.queue 1).fetched ∧
          t = { s with tel := t.tel, out := t.out, weft := t.weft, skein := t.skein, skn := t.skn }) ∧
      (∀ data e, wholeLinesLong data.length = true → d.type = 0x10 → ∃ t, exec (.copyIn data true e) s = .next t ∧
        (t.queue 1).running = none ∧ t = { s with tel := t.tel, out := t.out, weft := t.weft }) ∧
      (∀ b n e x data, wholeLinesLong b = true → d.type = 0x11 → n = min b (copyBytes d - m) →
        windowTake e (nat64 d.words 4 + m) n s = (x, data) → x.queue 1 = s.queue 1 → ∃ t, exec (.copyOut b e) s = .next t ∧
        (∀ bs, data = some bs → ⟨nat64 d.words 2 + m, bs⟩ ∈ t.tel.hostWrites) ∧
        (m + n < copyBytes d → (t.queue 1).running = some d ∧ (t.queue 1).moved = m + n) ∧
        (copyBytes d ≤ m + n → (t.queue 1).running = none) ∧ t = { x with tel := t.tel, out := t.out, weft := t.weft })) ∧
    (guarded s (nat64 d.words 4) (copyBytes d) = true → ∃ st det, firstStatus (copyChecks s d true false) = some (st, det) ∧ st ≤ 0x14)

/-- When READY: LOAD and UNLOAD while a step or a load runs set BUSY_REJECT and nothing else. LOAD otherwise latches place
and length, takes the snapshot of keys, quarantine and cap, and enters VERIFY; with CONTINUE outside HALTED it is refused
with 0x5182. UNLOAD of a LOADED or HALTED device leaves it EMPTY without image and seed and keeps the skein and the shards;
in EMPTY or REFUSED it sets BUSY_REJECT. A stage stops at the first place where a rule fails, with a code that holds there
(which of several is a free choice, log entry 47); the image stays and the loader stands as R64 says. A stage that passes
goes on to the next. Feasibility stores the issue fraction and the worst case, its low 32 bits (log entry 130), and refuses
one above the deadline. Distribute accepts: the image is the loaded one, with code 0, its hashes and its deadline; a
replacement starts from its initial E, a continuation keeps E and the device stays HALTED. A START that came while the load
ran from HALTED takes effect when the load ends (log entry 180). A stage that is late is refused with 0x51FF. Outside its
stage a row changes nothing. -/
def Obligations.LoaderRows : Prop :=
  ∀ s : State,
    (isReady s = true →
      (∀ c, loaderBusy s = true →
        exec (.load c) s = .next { s with warp := { s.warp with cont := c, busyReject := true } } ∧
        exec (.unload c) s = .next { s with warp := { s.warp with cont := c, busyReject := true } }) ∧
      (loaderBusy s = false →
        (∀ c, c = false ∨ s.warp.state = .halted → exec (.load c) s =
          .next { s with warp := { s.warp with
            cont := c, began := s.warp.state, loadCont := c, latSrc := pairAddr s.warp.srcLo s.warp.srcHi
            latLength := s.warp.length.toNat, loadTick := s.clk.refTimer, snap := takeSnap s, state := .verify } }) ∧
        (s.warp.state ≠ .halted → ∃ t, exec (.load true) s = .next t ∧ t.warp.refusal = 0x5182 ∧ t.warp.image = s.warp.image ∧
          t.warp.state = (if s.warp.state = .empty ∨ s.warp.state = .refused then .refused else s.warp.state) ∧
          t = { s with warp := t.warp, tel := t.tel }) ∧
        (∀ c, s.warp.state = .loaded ∨ s.warp.state = .halted → ∃ t, exec (.unload c) s = .next t ∧ t.warp.state = .empty ∧
          t.warp.image = none ∧ t.nep.seed = none ∧ t.stp.batch = 0 ∧ t.stp.stepIndex = 0 ∧ t.job = JobBlk.reset ∧
          t.reel.shards = s.reel.shards ∧ t.mems = s.mems ∧ t.flash = s.flash) ∧
        (∀ c, s.warp.state = .empty ∨ s.warp.state = .refused →
          exec (.unload c) s = .next { s with warp := { s.warp with cont := c, busyReject := true } }))) ∧
    (∀ p code sect ent (u : State), u.warp.state ≠ .distribute →
      (refuseLoad code sect ent u).warp.refusal = BitVec.ofNat 16 code ∧
      (refuseLoad code sect ent u).warp.detail = w32 (sect * 2 ^ 24 + ent) ∧
      (u.warp.began ≠ .halted ∨ u.job.resumed = false ∨ u.warp.dist = false →
        (refuseLoad code sect ent u).warp.state = (if u.warp.began = .empty ∨ u.warp.began = .refused then .refused else u.warp.began) ∧
        (refuseLoad code sect ent u).job = u.job) ∧
      (u.warp.began = .halted → u.job.resumed = true → u.warp.dist = true →
        (refuseLoad code sect ent u).warp.state = .loaded ∧ (refuseLoad code sect ent u).job = { u.job with resumed := false }) ∧
      (refuseLoad code sect ent u).warp.image = u.warp.image ∧
        (∃ w k b, refuseLoad code sect ent u = { u with warp := w, tel := k, job := b }) ∧
      (p.codes ≠ [] → ∃ c v, c ∈ p.codes ∧ v = { u with freeCtr := v.freeCtr } ∧ refuseAt p u = refuseLoad c p.sect p.ent v)) ∧
    (s.warp.state = .verify → ∀ ps, ps = (⟨0xFF, noEntry, codeIf (sourceBad s.warp) 0x5104⟩ : RulePlace) ::
        (verifyPlaces s.warp.latLength (stagedBytes s) ++ signaturePlaces s.warp.snap (stagedBytes s) ++
          versionPlaces s.flash.floorWarp Config.stepping.toNat (stagedBytes s)) → ∃ u, u = { s with tel := u.tel } ∧
      (∀ p, firstPlace ps = some p → exec .verify s = .next (refuseAt p u)) ∧
      (firstPlace ps = none → exec .verify s = .next { u with warp := { s.warp with state := .validate, pendingBytes := stagedBytes s } })) ∧
    (s.warp.state = .validate → ∀ ps, ps = validatePlaces ⟨s.warp.snap.quarantine, if s.warp.loadCont then s.warp.image else none⟩
        (readImage s.warp.pendingBytes) →
      (∀ p, firstPlace ps = some p → exec .validate s = .next (refuseAt p s)) ∧
      (firstPlace ps = none → exec .validate s =
        .next { s with warp := { s.warp with state := .feasibility, pending := some (readImage s.warp.pendingBytes) } })) ∧
    (s.warp.state = .feasibility → ∀ im, s.warp.pending = some im →
      (∀ p, firstPlace (feasibilityPlaces s im) = some p → exec .feasibility s = .next (refuseAt p s)) ∧
      (firstPlace (feasibilityPlaces s im) = none → ∀ f16 us, f16 = issueFraction im.deadline.minCap (powerOf s im).1 (powerOf s im).2 →
        us = worstUs im.deadline f16 →
        (im.deadline.us < us → exec .feasibility s = .next (refuseLoad 0x5194 (indexOfType im 0x15) noEntry
          { s with warp := { s.warp with fraction := w32 f16, worstUs := w32 us } })) ∧
        (us ≤ im.deadline.us → ∃ t, exec .feasibility s = .next t ∧ t.warp.state = .distribute ∧ t.warp.fraction = w32 f16 ∧
          t.warp.worstUs = w32 us ∧ t.flash = s.flash ∧ t.mems = s.mems ∧ t.reel.shards = s.reel.shards))) ∧
    (s.warp.state = .distribute → ∀ im, s.warp.pending = some im → ∃ t, exec .distribute s = .next t ∧ t.warp.image = some im ∧
      t.warp.pending = none ∧ t.warp.refusal = 0 ∧ t.warp.imageHash = imageHashOf im.bytes ∧
      t.warp.logicalHash = logicalHashOf im.bytes ∧ t.warp.deadlineUs = w32 im.deadline.us ∧ t.flash = s.flash ∧
      (isManager { s with warp := { s.warp with image := some im } } = false → t.warp.dist = true ∧
        t.warp.templates = Config.templates im.bytes ∧
        t.warp.state = (if s.warp.loadCont && !s.job.resumed then .halted else .loaded) ∧ t.mems = (s.putSkein loaderRegion im.bytes).mems) ∧
      (s.warp.loadCont = false → t.num.e = im.numeric.initE ∧ t.num.clean = 0) ∧
      (s.warp.loadCont = true → t.num.e = s.num.e ∧ t.num.clean = s.num.clean)) ∧
    (loadRunning s = true → exec .loaderTimeout s = .next (refuseLoad 0x51FF 0xFF noEntry s)) ∧
    (loadRunning s = false → exec .verify s = .next s ∧ exec .validate s = .next s ∧ exec .feasibility s = .next s ∧
      exec .distribute s = .next s ∧ exec .loaderTimeout s = .next s)

/-- While the module is on, a module reset holds it in reset with cause 1 for the next boot, a watchdog expiry with cause 5,
an input loss turns it off with cause 2, an overvoltage with cause 3 and a rail fault with cause 4: every block and memory
returns to reset, and module flash, the flash event ring, the queue and the count of boots stay. Time zero with four die
straps reports that cause, counts one boot more and begins with the rails. SPI_EXT_EN_N connects the external path only in
module reset; otherwise the path stays as it is and event 0x6006 is raised once the distaff runs. -/
def Obligations.ResetRows : Prop :=
  ∀ s : State,
    (∀ (c : Instr) b n, (c, b, n) ∈ ([(.moduleReset, .held, 1), (.watchdogExpiry, .held, 5), (.inputLoss, .off, 2), (.overvoltage, .off, 3),
        (.railFault, .off, 4)] : List (Instr × Bring × Nat)) → s.mod.bring ≠ .off → (c = .watchdogExpiry → distaffRuns s = true) →
      (c = .railFault → s.mod.bring = .rails) → ∃ t, exec c s = .next t ∧ t.mod.bring = b ∧ t.mod.input.nextCause = n ∧
        t.mod.input.boots = s.mod.input.boots ∧ t.flash = s.flash ∧ t.pending = s.pending ∧ (∀ p, (t.port p).st = .deaf) ∧
        t.warp = State.reset.warp ∧ t.stp = StpBlk.reset ∧ t.trd = State.reset.trd ∧ t.sec = SecBlk.reset ∧ t.spdm = State.reset.spdm ∧
        t.nep = NepBlk.reset ∧ t.mems = State.reset.mems ∧ t.hub = State.reset.hub ∧ t.weft = WeftBlk.reset ∧ t.i3c = State.reset.i3c ∧
        t.mod.recovery = false ∧ (n = 1 → t.mod.resetAsserted = true) ∧ (s.hub.linkUp = false → t.tel.flash = s.tel.flash)) ∧
    (∀ (straps : List (Fin 4)) slot, straps.length = 4 →
      (s.mod.bring = .held ∨ s.mod.bring = .off → ∃ t, exec (.bringupStart straps slot) s = .next t ∧ t = { s with mod := t.mod } ∧
        t.mod.bring = .rails ∧ t.mod.input.cause = s.mod.input.nextCause ∧ t.mod.input.boots = min 0xFFFF (s.mod.input.boots + 1) ∧
        t.mod.dieStraps = straps ∧ t.mod.slot = slot ∧ t.mod.zeroTick = s.clk.refTimer ∧ t.mod.resetAsserted = false ∧
        t.mod.spiExternal = false) ∧
      (s.mod.bring ≠ .held → s.mod.bring ≠ .off → exec (.bringupStart straps slot) s = .next s)) ∧
    (s.mod.resetAsserted = true → exec .spiExternalEnable s = .next { s with mod := { s.mod with spiExternal := true } }) ∧
    (s.mod.resetAsserted = false → distaffRuns s = true → exec .spiExternalEnable s = .next (raise 0x6006 [] s)) ∧
    (s.mod.resetAsserted = false → distaffRuns s = false →
      exec .spiExternalEnable s = .next { s with mod := { s.mod with spiIgnoredEarly := true } })

/-- Each boot stage is tried once the stage before it runs, outside recovery: the slot last activated first, then the other.
Where the first slot verifies, its digest and security version are measured and the stage runs, the skein base once each of
the 8 stacks has verified it; distaff firmware without its PUF secret, or a stage whose slots both fail, leaves the module
in recovery; no floor falls or rises. A late stage is recovery as well. ATTEST_READY comes once identity, every stage and
the map are good and a test digest is signed and verified with both keys, and only then rise the firmware floors, each to
the version that runs. After ATTEST_READY, trained channels train every stack and start the self-test; failed training
raises event 0x2407 and holds READY back. The self-test, with no emergency cap asserted: a failing core is added to the
quarantine map, and none leaves it; a failed signature test or an unread map withholds READY; else the module is READY and
no port is deaf any more. Under the emergency cap it has not begun. A unit not tested in time has failed. Otherwise these
commands change nothing. -/
def Obligations.BringupRows : Prop :=
  ∀ s : State,
    (∀ (st : BootStage) k (ok : Bool), (st, s.mod.bring) ∈ ([(.distaff, .rails), (.flyer, .distaff), (.skeinBase,
      .flyer)] : List (BootStage × Bring)) →
      s.mod.recovery = false → (st = .skeinBase → (s.stack k).firmwareOk = false) →
      ∀ a b, a = (if (s.flash.slots st).staged then !(s.flash.slots st).bootedB else (s.flash.slots st).activeB) → b = !a →
      ((fwVerify s st ((s.flash.slots st).get a)).2 = true → (st = .distaff → ok = true ∧ s.flash.pufHelper = Config.pufHelper) →
        ∃ t, exec (.bootStageVerified st k ok) s = .next t ∧ t.mod.recovery = false ∧
        t.flash.floorDistaff = s.flash.floorDistaff ∧ t.flash.floorFlyer = s.flash.floorFlyer ∧ t.flash.floorSkein = s.flash.floorSkein ∧
        t.flash.floorWarp = s.flash.floorWarp ∧ t.mems = s.mems ∧
        (st = .skeinBase → (t.stack k).firmwareOk = true ∧ ∀ j, j ≠ k → t.stack j = s.stack j) ∧
        (st = .skeinBase → (∃ j, j ≠ k ∧ (s.stack j).firmwareOk = false) → t.mod.bring = .flyer ∧ t.sec = s.sec) ∧
        (st = .skeinBase → (∀ j, j ≠ k → (s.stack j).firmwareOk = true) →
          t.mod.bring = .skeinBase ∧ t.sec.bootStage = 3 ∧ t.sec.measSkein = sha512 (signedRegion ((s.flash.slots st).get a)) ∧
          t.sec.verSkein = (imageWord ((s.flash.slots st).get a) 3).toNat) ∧
        (st = .distaff → t.mod.bring = .distaff ∧ t.sec.bootStage = 1 ∧
          t.sec.measDistaff = sha512 (signedRegion ((s.flash.slots st).get a)) ∧
          t.sec.verDistaff = (imageWord ((s.flash.slots st).get a) 3).toNat ∧ t.i3c.enabled = true) ∧
        (st = .flyer → t.mod.bring = .flyer ∧ t.mod.sgmii = true ∧ t.sec.bootStage = 2 ∧
          t.sec.measFlyer = sha512 (signedRegion ((s.flash.slots st).get a)) ∧
          t.sec.verFlyer = (imageWord ((s.flash.slots st).get a) 3).toNat)) ∧
      ((fwVerify s st ((s.flash.slots st).get a)).2 = true → st = .distaff → ok = false ∨ s.flash.pufHelper ≠ Config.pufHelper →
        ∃ t, exec (.bootStageVerified st k ok) s = .next t ∧ t.mod.recovery = true ∧ t.mod.bring = .rails ∧ t.sec.bootStage = 0xF) ∧
      ((fwVerify s st ((s.flash.slots st).get a)).2 = false → (fwVerify s st ((s.flash.slots st).get b)).2 = false →
        ∃ t, exec (.bootStageVerified st k ok) s = .next t ∧ t.mod = { s.mod with recovery := true } ∧ t.sec.bootStage = 0xF ∧
          t.sec.slotFallback = true ∧ t = { s with mod := t.mod, sec := t.sec, tel := t.tel, flash := t.flash })) ∧
    (∀ st k ok, s.mod.recovery = true ∨ (st = .skeinBase ∧ s.mod.bring = .flyer ∧ (s.stack k).firmwareOk = true) →
      exec (.bootStageVerified st k ok) s = .next s) ∧
    (s.mod.bring = .rails ∨ s.mod.bring = .distaff ∨ s.mod.bring = .flyer → s.mod.recovery = false → ∃ t, exec .bootStageTimeout s = .next t ∧
      t.mod = { s.mod with recovery := true } ∧ t.sec = { s.sec with bootStage := 0xF } ∧
        t = { s with mod := t.mod, sec := t.sec, tel := t.tel }) ∧
    (s.sec.identityOk = true → s.sec.bootStage = 3 → s.sec.mapOk = true → s.sec.attestReady = false → s.mod.signFault = false →
      (∃ t, exec (.attestationReady true true) s = .next t ∧ t.sec = { s.sec with attestReady := true, bootStage := 4 } ∧
        t.flash = { s.flash with floorDistaff := max s.flash.floorDistaff s.sec.verDistaff, floorFlyer := max s.flash.floorFlyer s.sec.verFlyer
                                 floorSkein := max s.flash.floorSkein s.sec.verSkein
                                 rpCounter := t.flash.rpCounter, rpTag := t.flash.rpTag } ∧ s.flash.rpCounter ≤ t.flash.rpCounter ∧
        t = { s with mod := t.mod, sec := t.sec, tel := t.tel, flash := t.flash }) ∧
      (∀ e m, (e && m) = false → exec (.attestationReady e m) s = .next (countSigFail (testFails e m) s))) ∧
    (∀ e m, s.sec.attestReady = true ∨ s.sec.mapOk = false → exec (.attestationReady e m) s = .next s) ∧
    (s.mod.bring = .skeinBase → s.sec.attestReady = true → ∃ t, exec .skeinTrained s = .next t ∧ t.mod.bring = .selfTest ∧
      (∀ k, (t.stack k).trained = true) ∧ t = { s with mod := { s.mod with bring := .selfTest }, skn := t.skn }) ∧
    (s.mod.bring ≠ .skeinBase ∨ s.sec.attestReady = false → exec .skeinTrained s = .next s) ∧
    (∀ k ch, s.mod.bring = .skeinBase ∨ s.mod.bring = .noSkein → exec (.skeinTrainingFailed k ch) s =
      .next (raise 0x2407 [k.val, ch.toNat] { s with mod := { s.mod with bring := .noSkein, trainFault := true } })) ∧
    (∀ failed e m ok, s.mod.bring = .selfTest → s.trd.em.any = false → ok = (e && m) → ∃ t, exec (.bringupComplete failed e m) s = .next t ∧
      (∀ c, CardUnit.core c ∈ failed → quarantined t c.val = true) ∧ (∀ c : CoreIx, quarantined s c.val = true → quarantined t c.val = true) ∧
      (ok = false → t.mod.bring = .selfTest ∧ t.mod.signFault = true ∧ t.sec.attestReady = false) ∧
      (ok = true → s.sec.mapOk = false → t.mod.bring = .selfTest) ∧
      (ok = true → s.sec.mapOk = true → t.mod.bring = .ready ∧ ∀ p, (t.port p).st ≠ .deaf) ∧
      t = { s with mod := t.mod, sec := t.sec, tel := t.tel, flash := t.flash, rov := t.rov, ply := t.ply }) ∧
    (∀ failed e m, s.mod.bring = .selfTest → s.trd.em.any = true → exec (.bringupComplete failed e m) s = .next s) ∧
    (∀ units, s.mod.bring = .selfTest → s.trd.em.any = false → ∃ t, exec (.selfTestTimeout units) s = .next t ∧ t.mod.bring = .selfTest ∧
      (∀ c, CardUnit.core c ∈ units → quarantined t c.val = true) ∧ (∀ c : CoreIx, quarantined s c.val = true → quarantined t c.val = true) ∧
      t = { s with mod := t.mod, tel := t.tel, flash := t.flash, ply := t.ply })

/-- With the distaff running and ATTEST_READY set: a firmware image that verifies goes to the inactive slot of its stage
with event 0x6050, the active slot stays and nothing runs it before the next boot; one that fails is refused with event
0x6051 and writes nothing. In recovery an image is treated the same. A revocation list with both signatures and a sequence
number not below the stored one replaces it; another writes nothing. A voucher with both signatures, this serial and a
higher sequence makes its keys the owner's, empties the key store and keeps the warp floor; another writes nothing. Before
ATTEST_READY none of them writes flash outside recovery. A delivery over Redfish by a client whose certificate does not
chain to the owner's keys, or before the SGMII port runs, does nothing. Then the owner commands, inside a session with an
owner and an envelope that passes its checks: each of the six changes module flash as its row says, advances the command
counter by one, answers status 0 and raises its event; a revoked KEY_ID is not enrolled, a full table takes no new key, a
floor does not fall, and a service authorisation that is not good clears no core. Every refused command answers its cause,
raises event 0x6023 and leaves flash as it was. The inactive slot is the one the stage did not boot from, log entry 159; the
cause codes are the choice of log entry 10. -/
def Obligations.OwnerAndDeliveryRows : Prop :=
  ∀ s : State,
    (∀ img st via, admitted via s = true → st = imageStage img → s.mod.recovery = true ∨ (distaffRuns s = true ∧ s.sec.attestReady = true) →
      ((fwVerify s st img).2 = true → ∃ t, exec (.firmwareUpdate img via) s = .next t ∧ (t.flash.slots st).staged = true ∧
        (t.flash.slots st).activeB = (s.flash.slots st).activeB ∧
        (t.flash.slots st).bootedB = (s.flash.slots st).bootedB ∧ (t.flash.slots st).get (!(s.flash.slots st).bootedB) = img ∧
        (t.flash.slots st).get (s.flash.slots st).bootedB = (s.flash.slots st).get (s.flash.slots st).bootedB ∧
        t = { s with tel := t.tel, flash := t.flash } ∧ t.flash.floorWarp = s.flash.floorWarp) ∧
      ((fwVerify s st img).2 = false →
        exec (.firmwareUpdate img via) s = .next (raise 0x6051 [stageNo st] (countSigFail (fwVerify s st img).1 s)))) ∧
    (∀ via, admitted via s = false → (∀ img, exec (.firmwareUpdate img via) s = .next s) ∧
      ∀ l n names, exec (.revocationList l n names via) s = .next s) ∧
    (∀ (l : Signed) (n : BitVec 32) names via k, admitted via s = true → k = sigFails (rootKeys s) "DVK-RVK"
        (Config.signedBytes 1 (leBytes 4 n.toNat :: names.map fun i => leBytes 4 i.toNat)) l.edSig l.mlSig →
      distaffRuns s = true → s.sec.attestReady = true →
      (k = 0 → s.flash.rvkSeq ≤ n.toNat → exec (.revocationList l n names via) s =
        .next { s with flash := { s.flash with rvkSeq := n.toNat, rvkNames := names } }) ∧
      (k ≠ 0 ∨ n.toNat < s.flash.rvkSeq → exec (.revocationList l n names via) s = .next (countSigFail k s))) ∧
    (∀ (v : Signed) (ser : BitVec 64) (n : BitVec 32) ed ml k, k = sigFails (rootKeys s) "DVK-VOUCH"
        (Config.signedBytes 2 [leBytes 8 ser.toNat, leBytes 4 n.toNat, ed, ml]) v.edSig v.mlSig →
      distaffRuns s = true → s.sec.attestReady = true →
      (k = 0 → ser.toNat = moduleSerial → (∀ o, s.flash.owner = some o → o.sequence < n.toNat) →
        exec (.ownershipVoucher v ser n ed ml) s = .next { s with flash := SecFlash.putStore { s.flash with
          owner := some ⟨ed, ml, n.toNat⟩, warpKeys := [], revokedKeys := [], sealKeys := [] } }) ∧
      (k ≠ 0 ∨ ser.toNat ≠ moduleSerial ∨ (∃ o, s.flash.owner = some o ∧ n.toNat ≤ o.sequence) →
        exec (.ownershipVoucher v ser n ed ml) s = .next (countSigFail k s))) ∧
    (distaffRuns s = true → s.sec.attestReady = false →
      (∀ l n names, ∀ via, admitted via s = true → exec (.revocationList l n names via) s = .next (reply .notReady s)) ∧
      (∀ v ser n ed ml, exec (.ownershipVoucher v ser n ed ml) s = .next (reply .notReady s)) ∧
      (s.mod.recovery = false → ∀ img via, admitted via s = true → exec (.firmwareUpdate img via) s = .next (reply .notReady s))) ∧
    (∀ f : SecFlash, f.protect = { f with rpCounter := f.rpCounter + 1, rpTag := f.protect.rpTag } ∧
      f.putStore = { f with storeGen := f.storeGen + 1, storeRec := f.putStore.storeRec
                            rpCounter := f.rpCounter + 1, rpTag := f.putStore.rpTag }) ∧
    (∀ k (u : State), countSigFail k u = { u with tel := (countSigFail k u).tel }) ∧
    (∀ (e : OwnerEnv) (f1 : SecFlash), f1 = SecFlash.protect { s.flash with cmdCounter := s.flash.cmdCounter + 1 } → distaffRuns s = true →
      s.sec.attestReady = true → s.spdm.session = true →
    (∀ (id : BitVec 32) ed ml, ownerCause 1 e [leBytes 4 id.toNat, ed, ml] s = 0 →
      (s.flash.revokedKeys.contains id = true → ∃ t, exec (.enrolWarpKey e id ed ml) s = .next t ∧ t.flash = s.flash ∧
        t.out.mgmt = .ownerStatus 6 :: s.out.mgmt) ∧
      (s.flash.revokedKeys.contains id = false → (∀ k ∈ s.flash.warpKeys, k.id ≠ id) → 16 ≤ s.flash.liveKeys →
        ∃ t, exec (.enrolWarpKey e id ed ml) s = .next t ∧ t.flash = s.flash ∧ t.out.mgmt = .ownerStatus 4 :: s.out.mgmt) ∧
      (s.flash.revokedKeys.contains id = false → (∃ k ∈ s.flash.warpKeys, k.id = id) ∨ s.flash.liveKeys < 16 →
        ∃ t, exec (.enrolWarpKey e id ed ml) s = .next t ∧ t.out.mgmt = .ownerStatus 0 :: s.out.mgmt ∧
          t.flash = SecFlash.putStore { f1 with
            warpKeys := s.flash.warpKeys.filter (fun k => k.id != id) ++ [⟨id, ed, ml⟩] })) ∧
    (∀ id : BitVec 32, ownerCause 2 e [leBytes 4 id.toNat] s = 0 → ∃ t, exec (.revokeWarpKey e id) s = .next t ∧
      t.out.mgmt = .ownerStatus 0 :: s.out.mgmt ∧
      id ∈ t.flash.revokedKeys ∧ (∀ k ∈ s.flash.revokedKeys, k ∈ t.flash.revokedKeys) ∧
      t.flash = SecFlash.putStore { f1 with revokedKeys := t.flash.revokedKeys }) ∧
    (∀ (id : BitVec 32) (key : BitVec 256), ownerCause 3 e [leBytes 4 id.toNat, leBytes 32 key.toNat] s = 0 →
      ((s.flash.sealKeys.filter fun k => k.1 != id).length < 16 → ∃ t, exec (.enrolSealingKey e id key) s = .next t ∧
        t.out.mgmt = .ownerStatus 0 :: s.out.mgmt ∧
        t.flash = SecFlash.putStore { f1 with sealKeys := s.flash.sealKeys.filter (fun k => k.1 != id) ++ [(id, key)] }) ∧
      (16 ≤ (s.flash.sealKeys.filter fun k => k.1 != id).length → ∃ t, exec (.enrolSealingKey e id key) s = .next t ∧
        t.flash = s.flash ∧ t.out.mgmt = .ownerStatus 4 :: s.out.mgmt)) ∧
    (∀ id : BitVec 32, ownerCause 4 e [leBytes 4 id.toNat] s = 0 → ∃ t, exec (.revokeSealingKey e id) s = .next t ∧
      t.out.mgmt = .ownerStatus 0 :: s.out.mgmt ∧
      t.flash = SecFlash.putStore { f1 with sealKeys := s.flash.sealKeys.filter (fun k => k.1 != id) }) ∧
    (∀ f : BitVec 32, ownerCause 5 e [leBytes 4 f.toNat] s = 0 →
      (s.flash.floorWarp ≤ f.toNat → ∃ t, exec (.raiseWarpFloor e f) s = .next t ∧ t.out.mgmt = .ownerStatus 0 :: s.out.mgmt ∧
        t.flash = SecFlash.protect { f1 with floorWarp := f.toNat }) ∧
      (f.toNat < s.flash.floorWarp → ∃ t, exec (.raiseWarpFloor e f) s = .next t ∧ t.flash = s.flash ∧
        t.out.mgmt = .ownerStatus 6 :: s.out.mgmt)) ∧
    (∀ (a : Signed) ser gen cores, ownerCause 6 e [serviceRegion ser gen cores, leBytes 4 a.signer.toNat, a.edSig, a.mlSig] s = 0 →
      (serviceOk a ser gen cores s = true → ∃ t, exec (.applyServiceAuth e a ser gen cores) s = .next t ∧
        t.out.mgmt = .ownerStatus 0 :: s.out.mgmt ∧ t.flash.mapGen = s.flash.mapGen + 1 ∧ t.flash.cmdCounter = s.flash.cmdCounter + 1 ∧
        (∀ c : CoreIx, quarantined t c.val = (quarantined s c.val && !cores.contains c))) ∧
      (serviceOk a ser gen cores s = false → ∃ t, exec (.applyServiceAuth e a ser gen cores) s = .next t ∧ t.flash = s.flash ∧
        t.out.mgmt = .ownerStatus 6 :: s.out.mgmt)) ∧
    (∀ (c : Instr) n v, (c, n, v) ∈ ([(.revokeWarpKey e 0, 2, [leBytes 4 0]), (.revokeSealingKey e 0, 4, [leBytes 4 0]),
      (.raiseWarpFloor e 0, 5, [leBytes 4 0])] :
        List (Instr × Nat × List (List Byte))) →
      ownerCause n e v s ≠ 0 → ∃ t, exec c s = .next t ∧ t.out.mgmt = .ownerStatus (ownerCause n e v s) :: s.out.mgmt ∧
        t = { s with tel := t.tel, out := t.out, spdm := t.spdm }))

/-- With the distaff running, or in recovery, each request is answered: version starts the negotiation again, capabilities
follow it, algorithms follow those; digests and certificates of slot 0 follow the algorithms and come before ATTEST_READY as
well. Challenge, measurements, key exchange, the post-quantum certificate and the quarantine map wait for ATTEST_READY;
until then they are answered not ready and change nothing but the answer. A key exchange opens a handshake, FINISH with
right data opens the session and ends the handshake, END_SESSION and 60 s of silence close it. GET_REPORT answers a report
of the nonce with event 0x6010, or is refused with event 0x6011. SEC_REPORT_CTRL takes the report for its 64-byte aligned
address, and a tick of the reference timer writes it there and sets DONE; with a report in progress, before ATTEST_READY or
at a misaligned address it sets REFUSED. -/
def Obligations.SpdmRows : Prop :=
  ∀ s : State,
    (distaffRuns s = true ∨ s.mod.recovery = true →
      exec .getVersion s = .next (reply .version { s with spdm := { s.spdm with version := true, capabilities := false, algorithms := false, handshake := false } }) ∧
      (s.spdm.version = true → exec .getCapabilities s = .next (reply (.capabilities 21) { s with spdm := { s.spdm with capabilities := true } })) ∧
      (s.spdm.capabilities = true → exec .negotiateAlgorithms s = .next (reply (.algorithms "EdDSA Ed25519" "SHA-512" "ECDHE secp384r1" "AES-256-GCM") { s with spdm := { s.spdm with algorithms := true } })) ∧
      (s.spdm.version = false → exec .getCapabilities s = .next (reply .unsupported s)) ∧
      (s.spdm.capabilities = false → exec .negotiateAlgorithms s = .next (reply .unsupported s)) ∧
      (s.spdm.algorithms = true → exec .getDigests s = .next (reply (.digests (sha512 s.flash.edChain)) s) ∧
        (∀ o n, exec (.getCertificate 0 o n) s = .next (reply (.certificate (slice s.flash.edChain o n)) s)) ∧
        (∀ k o n, k ≠ 0 → exec (.getCertificate k o n) s = .next (reply .unsupported s))) ∧
      (s.sec.attestReady = false →
        (∀ c ∈ [Instr.endSession, .heartbeat, .getQuarantineMap, .keyExchange [], .finish true, .getPqCert 0 1024,
          .challenge 0 (List.replicate 32 0),
          .getMeasurements 1 (List.replicate 32 0)], exec c s = .next (reply .notReady s)) ∧
        (∀ n : List Byte, n.length = 32 → exec (.getReport n) s = .next (reply .notReady (raise 0x6011 [0] s)))) ∧
      (s.sec.attestReady = true →
        (∀ n : List Byte, n.length = 32 → exec (.getReport n) s = .next (reply (.report (report n s)) (raise 0x6010 [0,
          s.sec.pairStep] (count 48 0x6000D8 1 s)))) ∧
        exec .getQuarantineMap s = .next (reply (.quarantineMap (leBytes 72 s.flash.map.toNat) s.flash.mapGen) s) ∧
        (∀ o n, exec (.getPqCert o n) s = .next (reply (.pqCert (slice s.flash.mlChain o (min 1024 n))) s)) ∧
        (s.spdm.algorithms = true →
          (∀ n : List Byte, n.length = 32 → exec (.challenge 0 n) s =
            .next (reply (.challengeAuth (sha512 s.flash.edChain) (Config.edSign edSeed (Config.spdmSigned 0x83 n))) s) ∧
            ∀ i b, 1 ≤ i → i ≤ 8 → measBlock s i = some b →
              exec (.getMeasurements i n) s = .next (reply (.measurements b (Config.edSign edSeed (Config.spdmSigned 0xE0 (n ++ b)))) s)) ∧
          (∀ x, exec (.keyExchange x) s = .next (reply (.keyExchange (Config.ecdhPublic s.freeCtr)
              (Config.edSign edSeed (Config.spdmSigned 0xE4 (x ++ Config.ecdhPublic s.freeCtr))))
            { s with freeCtr := s.freeCtr + 1, spdm := { s.spdm with handshake := true } }))) ∧
        (s.spdm.handshake = true → ∀ ok, exec (.finish ok) s = .next (reply (.finish ok)
          { s with spdm := { s.spdm with handshake := false, session := s.spdm.session || ok } })) ∧
        (s.spdm.handshake = false → ∀ ok, exec (.finish ok) s = .next (reply .unsupported s)) ∧
        (s.spdm.session = true → exec .heartbeat s = .next (reply .heartbeat s) ∧
          exec .endSession s = .next (reply .endSession { s with spdm := { s.spdm with session := false } })))) ∧
    (s.spdm.session = true → exec .sessionTimeout s = .next { s with spdm := { s.spdm with session := false } }) ∧
    (s.spdm.session = false → exec .sessionTimeout s = .next s) ∧
    (isReady s = true → ∀ v : Word, wbit v 31 = true → wbit v 29 = false →
      (s.sec.attestReady = true → s.sec.reporting = none → s.sec.addrLo.toNat % 64 = 0 → exec (.reportRequest v) s =
        .next { s with sec := { s.sec with
          done := false, reporting := some (pairAddr s.sec.addrLo s.sec.addrHi, report (wordsBytes s.sec.nonce) s) } }) ∧
      (s.sec.attestReady = false ∨ s.sec.reporting.isSome = true ∨ s.sec.addrLo.toNat % 64 ≠ 0 → exec (.reportRequest v) s =
        .next (raise 0x6011 [1] { s with sec := { s.sec with refused := true } }))) ∧
    (∀ a bs, s.sec.reporting = some (a, bs) → reportTick s = raise 0x6010 [1, s.sec.pairStep]
      (count 48 0x6000D8 1 (hostWrite a bs { s with sec := { s.sec with done := true, reporting := none } })))

/-- IDCODE, BYPASS and SAMPLE/PRELOAD are decoded always: they select their instruction and shift out the identification
word, one zero, or the pins, and a preload replaces the boundary register. EXTEST, EXTEST_PULSE, EXTEST_TRAIN, CLAMP and
HIGHZ are decoded only in module reset and are BYPASS otherwise; in module reset EXTEST and CLAMP drive the boundary
register and HIGHZ drives nothing. SETDASA assigns the dynamic address once the target is enabled. An abandoned transfer
changes nothing. Nothing else changes. -/
def Obligations.TestAccessRows : Prop :=
  ∀ s : State,
    (∀ a, (s.i3c.enabled = true → exec (.setdasa a) s = .next { s with i3c := { s.i3c with dynAddr := some a } }) ∧
      (s.i3c.enabled = false → exec (.setdasa a) s = .next s)) ∧
    exec .i3cTransferTimeout s = .next s ∧
    exec .idcode s = .next { s with jtag := { s.jtag with ir := .idcode }, out := { s.out with tdo := (List.range 32).map fun k => wbit idcodeWord k } } ∧
    wbit idcodeWord 0 = true ∧
    (∀ n, exec (.bypass n) s = .next { s with jtag := { s.jtag with ir := .bypass }, out := { s.out with tdo := [false] } }) ∧
    (∀ pins, exec (.samplePreload pins none) s = .next { s with jtag := { s.jtag with ir := .samplePreload }, out := { s.out with tdo := pins } } ∧
      ∀ b, exec (.samplePreload pins (some b)) s = .next { s with jtag := ⟨.samplePreload, b⟩, out := { s.out with tdo := pins } }) ∧
    (s.mod.resetAsserted = false → ∀ c ∈ [Instr.extest, .clamp, .highz, .extestPulse, .extestTrain], exec c s = exec (.bypass 0) s) ∧
    (s.mod.resetAsserted = true →
      (∀ c i, (c, i) ∈ ([(.extest, .extest), (.clamp, .clamp), (.extestPulse, .extestPulse), (.extestTrain,
        .extestTrain)] : List (Instr × TapInstr)) →
        ∃ t, exec c s = .next t ∧ t.jtag = { s.jtag with ir := i } ∧ drivenPins t = some s.jtag.boundary ∧
          t = { s with jtag := t.jtag, out := t.out }) ∧
      ∃ t, exec .highz s = .next t ∧ t.jtag = { s.jtag with ir := .highz } ∧ drivenPins t = none ∧
        t = { s with jtag := t.jtag, out := t.out })

/-- Whatever command runs in whatever state: in the next state each of the four floors is at least what it was; the warp
floor changes by RAISE_WARP_FLOOR alone, and a firmware floor by the attainment of ATTEST_READY alone, to the version that
runs; and a key store with at most 16 warp keys that are not revoked and at most 16 sealing keys stays so. A step keeps all
this, and at reset the key store is empty. That the limit counts the key pairs that are not revoked is the reading of the
model. -/
def Obligations.FlashKeepsItsLimits : Prop :=
  State.reset.flash.withinLimits ∧
  (∀ s t : State, step s = .next t → s.flash.floorsUpTo t.flash ∧ (s.flash.withinLimits → t.flash.withinLimits)) ∧
  ∀ (c : Instr) (s t : State), exec c s = .next t →
    s.flash.floorsUpTo t.flash ∧ (s.flash.withinLimits → t.flash.withinLimits) ∧ ((∀ e f, c ≠ .raiseWarpFloor e f) →
      t.flash.floorWarp = s.flash.floorWarp) ∧
    ((∀ e m, c ≠ .attestationReady e m) → t.flash.floorDistaff = s.flash.floorDistaff ∧ t.flash.floorFlyer = s.flash.floorFlyer ∧
      t.flash.floorSkein = s.flash.floorSkein) ∧
    ((∃ e m, c = .attestationReady e m) → (t.flash.floorDistaff = s.flash.floorDistaff ∨ t.flash.floorDistaff = s.sec.verDistaff) ∧
      (t.flash.floorFlyer = s.flash.floorFlyer ∨ t.flash.floorFlyer = s.sec.verFlyer) ∧
      (t.flash.floorSkein = s.flash.floorSkein ∨ t.flash.floorSkein = s.sec.verSkein))

/-- A chunk with no nonzero product has the value +0, and so has a chunk whose shifted products sum to zero at its maximum
leading exponent m. A finite x plus its negation is +0 in either order, (-0) + (-0) is -0, and +0 with -0 is +0 in either
order. -/
def Obligations.ZeroSums : Prop :=
  (∀ ps : List FVal, (∀ p ∈ ps, ∃ n e, p = .fin n 0 e) → chunkSum ps = .fin false 0 0) ∧
    (∀ (ps : List FVal) (m : Int), (∃ p ∈ ps, leading p = some m) → (∀ p ∈ ps, ∀ l, leading p = some l → l ≤ m) →
      (ps.map (aligned m)).sum = 0 → chunkSum ps = .fin false 0 0) ∧
    (∀ x y : Word, (dec32 x).isFin = true → y.toNat = x.toNat + 2 ^ 31 → (fadd x y).bits = 0 ∧ (fadd y x).bits = 0) ∧
    (fadd 0x80000000 0x80000000).bits = 0x80000000 ∧ (fadd 0 0x80000000).bits = 0 ∧ (fadd 0x80000000 0).bits = 0
end

