-- ==== Sys2Proof/Laws/Mem.lean ====
section
/-! SUPPORT. Byte memories: every write keeps the canonical form, and a read after a write gives what was written there and what was
there before everywhere else. -/

namespace Sys2Proof.Machine

theorem Memory.wfAbove_mono {m : Memory} {a b : Nat} (h : b ≤ a) (w : wfAbove a m = true) : wfAbove b m = true := by
  cases m with
  | nil => rfl
  | cons c cs =>
    simp only [wfAbove, Bool.and_eq_true, decide_eq_true_eq] at w ⊢
    exact ⟨⟨le_trans h w.1.1, w.1.2⟩, w.2⟩

/-- Every cell of a memory in canonical form above `a` lies at or above `a` and differs from the unwritten byte. -/
theorem Memory.wfAbove_mem {m : Memory} : ∀ {a : Nat}, wfAbove a m = true → ∀ c ∈ m, a ≤ c.1 ∧ c.2 ≠ unwritten := by
  induction m with
  | nil => intro a _ c hc; cases hc
  | cons d ds ih =>
    intro a w c hc
    simp only [wfAbove, Bool.and_eq_true, decide_eq_true_eq] at w
    rcases List.mem_cons.1 hc with rfl | hc
    · exact w.1
    · have := ih w.2 c hc
      exact ⟨by omega, this.2⟩

theorem Memory.wfAbove_filter (p : Host.Cell → Bool) : ∀ {m : Memory} {a : Nat}, wfAbove a m = true → wfAbove a (m.filter p) = true := by
  intro m
  induction m with
  | nil => intro a _; rfl
  | cons c cs ih =>
    intro a w
    simp only [wfAbove, Bool.and_eq_true, decide_eq_true_eq] at w
    by_cases hp : p c = true
    · simp only [List.filter_cons_of_pos hp, wfAbove, Bool.and_eq_true, decide_eq_true_eq]
      exact ⟨w.1, ih w.2⟩
    · rw [List.filter_cons_of_neg hp]
      exact wfAbove_mono (by omega) (ih w.2)

/-- Two parts, the first wholly below `b` and the second from `b` on, make one memory in canonical form. -/
theorem Memory.wfAbove_append : ∀ {m n : Memory} {a b : Nat}, a ≤ b → wfAbove a m = true → (∀ c ∈ m, c.1 < b) → wfAbove b n = true →
    wfAbove a (m ++ n) = true := by
  intro m
  induction m with
  | nil => intro n a b h _ _ w; exact wfAbove_mono h w
  | cons c cs ih =>
    intro n a b _ w hb wn
    simp only [wfAbove, Bool.and_eq_true, decide_eq_true_eq, List.cons_append] at w ⊢
    have hc := hb c (List.mem_cons_self ..)
    exact ⟨w.1, ih (by omega) w.2 (fun d hd => hb d (List.mem_cons_of_mem _ hd)) wn⟩

theorem Memory.cells_wf : ∀ (bs : List Byte) (a : Nat), wfAbove a (cells bs a) = true := by
  intro bs
  induction bs with
  | nil => intro a; rfl
  | cons b bs ih =>
    intro a
    by_cases h : b = unwritten
    · simp only [cells, if_pos h]; exact wfAbove_mono (by omega) (ih (a + 1))
    · simp only [cells, if_neg h, wfAbove, Bool.and_eq_true, decide_eq_true_eq]
      exact ⟨⟨le_refl a, h⟩, ih (a + 1)⟩

theorem Memory.cells_bound : ∀ (bs : List Byte) (a : Nat), ∀ c ∈ cells bs a, a ≤ c.1 ∧ c.1 < a + bs.length := by
  intro bs
  induction bs with
  | nil => intro a c hc; cases hc
  | cons b bs ih =>
    intro a c hc
    simp only [List.length_cons]
    by_cases h : b = unwritten
    · simp only [cells, if_pos h] at hc
      have := ih (a + 1) c hc; omega
    · simp only [cells, if_neg h, List.mem_cons] at hc
      rcases hc with rfl | hc
      · simp
      · have := ih (a + 1) c hc; omega

/-- Cells kept at or above `b` are in canonical form from `b` on. -/
theorem Memory.wfAbove_from {m : Memory} {a b : Nat} (w : wfAbove a m = true) (h : ∀ c ∈ m, b ≤ c.1) : wfAbove b m = true := by
  cases m with
  | nil => rfl
  | cons c cs =>
    simp only [wfAbove, Bool.and_eq_true, decide_eq_true_eq] at w ⊢
    exact ⟨⟨h c (List.mem_cons_self ..), w.1.2⟩, w.2⟩

/-- A write keeps the canonical form. -/
theorem Memory.writeBytes_wf {m : Memory} (w : m.wf = true) (a : Nat) (bs : List Byte) : (m.writeBytes a bs).wf = true := by
  refine wfAbove_append (b := a) (Nat.zero_le _) (wfAbove_filter _ w) (fun c hc => by simpa using (List.mem_filter.1 hc).2) ?_
  refine wfAbove_append (b := a + bs.length) (by omega) (cells_wf bs a) (fun c hc => (cells_bound bs a c hc).2) ?_
  exact wfAbove_from (wfAbove_filter _ w) fun c hc => by simpa using (List.mem_filter.1 hc).2

theorem Memory.writeWords_wf {m : Memory} (w : m.wf = true) (a : Nat) (ws : List Word) : (m.writeWords a ws).wf = true :=
  writeBytes_wf w a _

/-- Bringing a range back keeps the canonical form. -/
theorem Memory.clearRange_wf {m : Memory} (w : m.wf = true) (a n : Nat) : (m.clearRange a n).wf = true := wfAbove_filter _ w

theorem Memory.readByte_append (m n : Memory) (x : Nat) (h : ∀ c ∈ m, c.1 ≠ x) : readByte (m ++ n) x = readByte n x := by
  induction m with
  | nil => rfl
  | cons c cs ih =>
    simp only [List.cons_append, readByte, if_neg (h c (List.mem_cons_self ..))]
    exact ih fun d hd => h d (List.mem_cons_of_mem _ hd)

theorem Memory.readByte_none (m : Memory) (x : Nat) (h : ∀ c ∈ m, c.1 ≠ x) : readByte m x = unwritten := by
  simpa [readByte] using readByte_append m [] x h

/-- Where a second part holds no cell at `x`, the first part decides. -/
theorem Memory.readByte_left (m n : Memory) (x : Nat) (h : ∀ c ∈ n, c.1 ≠ x) : readByte (m ++ n) x = readByte m x := by
  induction m with
  | nil => simpa [readByte] using readByte_none n x h
  | cons c cs ih => by_cases e : c.1 = x <;> simp [readByte, e, ih]

theorem Memory.readByte_filter (p : Host.Cell → Bool) (m : Memory) (x : Nat) (h : ∀ c : Host.Cell, c.1 = x → p c = true) :
    readByte (m.filter p) x = readByte m x := by
  induction m with
  | nil => rfl
  | cons c cs ih =>
    by_cases e : c.1 = x
    · rw [List.filter_cons_of_pos (h c e)]; simp [readByte, e]
    · by_cases hp : p c = true
      · rw [List.filter_cons_of_pos hp]; simp [readByte, e, ih]
      · rw [List.filter_cons_of_neg hp]; simp [readByte, e, ih]

theorem Memory.readByte_cells : ∀ (bs : List Byte) (a x : Nat), readByte (cells bs a) x =
    if a ≤ x ∧ x < a + bs.length then bs.getD (x - a) unwritten else unwritten := by
  intro bs
  induction bs with
  | nil => intro a x; simp [cells, readByte]
  | cons b bs ih =>
    intro a x
    have hi := ih (a + 1) x
    by_cases e : a = x
    · subst e
      have none : readByte (cells bs (a + 1)) a = unwritten := by
        rw [hi]; rw [if_neg (by omega)]
      by_cases h : b = unwritten
      · simp [cells, h, none]
      · simp [cells, h, readByte]
    · have step : readByte (cells (b :: bs) a) x = readByte (cells bs (a + 1)) x := by
        by_cases h : b = unwritten <;> simp [cells, h, readByte, e]
      rw [step, hi]
      by_cases hx : a ≤ x ∧ x < a + (b :: bs).length
      · have : a + 1 ≤ x ∧ x < a + 1 + bs.length := by simp only [List.length_cons] at hx; omega
        rw [if_pos hx, if_pos this]
        obtain ⟨k, hk⟩ : ∃ k, x - a = k + 1 := ⟨x - a - 1, by omega⟩
        rw [hk, show x - (a + 1) = k by omega]; simp
      · have : ¬(a + 1 ≤ x ∧ x < a + 1 + bs.length) := by simp only [List.length_cons] at hx; omega
        rw [if_neg hx, if_neg this]

/-- A read after a write: what was written where it was written, what was there elsewhere. -/
theorem Memory.readByte_writeBytes (m : Memory) (a : Nat) (bs : List Byte) (x : Nat) : (m.writeBytes a bs).readByte x =
    if a ≤ x ∧ x < a + bs.length then bs.getD (x - a) unwritten else m.readByte x := by
  unfold writeBytes
  rcases Nat.lt_or_ge x a with lo | hi
  · rw [readByte_left, readByte_filter _ _ _ (by rintro c rfl; simpa using lo), if_neg (by omega)]
    intro c hc
    rcases List.mem_append.1 hc with hc | hc
    · have := cells_bound bs a c hc; omega
    · have := (List.mem_filter.1 hc).2; simp only [decide_eq_true_eq] at this; omega
  · rw [readByte_append _ _ _ (fun c hc => by have := (List.mem_filter.1 hc).2; simp only [decide_eq_true_eq] at this; omega)]
    rcases Nat.lt_or_ge x (a + bs.length) with mid | top
    · rw [readByte_left, readByte_cells, if_pos ⟨hi, mid⟩, if_pos ⟨hi, mid⟩]
      intro c hc
      have := (List.mem_filter.1 hc).2; simp only [decide_eq_true_eq] at this; omega
    · rw [readByte_append _ _ _ (fun c hc => by have := cells_bound bs a c hc; omega),
        readByte_filter _ _ _ (by rintro c rfl; simpa using top), if_neg (by omega)]

/-- A cleared range reads as unwritten; the rest reads as before. -/
theorem Memory.readByte_clearRange (m : Memory) (a n x : Nat) : (m.clearRange a n).readByte x =
    if a ≤ x ∧ x < a + n then unwritten else m.readByte x := by
  unfold clearRange
  by_cases h : a ≤ x ∧ x < a + n
  · rw [if_pos h]
    refine readByte_none _ _ fun c hc => ?_
    have := (List.mem_filter.1 hc).2
    simp only [Bool.or_eq_true, decide_eq_true_eq] at this; omega
  · rw [if_neg h, readByte_filter]
    rintro c rfl
    simp only [Bool.or_eq_true, decide_eq_true_eq]; omega

theorem Memory.walk_eq : ∀ (n : Nat) {m : Memory} {a : Nat}, wfAbove a m = true → walk n m a = (List.range n).map fun i => readByte m (a + i) := by
  intro n
  induction n with
  | zero => intro m a _; rfl
  | succ n ih =>
    intro m a w
    rw [List.range_succ_eq_map, List.map_cons, List.map_map]
    cases m with
    | nil => simp [walk, readByte, ih (m := []) (a := a + 1) rfl, Function.comp_def]
    | cons c cs =>
      simp only [wfAbove, Bool.and_eq_true, decide_eq_true_eq] at w
      by_cases e : c.1 = a
      · have wc : wfAbove (a + 1) cs = true := by have := w.2; rwa [e] at this
        simp only [walk, if_pos e, ih wc, readByte, Nat.add_zero, List.cons.injEq, true_and]
        refine List.map_congr_left fun i _ => ?_
        have : ¬ c.1 = a + (i + 1) := by omega
        simp [Function.comp, this, Nat.add_assoc, Nat.add_comm 1 i]
      · have wc : wfAbove (a + 1) (c :: cs) = true := by
          simp only [wfAbove, Bool.and_eq_true, decide_eq_true_eq]
          exact ⟨⟨by omega, w.1.2⟩, w.2⟩
        have none : readByte cs a = unwritten := by
          refine readByte_none _ _ fun d hd => ?_
          have := wfAbove_mem w.2 d hd; omega
        simp only [walk, if_neg e, ih wc, readByte, Nat.add_zero, none, List.cons.injEq, true_and]
        refine List.map_congr_left fun i _ => ?_
        simp [Function.comp, Nat.add_assoc, Nat.add_comm 1 i]

/-- Reading a run of bytes is reading each of them. -/
theorem Memory.readBytes_eq {m : Memory} (w : m.wf = true) (a n : Nat) :
    m.readBytes a n = (List.range n).map fun i => m.readByte (a + i) := by
  unfold readBytes
  rw [walk_eq n (wfAbove_from (wfAbove_filter _ w) fun c hc => by simpa using (List.mem_filter.1 hc).2)]
  refine List.map_congr_left fun i _ => readByte_filter _ _ _ ?_
  rintro c e
  simp only [decide_eq_true_eq]; omega

-- Words.

@[simp] theorem wordsBytes_length (ws : List Word) : (wordsBytes ws).length = 4 * ws.length := by
  induction ws with
  | nil => rfl
  | cons w ws ih =>
    have : (leBytes 4 w.toNat).length = 4 := rfl
    simp only [wordsBytes, List.length_append, List.length_cons, ih, this]; omega

theorem word_of_bytes (w : Word) : w32 (leNat (leBytes 4 w.toNat)) = w := by
  have h : leNat (leBytes 4 w.toNat) = w.toNat := by
    have := w.isLt
    simp only [leBytes, leNat, BitVec.toNat_ofNat]
    omega
  rw [h]
  simp [w32]

/-- Words come back from their bytes. -/
theorem bytesWords_wordsBytes (ws : List Word) : bytesWords ws.length (wordsBytes ws) = ws := by
  induction ws with
  | nil => rfl
  | cons w ws ih =>
    have l : (leBytes 4 w.toNat).length = 4 := rfl
    simp only [List.length_cons, bytesWords, wordsBytes]
    rw [List.take_left' l, List.drop_left' l, word_of_bytes, ih]

/-- The bytes written come back. -/
theorem Memory.readBytes_writeBytes {m : Memory} (w : m.wf = true) (a : Nat) (bs : List Byte) :
    (m.writeBytes a bs).readBytes a bs.length = bs := by
  rw [Memory.readBytes_eq (Memory.writeBytes_wf w a bs)]
  apply List.ext_getElem
  · simp
  · intro i h1 h2
    simp only [List.getElem_map, List.getElem_range, Memory.readByte_writeBytes]
    rw [if_pos (by omega)]
    simp [List.getD, h2]

/-- Words written come back (a tile, a run of the spool). -/
theorem Memory.readWords_writeWords {m : Memory} (w : m.wf = true) (a : Nat) (ws : List Word) :
    (m.writeWords a ws).readWords a ws.length = ws := by
  have h := Memory.readBytes_writeBytes w a (wordsBytes ws)
  rw [wordsBytes_length] at h
  unfold Memory.readWords Memory.writeWords
  rw [h, bytesWords_wordsBytes]

/-- A write of words leaves every byte outside them. -/
theorem Memory.readByte_writeWords (m : Memory) (a : Nat) (ws : List Word) (x : Nat) (h : x < a ∨ a + 4 * ws.length ≤ x) :
    (m.writeWords a ws).readByte x = m.readByte x := by
  unfold Memory.writeWords
  rw [Memory.readByte_writeBytes, wordsBytes_length, if_neg (by omega)]

end Sys2Proof.Machine
end

