-- ==== Sys2Proof/Laws/State.lean ====
section
/-! SUPPORT. What each block update and each shared reporting operation leaves of a state, field by field: all true by `rfl`. -/

namespace Sys2Proof.Machine

section Clk
variable (s : State) (f : ClkBlk → ClkBlk)
@[simp] theorem State.onClk_pending : (s.onClk f).pending = s.pending := rfl
@[simp] theorem State.onClk_clk : (s.onClk f).clk = f s.clk := rfl
@[simp] theorem State.onClk_tel : (s.onClk f).tel = s.tel := rfl
@[simp] theorem State.onClk_out : (s.onClk f).out = s.out := rfl
@[simp] theorem State.onClk_hub : (s.onClk f).hub = s.hub := rfl
@[simp] theorem State.onClk_weft : (s.onClk f).weft = s.weft := rfl
@[simp] theorem State.onClk_mod : (s.onClk f).mod = s.mod := rfl
@[simp] theorem State.onClk_jtag : (s.onClk f).jtag = s.jtag := rfl
@[simp] theorem State.onClk_i3c : (s.onClk f).i3c = s.i3c := rfl
@[simp] theorem State.onClk_trd : (s.onClk f).trd = s.trd := rfl
@[simp] theorem State.onClk_flash : (s.onClk f).flash = s.flash := rfl
@[simp] theorem State.onClk_sec : (s.onClk f).sec = s.sec := rfl
@[simp] theorem State.onClk_spdm : (s.onClk f).spdm = s.spdm := rfl
@[simp] theorem State.onClk_warp : (s.onClk f).warp = s.warp := rfl
@[simp] theorem State.onClk_nep : (s.onClk f).nep = s.nep := rfl
@[simp] theorem State.onClk_num : (s.onClk f).num = s.num := rfl
@[simp] theorem State.onClk_stp : (s.onClk f).stp = s.stp := rfl
@[simp] theorem State.onClk_bob : (s.onClk f).bob = s.bob := rfl
@[simp] theorem State.onClk_job : (s.onClk f).job = s.job := rfl
@[simp] theorem State.onClk_ply : (s.onClk f).ply = s.ply := rfl
@[simp] theorem State.onClk_reel : (s.onClk f).reel = s.reel := rfl
@[simp] theorem State.onClk_rov : (s.onClk f).rov = s.rov := rfl
@[simp] theorem State.onClk_skn : (s.onClk f).skn = s.skn := rfl
@[simp] theorem State.onClk_cores : (s.onClk f).cores = s.cores := rfl
@[simp] theorem State.onClk_acc : (s.onClk f).acc = s.acc := rfl
@[simp] theorem State.onClk_spool : (s.onClk f).spool = s.spool := rfl
@[simp] theorem State.onClk_creel : (s.onClk f).creel = s.creel := rfl
@[simp] theorem State.onClk_res : (s.onClk f).res = s.res := rfl
@[simp] theorem State.onClk_skein : (s.onClk f).skein = s.skein := rfl
@[simp] theorem State.onClk_freeCtr : (s.onClk f).freeCtr = s.freeCtr := rfl
end Clk

section Tel
variable (s : State) (f : TelBlk → TelBlk)
@[simp] theorem State.onTel_pending : (s.onTel f).pending = s.pending := rfl
@[simp] theorem State.onTel_clk : (s.onTel f).clk = s.clk := rfl
@[simp] theorem State.onTel_tel : (s.onTel f).tel = f s.tel := rfl
@[simp] theorem State.onTel_out : (s.onTel f).out = s.out := rfl
@[simp] theorem State.onTel_hub : (s.onTel f).hub = s.hub := rfl
@[simp] theorem State.onTel_weft : (s.onTel f).weft = s.weft := rfl
@[simp] theorem State.onTel_mod : (s.onTel f).mod = s.mod := rfl
@[simp] theorem State.onTel_jtag : (s.onTel f).jtag = s.jtag := rfl
@[simp] theorem State.onTel_i3c : (s.onTel f).i3c = s.i3c := rfl
@[simp] theorem State.onTel_trd : (s.onTel f).trd = s.trd := rfl
@[simp] theorem State.onTel_flash : (s.onTel f).flash = s.flash := rfl
@[simp] theorem State.onTel_sec : (s.onTel f).sec = s.sec := rfl
@[simp] theorem State.onTel_spdm : (s.onTel f).spdm = s.spdm := rfl
@[simp] theorem State.onTel_warp : (s.onTel f).warp = s.warp := rfl
@[simp] theorem State.onTel_nep : (s.onTel f).nep = s.nep := rfl
@[simp] theorem State.onTel_num : (s.onTel f).num = s.num := rfl
@[simp] theorem State.onTel_stp : (s.onTel f).stp = s.stp := rfl
@[simp] theorem State.onTel_bob : (s.onTel f).bob = s.bob := rfl
@[simp] theorem State.onTel_job : (s.onTel f).job = s.job := rfl
@[simp] theorem State.onTel_ply : (s.onTel f).ply = s.ply := rfl
@[simp] theorem State.onTel_reel : (s.onTel f).reel = s.reel := rfl
@[simp] theorem State.onTel_rov : (s.onTel f).rov = s.rov := rfl
@[simp] theorem State.onTel_skn : (s.onTel f).skn = s.skn := rfl
@[simp] theorem State.onTel_cores : (s.onTel f).cores = s.cores := rfl
@[simp] theorem State.onTel_acc : (s.onTel f).acc = s.acc := rfl
@[simp] theorem State.onTel_spool : (s.onTel f).spool = s.spool := rfl
@[simp] theorem State.onTel_creel : (s.onTel f).creel = s.creel := rfl
@[simp] theorem State.onTel_res : (s.onTel f).res = s.res := rfl
@[simp] theorem State.onTel_skein : (s.onTel f).skein = s.skein := rfl
@[simp] theorem State.onTel_freeCtr : (s.onTel f).freeCtr = s.freeCtr := rfl
end Tel

section Out
variable (s : State) (f : OutBlk → OutBlk)
@[simp] theorem State.onOut_pending : (s.onOut f).pending = s.pending := rfl
@[simp] theorem State.onOut_clk : (s.onOut f).clk = s.clk := rfl
@[simp] theorem State.onOut_tel : (s.onOut f).tel = s.tel := rfl
@[simp] theorem State.onOut_out : (s.onOut f).out = f s.out := rfl
@[simp] theorem State.onOut_hub : (s.onOut f).hub = s.hub := rfl
@[simp] theorem State.onOut_weft : (s.onOut f).weft = s.weft := rfl
@[simp] theorem State.onOut_mod : (s.onOut f).mod = s.mod := rfl
@[simp] theorem State.onOut_jtag : (s.onOut f).jtag = s.jtag := rfl
@[simp] theorem State.onOut_i3c : (s.onOut f).i3c = s.i3c := rfl
@[simp] theorem State.onOut_trd : (s.onOut f).trd = s.trd := rfl
@[simp] theorem State.onOut_flash : (s.onOut f).flash = s.flash := rfl
@[simp] theorem State.onOut_sec : (s.onOut f).sec = s.sec := rfl
@[simp] theorem State.onOut_spdm : (s.onOut f).spdm = s.spdm := rfl
@[simp] theorem State.onOut_warp : (s.onOut f).warp = s.warp := rfl
@[simp] theorem State.onOut_nep : (s.onOut f).nep = s.nep := rfl
@[simp] theorem State.onOut_num : (s.onOut f).num = s.num := rfl
@[simp] theorem State.onOut_stp : (s.onOut f).stp = s.stp := rfl
@[simp] theorem State.onOut_bob : (s.onOut f).bob = s.bob := rfl
@[simp] theorem State.onOut_job : (s.onOut f).job = s.job := rfl
@[simp] theorem State.onOut_ply : (s.onOut f).ply = s.ply := rfl
@[simp] theorem State.onOut_reel : (s.onOut f).reel = s.reel := rfl
@[simp] theorem State.onOut_rov : (s.onOut f).rov = s.rov := rfl
@[simp] theorem State.onOut_skn : (s.onOut f).skn = s.skn := rfl
@[simp] theorem State.onOut_cores : (s.onOut f).cores = s.cores := rfl
@[simp] theorem State.onOut_acc : (s.onOut f).acc = s.acc := rfl
@[simp] theorem State.onOut_spool : (s.onOut f).spool = s.spool := rfl
@[simp] theorem State.onOut_creel : (s.onOut f).creel = s.creel := rfl
@[simp] theorem State.onOut_res : (s.onOut f).res = s.res := rfl
@[simp] theorem State.onOut_skein : (s.onOut f).skein = s.skein := rfl
@[simp] theorem State.onOut_freeCtr : (s.onOut f).freeCtr = s.freeCtr := rfl
end Out

section Hub
variable (s : State) (f : HubBlk → HubBlk)
@[simp] theorem State.onHub_pending : (s.onHub f).pending = s.pending := rfl
@[simp] theorem State.onHub_clk : (s.onHub f).clk = s.clk := rfl
@[simp] theorem State.onHub_tel : (s.onHub f).tel = s.tel := rfl
@[simp] theorem State.onHub_out : (s.onHub f).out = s.out := rfl
@[simp] theorem State.onHub_hub : (s.onHub f).hub = f s.hub := rfl
@[simp] theorem State.onHub_weft : (s.onHub f).weft = s.weft := rfl
@[simp] theorem State.onHub_mod : (s.onHub f).mod = s.mod := rfl
@[simp] theorem State.onHub_jtag : (s.onHub f).jtag = s.jtag := rfl
@[simp] theorem State.onHub_i3c : (s.onHub f).i3c = s.i3c := rfl
@[simp] theorem State.onHub_trd : (s.onHub f).trd = s.trd := rfl
@[simp] theorem State.onHub_flash : (s.onHub f).flash = s.flash := rfl
@[simp] theorem State.onHub_sec : (s.onHub f).sec = s.sec := rfl
@[simp] theorem State.onHub_spdm : (s.onHub f).spdm = s.spdm := rfl
@[simp] theorem State.onHub_warp : (s.onHub f).warp = s.warp := rfl
@[simp] theorem State.onHub_nep : (s.onHub f).nep = s.nep := rfl
@[simp] theorem State.onHub_num : (s.onHub f).num = s.num := rfl
@[simp] theorem State.onHub_stp : (s.onHub f).stp = s.stp := rfl
@[simp] theorem State.onHub_bob : (s.onHub f).bob = s.bob := rfl
@[simp] theorem State.onHub_job : (s.onHub f).job = s.job := rfl
@[simp] theorem State.onHub_ply : (s.onHub f).ply = s.ply := rfl
@[simp] theorem State.onHub_reel : (s.onHub f).reel = s.reel := rfl
@[simp] theorem State.onHub_rov : (s.onHub f).rov = s.rov := rfl
@[simp] theorem State.onHub_skn : (s.onHub f).skn = s.skn := rfl
@[simp] theorem State.onHub_cores : (s.onHub f).cores = s.cores := rfl
@[simp] theorem State.onHub_acc : (s.onHub f).acc = s.acc := rfl
@[simp] theorem State.onHub_spool : (s.onHub f).spool = s.spool := rfl
@[simp] theorem State.onHub_creel : (s.onHub f).creel = s.creel := rfl
@[simp] theorem State.onHub_res : (s.onHub f).res = s.res := rfl
@[simp] theorem State.onHub_skein : (s.onHub f).skein = s.skein := rfl
@[simp] theorem State.onHub_freeCtr : (s.onHub f).freeCtr = s.freeCtr := rfl
end Hub

section Weft
variable (s : State) (f : WeftBlk → WeftBlk)
@[simp] theorem State.onWeft_pending : (s.onWeft f).pending = s.pending := rfl
@[simp] theorem State.onWeft_clk : (s.onWeft f).clk = s.clk := rfl
@[simp] theorem State.onWeft_tel : (s.onWeft f).tel = s.tel := rfl
@[simp] theorem State.onWeft_out : (s.onWeft f).out = s.out := rfl
@[simp] theorem State.onWeft_hub : (s.onWeft f).hub = s.hub := rfl
@[simp] theorem State.onWeft_weft : (s.onWeft f).weft = f s.weft := rfl
@[simp] theorem State.onWeft_mod : (s.onWeft f).mod = s.mod := rfl
@[simp] theorem State.onWeft_jtag : (s.onWeft f).jtag = s.jtag := rfl
@[simp] theorem State.onWeft_i3c : (s.onWeft f).i3c = s.i3c := rfl
@[simp] theorem State.onWeft_trd : (s.onWeft f).trd = s.trd := rfl
@[simp] theorem State.onWeft_flash : (s.onWeft f).flash = s.flash := rfl
@[simp] theorem State.onWeft_sec : (s.onWeft f).sec = s.sec := rfl
@[simp] theorem State.onWeft_spdm : (s.onWeft f).spdm = s.spdm := rfl
@[simp] theorem State.onWeft_warp : (s.onWeft f).warp = s.warp := rfl
@[simp] theorem State.onWeft_nep : (s.onWeft f).nep = s.nep := rfl
@[simp] theorem State.onWeft_num : (s.onWeft f).num = s.num := rfl
@[simp] theorem State.onWeft_stp : (s.onWeft f).stp = s.stp := rfl
@[simp] theorem State.onWeft_bob : (s.onWeft f).bob = s.bob := rfl
@[simp] theorem State.onWeft_job : (s.onWeft f).job = s.job := rfl
@[simp] theorem State.onWeft_ply : (s.onWeft f).ply = s.ply := rfl
@[simp] theorem State.onWeft_reel : (s.onWeft f).reel = s.reel := rfl
@[simp] theorem State.onWeft_rov : (s.onWeft f).rov = s.rov := rfl
@[simp] theorem State.onWeft_skn : (s.onWeft f).skn = s.skn := rfl
@[simp] theorem State.onWeft_cores : (s.onWeft f).cores = s.cores := rfl
@[simp] theorem State.onWeft_acc : (s.onWeft f).acc = s.acc := rfl
@[simp] theorem State.onWeft_spool : (s.onWeft f).spool = s.spool := rfl
@[simp] theorem State.onWeft_creel : (s.onWeft f).creel = s.creel := rfl
@[simp] theorem State.onWeft_res : (s.onWeft f).res = s.res := rfl
@[simp] theorem State.onWeft_skein : (s.onWeft f).skein = s.skein := rfl
@[simp] theorem State.onWeft_freeCtr : (s.onWeft f).freeCtr = s.freeCtr := rfl
end Weft

section Mod
variable (s : State) (f : ModBlk → ModBlk)
@[simp] theorem State.onMod_pending : (s.onMod f).pending = s.pending := rfl
@[simp] theorem State.onMod_clk : (s.onMod f).clk = s.clk := rfl
@[simp] theorem State.onMod_tel : (s.onMod f).tel = s.tel := rfl
@[simp] theorem State.onMod_out : (s.onMod f).out = s.out := rfl
@[simp] theorem State.onMod_hub : (s.onMod f).hub = s.hub := rfl
@[simp] theorem State.onMod_weft : (s.onMod f).weft = s.weft := rfl
@[simp] theorem State.onMod_mod : (s.onMod f).mod = f s.mod := rfl
@[simp] theorem State.onMod_jtag : (s.onMod f).jtag = s.jtag := rfl
@[simp] theorem State.onMod_i3c : (s.onMod f).i3c = s.i3c := rfl
@[simp] theorem State.onMod_trd : (s.onMod f).trd = s.trd := rfl
@[simp] theorem State.onMod_flash : (s.onMod f).flash = s.flash := rfl
@[simp] theorem State.onMod_sec : (s.onMod f).sec = s.sec := rfl
@[simp] theorem State.onMod_spdm : (s.onMod f).spdm = s.spdm := rfl
@[simp] theorem State.onMod_warp : (s.onMod f).warp = s.warp := rfl
@[simp] theorem State.onMod_nep : (s.onMod f).nep = s.nep := rfl
@[simp] theorem State.onMod_num : (s.onMod f).num = s.num := rfl
@[simp] theorem State.onMod_stp : (s.onMod f).stp = s.stp := rfl
@[simp] theorem State.onMod_bob : (s.onMod f).bob = s.bob := rfl
@[simp] theorem State.onMod_job : (s.onMod f).job = s.job := rfl
@[simp] theorem State.onMod_ply : (s.onMod f).ply = s.ply := rfl
@[simp] theorem State.onMod_reel : (s.onMod f).reel = s.reel := rfl
@[simp] theorem State.onMod_rov : (s.onMod f).rov = s.rov := rfl
@[simp] theorem State.onMod_skn : (s.onMod f).skn = s.skn := rfl
@[simp] theorem State.onMod_cores : (s.onMod f).cores = s.cores := rfl
@[simp] theorem State.onMod_acc : (s.onMod f).acc = s.acc := rfl
@[simp] theorem State.onMod_spool : (s.onMod f).spool = s.spool := rfl
@[simp] theorem State.onMod_creel : (s.onMod f).creel = s.creel := rfl
@[simp] theorem State.onMod_res : (s.onMod f).res = s.res := rfl
@[simp] theorem State.onMod_skein : (s.onMod f).skein = s.skein := rfl
@[simp] theorem State.onMod_freeCtr : (s.onMod f).freeCtr = s.freeCtr := rfl
end Mod

section Jtag
variable (s : State) (f : JtagBlk → JtagBlk)
@[simp] theorem State.onJtag_pending : (s.onJtag f).pending = s.pending := rfl
@[simp] theorem State.onJtag_clk : (s.onJtag f).clk = s.clk := rfl
@[simp] theorem State.onJtag_tel : (s.onJtag f).tel = s.tel := rfl
@[simp] theorem State.onJtag_out : (s.onJtag f).out = s.out := rfl
@[simp] theorem State.onJtag_hub : (s.onJtag f).hub = s.hub := rfl
@[simp] theorem State.onJtag_weft : (s.onJtag f).weft = s.weft := rfl
@[simp] theorem State.onJtag_mod : (s.onJtag f).mod = s.mod := rfl
@[simp] theorem State.onJtag_jtag : (s.onJtag f).jtag = f s.jtag := rfl
@[simp] theorem State.onJtag_i3c : (s.onJtag f).i3c = s.i3c := rfl
@[simp] theorem State.onJtag_trd : (s.onJtag f).trd = s.trd := rfl
@[simp] theorem State.onJtag_flash : (s.onJtag f).flash = s.flash := rfl
@[simp] theorem State.onJtag_sec : (s.onJtag f).sec = s.sec := rfl
@[simp] theorem State.onJtag_spdm : (s.onJtag f).spdm = s.spdm := rfl
@[simp] theorem State.onJtag_warp : (s.onJtag f).warp = s.warp := rfl
@[simp] theorem State.onJtag_nep : (s.onJtag f).nep = s.nep := rfl
@[simp] theorem State.onJtag_num : (s.onJtag f).num = s.num := rfl
@[simp] theorem State.onJtag_stp : (s.onJtag f).stp = s.stp := rfl
@[simp] theorem State.onJtag_bob : (s.onJtag f).bob = s.bob := rfl
@[simp] theorem State.onJtag_job : (s.onJtag f).job = s.job := rfl
@[simp] theorem State.onJtag_ply : (s.onJtag f).ply = s.ply := rfl
@[simp] theorem State.onJtag_reel : (s.onJtag f).reel = s.reel := rfl
@[simp] theorem State.onJtag_rov : (s.onJtag f).rov = s.rov := rfl
@[simp] theorem State.onJtag_skn : (s.onJtag f).skn = s.skn := rfl
@[simp] theorem State.onJtag_cores : (s.onJtag f).cores = s.cores := rfl
@[simp] theorem State.onJtag_acc : (s.onJtag f).acc = s.acc := rfl
@[simp] theorem State.onJtag_spool : (s.onJtag f).spool = s.spool := rfl
@[simp] theorem State.onJtag_creel : (s.onJtag f).creel = s.creel := rfl
@[simp] theorem State.onJtag_res : (s.onJtag f).res = s.res := rfl
@[simp] theorem State.onJtag_skein : (s.onJtag f).skein = s.skein := rfl
@[simp] theorem State.onJtag_freeCtr : (s.onJtag f).freeCtr = s.freeCtr := rfl
end Jtag

section I3c
variable (s : State) (f : I3cBlk → I3cBlk)
@[simp] theorem State.onI3c_pending : (s.onI3c f).pending = s.pending := rfl
@[simp] theorem State.onI3c_clk : (s.onI3c f).clk = s.clk := rfl
@[simp] theorem State.onI3c_tel : (s.onI3c f).tel = s.tel := rfl
@[simp] theorem State.onI3c_out : (s.onI3c f).out = s.out := rfl
@[simp] theorem State.onI3c_hub : (s.onI3c f).hub = s.hub := rfl
@[simp] theorem State.onI3c_weft : (s.onI3c f).weft = s.weft := rfl
@[simp] theorem State.onI3c_mod : (s.onI3c f).mod = s.mod := rfl
@[simp] theorem State.onI3c_jtag : (s.onI3c f).jtag = s.jtag := rfl
@[simp] theorem State.onI3c_i3c : (s.onI3c f).i3c = f s.i3c := rfl
@[simp] theorem State.onI3c_trd : (s.onI3c f).trd = s.trd := rfl
@[simp] theorem State.onI3c_flash : (s.onI3c f).flash = s.flash := rfl
@[simp] theorem State.onI3c_sec : (s.onI3c f).sec = s.sec := rfl
@[simp] theorem State.onI3c_spdm : (s.onI3c f).spdm = s.spdm := rfl
@[simp] theorem State.onI3c_warp : (s.onI3c f).warp = s.warp := rfl
@[simp] theorem State.onI3c_nep : (s.onI3c f).nep = s.nep := rfl
@[simp] theorem State.onI3c_num : (s.onI3c f).num = s.num := rfl
@[simp] theorem State.onI3c_stp : (s.onI3c f).stp = s.stp := rfl
@[simp] theorem State.onI3c_bob : (s.onI3c f).bob = s.bob := rfl
@[simp] theorem State.onI3c_job : (s.onI3c f).job = s.job := rfl
@[simp] theorem State.onI3c_ply : (s.onI3c f).ply = s.ply := rfl
@[simp] theorem State.onI3c_reel : (s.onI3c f).reel = s.reel := rfl
@[simp] theorem State.onI3c_rov : (s.onI3c f).rov = s.rov := rfl
@[simp] theorem State.onI3c_skn : (s.onI3c f).skn = s.skn := rfl
@[simp] theorem State.onI3c_cores : (s.onI3c f).cores = s.cores := rfl
@[simp] theorem State.onI3c_acc : (s.onI3c f).acc = s.acc := rfl
@[simp] theorem State.onI3c_spool : (s.onI3c f).spool = s.spool := rfl
@[simp] theorem State.onI3c_creel : (s.onI3c f).creel = s.creel := rfl
@[simp] theorem State.onI3c_res : (s.onI3c f).res = s.res := rfl
@[simp] theorem State.onI3c_skein : (s.onI3c f).skein = s.skein := rfl
@[simp] theorem State.onI3c_freeCtr : (s.onI3c f).freeCtr = s.freeCtr := rfl
end I3c

section Trd
variable (s : State) (f : TrdBlk → TrdBlk)
@[simp] theorem State.onTrd_pending : (s.onTrd f).pending = s.pending := rfl
@[simp] theorem State.onTrd_clk : (s.onTrd f).clk = s.clk := rfl
@[simp] theorem State.onTrd_tel : (s.onTrd f).tel = s.tel := rfl
@[simp] theorem State.onTrd_out : (s.onTrd f).out = s.out := rfl
@[simp] theorem State.onTrd_hub : (s.onTrd f).hub = s.hub := rfl
@[simp] theorem State.onTrd_weft : (s.onTrd f).weft = s.weft := rfl
@[simp] theorem State.onTrd_mod : (s.onTrd f).mod = s.mod := rfl
@[simp] theorem State.onTrd_jtag : (s.onTrd f).jtag = s.jtag := rfl
@[simp] theorem State.onTrd_i3c : (s.onTrd f).i3c = s.i3c := rfl
@[simp] theorem State.onTrd_trd : (s.onTrd f).trd = f s.trd := rfl
@[simp] theorem State.onTrd_flash : (s.onTrd f).flash = s.flash := rfl
@[simp] theorem State.onTrd_sec : (s.onTrd f).sec = s.sec := rfl
@[simp] theorem State.onTrd_spdm : (s.onTrd f).spdm = s.spdm := rfl
@[simp] theorem State.onTrd_warp : (s.onTrd f).warp = s.warp := rfl
@[simp] theorem State.onTrd_nep : (s.onTrd f).nep = s.nep := rfl
@[simp] theorem State.onTrd_num : (s.onTrd f).num = s.num := rfl
@[simp] theorem State.onTrd_stp : (s.onTrd f).stp = s.stp := rfl
@[simp] theorem State.onTrd_bob : (s.onTrd f).bob = s.bob := rfl
@[simp] theorem State.onTrd_job : (s.onTrd f).job = s.job := rfl
@[simp] theorem State.onTrd_ply : (s.onTrd f).ply = s.ply := rfl
@[simp] theorem State.onTrd_reel : (s.onTrd f).reel = s.reel := rfl
@[simp] theorem State.onTrd_rov : (s.onTrd f).rov = s.rov := rfl
@[simp] theorem State.onTrd_skn : (s.onTrd f).skn = s.skn := rfl
@[simp] theorem State.onTrd_cores : (s.onTrd f).cores = s.cores := rfl
@[simp] theorem State.onTrd_acc : (s.onTrd f).acc = s.acc := rfl
@[simp] theorem State.onTrd_spool : (s.onTrd f).spool = s.spool := rfl
@[simp] theorem State.onTrd_creel : (s.onTrd f).creel = s.creel := rfl
@[simp] theorem State.onTrd_res : (s.onTrd f).res = s.res := rfl
@[simp] theorem State.onTrd_skein : (s.onTrd f).skein = s.skein := rfl
@[simp] theorem State.onTrd_freeCtr : (s.onTrd f).freeCtr = s.freeCtr := rfl
end Trd

section Flash
variable (s : State) (f : SecFlash → SecFlash)
@[simp] theorem State.onFlash_pending : (s.onFlash f).pending = s.pending := rfl
@[simp] theorem State.onFlash_clk : (s.onFlash f).clk = s.clk := rfl
@[simp] theorem State.onFlash_tel : (s.onFlash f).tel = s.tel := rfl
@[simp] theorem State.onFlash_out : (s.onFlash f).out = s.out := rfl
@[simp] theorem State.onFlash_hub : (s.onFlash f).hub = s.hub := rfl
@[simp] theorem State.onFlash_weft : (s.onFlash f).weft = s.weft := rfl
@[simp] theorem State.onFlash_mod : (s.onFlash f).mod = s.mod := rfl
@[simp] theorem State.onFlash_jtag : (s.onFlash f).jtag = s.jtag := rfl
@[simp] theorem State.onFlash_i3c : (s.onFlash f).i3c = s.i3c := rfl
@[simp] theorem State.onFlash_trd : (s.onFlash f).trd = s.trd := rfl
@[simp] theorem State.onFlash_flash : (s.onFlash f).flash = f s.flash := rfl
@[simp] theorem State.onFlash_sec : (s.onFlash f).sec = s.sec := rfl
@[simp] theorem State.onFlash_spdm : (s.onFlash f).spdm = s.spdm := rfl
@[simp] theorem State.onFlash_warp : (s.onFlash f).warp = s.warp := rfl
@[simp] theorem State.onFlash_nep : (s.onFlash f).nep = s.nep := rfl
@[simp] theorem State.onFlash_num : (s.onFlash f).num = s.num := rfl
@[simp] theorem State.onFlash_stp : (s.onFlash f).stp = s.stp := rfl
@[simp] theorem State.onFlash_bob : (s.onFlash f).bob = s.bob := rfl
@[simp] theorem State.onFlash_job : (s.onFlash f).job = s.job := rfl
@[simp] theorem State.onFlash_ply : (s.onFlash f).ply = s.ply := rfl
@[simp] theorem State.onFlash_reel : (s.onFlash f).reel = s.reel := rfl
@[simp] theorem State.onFlash_rov : (s.onFlash f).rov = s.rov := rfl
@[simp] theorem State.onFlash_skn : (s.onFlash f).skn = s.skn := rfl
@[simp] theorem State.onFlash_cores : (s.onFlash f).cores = s.cores := rfl
@[simp] theorem State.onFlash_acc : (s.onFlash f).acc = s.acc := rfl
@[simp] theorem State.onFlash_spool : (s.onFlash f).spool = s.spool := rfl
@[simp] theorem State.onFlash_creel : (s.onFlash f).creel = s.creel := rfl
@[simp] theorem State.onFlash_res : (s.onFlash f).res = s.res := rfl
@[simp] theorem State.onFlash_skein : (s.onFlash f).skein = s.skein := rfl
@[simp] theorem State.onFlash_freeCtr : (s.onFlash f).freeCtr = s.freeCtr := rfl
end Flash

section Sec
variable (s : State) (f : SecBlk → SecBlk)
@[simp] theorem State.onSec_pending : (s.onSec f).pending = s.pending := rfl
@[simp] theorem State.onSec_clk : (s.onSec f).clk = s.clk := rfl
@[simp] theorem State.onSec_tel : (s.onSec f).tel = s.tel := rfl
@[simp] theorem State.onSec_out : (s.onSec f).out = s.out := rfl
@[simp] theorem State.onSec_hub : (s.onSec f).hub = s.hub := rfl
@[simp] theorem State.onSec_weft : (s.onSec f).weft = s.weft := rfl
@[simp] theorem State.onSec_mod : (s.onSec f).mod = s.mod := rfl
@[simp] theorem State.onSec_jtag : (s.onSec f).jtag = s.jtag := rfl
@[simp] theorem State.onSec_i3c : (s.onSec f).i3c = s.i3c := rfl
@[simp] theorem State.onSec_trd : (s.onSec f).trd = s.trd := rfl
@[simp] theorem State.onSec_flash : (s.onSec f).flash = s.flash := rfl
@[simp] theorem State.onSec_sec : (s.onSec f).sec = f s.sec := rfl
@[simp] theorem State.onSec_spdm : (s.onSec f).spdm = s.spdm := rfl
@[simp] theorem State.onSec_warp : (s.onSec f).warp = s.warp := rfl
@[simp] theorem State.onSec_nep : (s.onSec f).nep = s.nep := rfl
@[simp] theorem State.onSec_num : (s.onSec f).num = s.num := rfl
@[simp] theorem State.onSec_stp : (s.onSec f).stp = s.stp := rfl
@[simp] theorem State.onSec_bob : (s.onSec f).bob = s.bob := rfl
@[simp] theorem State.onSec_job : (s.onSec f).job = s.job := rfl
@[simp] theorem State.onSec_ply : (s.onSec f).ply = s.ply := rfl
@[simp] theorem State.onSec_reel : (s.onSec f).reel = s.reel := rfl
@[simp] theorem State.onSec_rov : (s.onSec f).rov = s.rov := rfl
@[simp] theorem State.onSec_skn : (s.onSec f).skn = s.skn := rfl
@[simp] theorem State.onSec_cores : (s.onSec f).cores = s.cores := rfl
@[simp] theorem State.onSec_acc : (s.onSec f).acc = s.acc := rfl
@[simp] theorem State.onSec_spool : (s.onSec f).spool = s.spool := rfl
@[simp] theorem State.onSec_creel : (s.onSec f).creel = s.creel := rfl
@[simp] theorem State.onSec_res : (s.onSec f).res = s.res := rfl
@[simp] theorem State.onSec_skein : (s.onSec f).skein = s.skein := rfl
@[simp] theorem State.onSec_freeCtr : (s.onSec f).freeCtr = s.freeCtr := rfl
end Sec

section Spdm
variable (s : State) (f : SpdmBlk → SpdmBlk)
@[simp] theorem State.onSpdm_pending : (s.onSpdm f).pending = s.pending := rfl
@[simp] theorem State.onSpdm_clk : (s.onSpdm f).clk = s.clk := rfl
@[simp] theorem State.onSpdm_tel : (s.onSpdm f).tel = s.tel := rfl
@[simp] theorem State.onSpdm_out : (s.onSpdm f).out = s.out := rfl
@[simp] theorem State.onSpdm_hub : (s.onSpdm f).hub = s.hub := rfl
@[simp] theorem State.onSpdm_weft : (s.onSpdm f).weft = s.weft := rfl
@[simp] theorem State.onSpdm_mod : (s.onSpdm f).mod = s.mod := rfl
@[simp] theorem State.onSpdm_jtag : (s.onSpdm f).jtag = s.jtag := rfl
@[simp] theorem State.onSpdm_i3c : (s.onSpdm f).i3c = s.i3c := rfl
@[simp] theorem State.onSpdm_trd : (s.onSpdm f).trd = s.trd := rfl
@[simp] theorem State.onSpdm_flash : (s.onSpdm f).flash = s.flash := rfl
@[simp] theorem State.onSpdm_sec : (s.onSpdm f).sec = s.sec := rfl
@[simp] theorem State.onSpdm_spdm : (s.onSpdm f).spdm = f s.spdm := rfl
@[simp] theorem State.onSpdm_warp : (s.onSpdm f).warp = s.warp := rfl
@[simp] theorem State.onSpdm_nep : (s.onSpdm f).nep = s.nep := rfl
@[simp] theorem State.onSpdm_num : (s.onSpdm f).num = s.num := rfl
@[simp] theorem State.onSpdm_stp : (s.onSpdm f).stp = s.stp := rfl
@[simp] theorem State.onSpdm_bob : (s.onSpdm f).bob = s.bob := rfl
@[simp] theorem State.onSpdm_job : (s.onSpdm f).job = s.job := rfl
@[simp] theorem State.onSpdm_ply : (s.onSpdm f).ply = s.ply := rfl
@[simp] theorem State.onSpdm_reel : (s.onSpdm f).reel = s.reel := rfl
@[simp] theorem State.onSpdm_rov : (s.onSpdm f).rov = s.rov := rfl
@[simp] theorem State.onSpdm_skn : (s.onSpdm f).skn = s.skn := rfl
@[simp] theorem State.onSpdm_cores : (s.onSpdm f).cores = s.cores := rfl
@[simp] theorem State.onSpdm_acc : (s.onSpdm f).acc = s.acc := rfl
@[simp] theorem State.onSpdm_spool : (s.onSpdm f).spool = s.spool := rfl
@[simp] theorem State.onSpdm_creel : (s.onSpdm f).creel = s.creel := rfl
@[simp] theorem State.onSpdm_res : (s.onSpdm f).res = s.res := rfl
@[simp] theorem State.onSpdm_skein : (s.onSpdm f).skein = s.skein := rfl
@[simp] theorem State.onSpdm_freeCtr : (s.onSpdm f).freeCtr = s.freeCtr := rfl
end Spdm

section Warp
variable (s : State) (f : WarpBlk → WarpBlk)
@[simp] theorem State.onWarp_pending : (s.onWarp f).pending = s.pending := rfl
@[simp] theorem State.onWarp_clk : (s.onWarp f).clk = s.clk := rfl
@[simp] theorem State.onWarp_tel : (s.onWarp f).tel = s.tel := rfl
@[simp] theorem State.onWarp_out : (s.onWarp f).out = s.out := rfl
@[simp] theorem State.onWarp_hub : (s.onWarp f).hub = s.hub := rfl
@[simp] theorem State.onWarp_weft : (s.onWarp f).weft = s.weft := rfl
@[simp] theorem State.onWarp_mod : (s.onWarp f).mod = s.mod := rfl
@[simp] theorem State.onWarp_jtag : (s.onWarp f).jtag = s.jtag := rfl
@[simp] theorem State.onWarp_i3c : (s.onWarp f).i3c = s.i3c := rfl
@[simp] theorem State.onWarp_trd : (s.onWarp f).trd = s.trd := rfl
@[simp] theorem State.onWarp_flash : (s.onWarp f).flash = s.flash := rfl
@[simp] theorem State.onWarp_sec : (s.onWarp f).sec = s.sec := rfl
@[simp] theorem State.onWarp_spdm : (s.onWarp f).spdm = s.spdm := rfl
@[simp] theorem State.onWarp_warp : (s.onWarp f).warp = f s.warp := rfl
@[simp] theorem State.onWarp_nep : (s.onWarp f).nep = s.nep := rfl
@[simp] theorem State.onWarp_num : (s.onWarp f).num = s.num := rfl
@[simp] theorem State.onWarp_stp : (s.onWarp f).stp = s.stp := rfl
@[simp] theorem State.onWarp_bob : (s.onWarp f).bob = s.bob := rfl
@[simp] theorem State.onWarp_job : (s.onWarp f).job = s.job := rfl
@[simp] theorem State.onWarp_ply : (s.onWarp f).ply = s.ply := rfl
@[simp] theorem State.onWarp_reel : (s.onWarp f).reel = s.reel := rfl
@[simp] theorem State.onWarp_rov : (s.onWarp f).rov = s.rov := rfl
@[simp] theorem State.onWarp_skn : (s.onWarp f).skn = s.skn := rfl
@[simp] theorem State.onWarp_cores : (s.onWarp f).cores = s.cores := rfl
@[simp] theorem State.onWarp_acc : (s.onWarp f).acc = s.acc := rfl
@[simp] theorem State.onWarp_spool : (s.onWarp f).spool = s.spool := rfl
@[simp] theorem State.onWarp_creel : (s.onWarp f).creel = s.creel := rfl
@[simp] theorem State.onWarp_res : (s.onWarp f).res = s.res := rfl
@[simp] theorem State.onWarp_skein : (s.onWarp f).skein = s.skein := rfl
@[simp] theorem State.onWarp_freeCtr : (s.onWarp f).freeCtr = s.freeCtr := rfl
end Warp

section Nep
variable (s : State) (f : NepBlk → NepBlk)
@[simp] theorem State.onNep_pending : (s.onNep f).pending = s.pending := rfl
@[simp] theorem State.onNep_clk : (s.onNep f).clk = s.clk := rfl
@[simp] theorem State.onNep_tel : (s.onNep f).tel = s.tel := rfl
@[simp] theorem State.onNep_out : (s.onNep f).out = s.out := rfl
@[simp] theorem State.onNep_hub : (s.onNep f).hub = s.hub := rfl
@[simp] theorem State.onNep_weft : (s.onNep f).weft = s.weft := rfl
@[simp] theorem State.onNep_mod : (s.onNep f).mod = s.mod := rfl
@[simp] theorem State.onNep_jtag : (s.onNep f).jtag = s.jtag := rfl
@[simp] theorem State.onNep_i3c : (s.onNep f).i3c = s.i3c := rfl
@[simp] theorem State.onNep_trd : (s.onNep f).trd = s.trd := rfl
@[simp] theorem State.onNep_flash : (s.onNep f).flash = s.flash := rfl
@[simp] theorem State.onNep_sec : (s.onNep f).sec = s.sec := rfl
@[simp] theorem State.onNep_spdm : (s.onNep f).spdm = s.spdm := rfl
@[simp] theorem State.onNep_warp : (s.onNep f).warp = s.warp := rfl
@[simp] theorem State.onNep_nep : (s.onNep f).nep = f s.nep := rfl
@[simp] theorem State.onNep_num : (s.onNep f).num = s.num := rfl
@[simp] theorem State.onNep_stp : (s.onNep f).stp = s.stp := rfl
@[simp] theorem State.onNep_bob : (s.onNep f).bob = s.bob := rfl
@[simp] theorem State.onNep_job : (s.onNep f).job = s.job := rfl
@[simp] theorem State.onNep_ply : (s.onNep f).ply = s.ply := rfl
@[simp] theorem State.onNep_reel : (s.onNep f).reel = s.reel := rfl
@[simp] theorem State.onNep_rov : (s.onNep f).rov = s.rov := rfl
@[simp] theorem State.onNep_skn : (s.onNep f).skn = s.skn := rfl
@[simp] theorem State.onNep_cores : (s.onNep f).cores = s.cores := rfl
@[simp] theorem State.onNep_acc : (s.onNep f).acc = s.acc := rfl
@[simp] theorem State.onNep_spool : (s.onNep f).spool = s.spool := rfl
@[simp] theorem State.onNep_creel : (s.onNep f).creel = s.creel := rfl
@[simp] theorem State.onNep_res : (s.onNep f).res = s.res := rfl
@[simp] theorem State.onNep_skein : (s.onNep f).skein = s.skein := rfl
@[simp] theorem State.onNep_freeCtr : (s.onNep f).freeCtr = s.freeCtr := rfl
end Nep

section Num
variable (s : State) (f : NumBlk → NumBlk)
@[simp] theorem State.onNum_pending : (s.onNum f).pending = s.pending := rfl
@[simp] theorem State.onNum_clk : (s.onNum f).clk = s.clk := rfl
@[simp] theorem State.onNum_tel : (s.onNum f).tel = s.tel := rfl
@[simp] theorem State.onNum_out : (s.onNum f).out = s.out := rfl
@[simp] theorem State.onNum_hub : (s.onNum f).hub = s.hub := rfl
@[simp] theorem State.onNum_weft : (s.onNum f).weft = s.weft := rfl
@[simp] theorem State.onNum_mod : (s.onNum f).mod = s.mod := rfl
@[simp] theorem State.onNum_jtag : (s.onNum f).jtag = s.jtag := rfl
@[simp] theorem State.onNum_i3c : (s.onNum f).i3c = s.i3c := rfl
@[simp] theorem State.onNum_trd : (s.onNum f).trd = s.trd := rfl
@[simp] theorem State.onNum_flash : (s.onNum f).flash = s.flash := rfl
@[simp] theorem State.onNum_sec : (s.onNum f).sec = s.sec := rfl
@[simp] theorem State.onNum_spdm : (s.onNum f).spdm = s.spdm := rfl
@[simp] theorem State.onNum_warp : (s.onNum f).warp = s.warp := rfl
@[simp] theorem State.onNum_nep : (s.onNum f).nep = s.nep := rfl
@[simp] theorem State.onNum_num : (s.onNum f).num = f s.num := rfl
@[simp] theorem State.onNum_stp : (s.onNum f).stp = s.stp := rfl
@[simp] theorem State.onNum_bob : (s.onNum f).bob = s.bob := rfl
@[simp] theorem State.onNum_job : (s.onNum f).job = s.job := rfl
@[simp] theorem State.onNum_ply : (s.onNum f).ply = s.ply := rfl
@[simp] theorem State.onNum_reel : (s.onNum f).reel = s.reel := rfl
@[simp] theorem State.onNum_rov : (s.onNum f).rov = s.rov := rfl
@[simp] theorem State.onNum_skn : (s.onNum f).skn = s.skn := rfl
@[simp] theorem State.onNum_cores : (s.onNum f).cores = s.cores := rfl
@[simp] theorem State.onNum_acc : (s.onNum f).acc = s.acc := rfl
@[simp] theorem State.onNum_spool : (s.onNum f).spool = s.spool := rfl
@[simp] theorem State.onNum_creel : (s.onNum f).creel = s.creel := rfl
@[simp] theorem State.onNum_res : (s.onNum f).res = s.res := rfl
@[simp] theorem State.onNum_skein : (s.onNum f).skein = s.skein := rfl
@[simp] theorem State.onNum_freeCtr : (s.onNum f).freeCtr = s.freeCtr := rfl
end Num

section Stp
variable (s : State) (f : StpBlk → StpBlk)
@[simp] theorem State.onStp_pending : (s.onStp f).pending = s.pending := rfl
@[simp] theorem State.onStp_clk : (s.onStp f).clk = s.clk := rfl
@[simp] theorem State.onStp_tel : (s.onStp f).tel = s.tel := rfl
@[simp] theorem State.onStp_out : (s.onStp f).out = s.out := rfl
@[simp] theorem State.onStp_hub : (s.onStp f).hub = s.hub := rfl
@[simp] theorem State.onStp_weft : (s.onStp f).weft = s.weft := rfl
@[simp] theorem State.onStp_mod : (s.onStp f).mod = s.mod := rfl
@[simp] theorem State.onStp_jtag : (s.onStp f).jtag = s.jtag := rfl
@[simp] theorem State.onStp_i3c : (s.onStp f).i3c = s.i3c := rfl
@[simp] theorem State.onStp_trd : (s.onStp f).trd = s.trd := rfl
@[simp] theorem State.onStp_flash : (s.onStp f).flash = s.flash := rfl
@[simp] theorem State.onStp_sec : (s.onStp f).sec = s.sec := rfl
@[simp] theorem State.onStp_spdm : (s.onStp f).spdm = s.spdm := rfl
@[simp] theorem State.onStp_warp : (s.onStp f).warp = s.warp := rfl
@[simp] theorem State.onStp_nep : (s.onStp f).nep = s.nep := rfl
@[simp] theorem State.onStp_num : (s.onStp f).num = s.num := rfl
@[simp] theorem State.onStp_stp : (s.onStp f).stp = f s.stp := rfl
@[simp] theorem State.onStp_bob : (s.onStp f).bob = s.bob := rfl
@[simp] theorem State.onStp_job : (s.onStp f).job = s.job := rfl
@[simp] theorem State.onStp_ply : (s.onStp f).ply = s.ply := rfl
@[simp] theorem State.onStp_reel : (s.onStp f).reel = s.reel := rfl
@[simp] theorem State.onStp_rov : (s.onStp f).rov = s.rov := rfl
@[simp] theorem State.onStp_skn : (s.onStp f).skn = s.skn := rfl
@[simp] theorem State.onStp_cores : (s.onStp f).cores = s.cores := rfl
@[simp] theorem State.onStp_acc : (s.onStp f).acc = s.acc := rfl
@[simp] theorem State.onStp_spool : (s.onStp f).spool = s.spool := rfl
@[simp] theorem State.onStp_creel : (s.onStp f).creel = s.creel := rfl
@[simp] theorem State.onStp_res : (s.onStp f).res = s.res := rfl
@[simp] theorem State.onStp_skein : (s.onStp f).skein = s.skein := rfl
@[simp] theorem State.onStp_freeCtr : (s.onStp f).freeCtr = s.freeCtr := rfl
end Stp

section Bob
variable (s : State) (f : BobBlk → BobBlk)
@[simp] theorem State.onBob_pending : (s.onBob f).pending = s.pending := rfl
@[simp] theorem State.onBob_clk : (s.onBob f).clk = s.clk := rfl
@[simp] theorem State.onBob_tel : (s.onBob f).tel = s.tel := rfl
@[simp] theorem State.onBob_out : (s.onBob f).out = s.out := rfl
@[simp] theorem State.onBob_hub : (s.onBob f).hub = s.hub := rfl
@[simp] theorem State.onBob_weft : (s.onBob f).weft = s.weft := rfl
@[simp] theorem State.onBob_mod : (s.onBob f).mod = s.mod := rfl
@[simp] theorem State.onBob_jtag : (s.onBob f).jtag = s.jtag := rfl
@[simp] theorem State.onBob_i3c : (s.onBob f).i3c = s.i3c := rfl
@[simp] theorem State.onBob_trd : (s.onBob f).trd = s.trd := rfl
@[simp] theorem State.onBob_flash : (s.onBob f).flash = s.flash := rfl
@[simp] theorem State.onBob_sec : (s.onBob f).sec = s.sec := rfl
@[simp] theorem State.onBob_spdm : (s.onBob f).spdm = s.spdm := rfl
@[simp] theorem State.onBob_warp : (s.onBob f).warp = s.warp := rfl
@[simp] theorem State.onBob_nep : (s.onBob f).nep = s.nep := rfl
@[simp] theorem State.onBob_num : (s.onBob f).num = s.num := rfl
@[simp] theorem State.onBob_stp : (s.onBob f).stp = s.stp := rfl
@[simp] theorem State.onBob_bob : (s.onBob f).bob = f s.bob := rfl
@[simp] theorem State.onBob_job : (s.onBob f).job = s.job := rfl
@[simp] theorem State.onBob_ply : (s.onBob f).ply = s.ply := rfl
@[simp] theorem State.onBob_reel : (s.onBob f).reel = s.reel := rfl
@[simp] theorem State.onBob_rov : (s.onBob f).rov = s.rov := rfl
@[simp] theorem State.onBob_skn : (s.onBob f).skn = s.skn := rfl
@[simp] theorem State.onBob_cores : (s.onBob f).cores = s.cores := rfl
@[simp] theorem State.onBob_acc : (s.onBob f).acc = s.acc := rfl
@[simp] theorem State.onBob_spool : (s.onBob f).spool = s.spool := rfl
@[simp] theorem State.onBob_creel : (s.onBob f).creel = s.creel := rfl
@[simp] theorem State.onBob_res : (s.onBob f).res = s.res := rfl
@[simp] theorem State.onBob_skein : (s.onBob f).skein = s.skein := rfl
@[simp] theorem State.onBob_freeCtr : (s.onBob f).freeCtr = s.freeCtr := rfl
end Bob

section Job
variable (s : State) (f : JobBlk → JobBlk)
@[simp] theorem State.onJob_pending : (s.onJob f).pending = s.pending := rfl
@[simp] theorem State.onJob_clk : (s.onJob f).clk = s.clk := rfl
@[simp] theorem State.onJob_tel : (s.onJob f).tel = s.tel := rfl
@[simp] theorem State.onJob_out : (s.onJob f).out = s.out := rfl
@[simp] theorem State.onJob_hub : (s.onJob f).hub = s.hub := rfl
@[simp] theorem State.onJob_weft : (s.onJob f).weft = s.weft := rfl
@[simp] theorem State.onJob_mod : (s.onJob f).mod = s.mod := rfl
@[simp] theorem State.onJob_jtag : (s.onJob f).jtag = s.jtag := rfl
@[simp] theorem State.onJob_i3c : (s.onJob f).i3c = s.i3c := rfl
@[simp] theorem State.onJob_trd : (s.onJob f).trd = s.trd := rfl
@[simp] theorem State.onJob_flash : (s.onJob f).flash = s.flash := rfl
@[simp] theorem State.onJob_sec : (s.onJob f).sec = s.sec := rfl
@[simp] theorem State.onJob_spdm : (s.onJob f).spdm = s.spdm := rfl
@[simp] theorem State.onJob_warp : (s.onJob f).warp = s.warp := rfl
@[simp] theorem State.onJob_nep : (s.onJob f).nep = s.nep := rfl
@[simp] theorem State.onJob_num : (s.onJob f).num = s.num := rfl
@[simp] theorem State.onJob_stp : (s.onJob f).stp = s.stp := rfl
@[simp] theorem State.onJob_bob : (s.onJob f).bob = s.bob := rfl
@[simp] theorem State.onJob_job : (s.onJob f).job = f s.job := rfl
@[simp] theorem State.onJob_ply : (s.onJob f).ply = s.ply := rfl
@[simp] theorem State.onJob_reel : (s.onJob f).reel = s.reel := rfl
@[simp] theorem State.onJob_rov : (s.onJob f).rov = s.rov := rfl
@[simp] theorem State.onJob_skn : (s.onJob f).skn = s.skn := rfl
@[simp] theorem State.onJob_cores : (s.onJob f).cores = s.cores := rfl
@[simp] theorem State.onJob_acc : (s.onJob f).acc = s.acc := rfl
@[simp] theorem State.onJob_spool : (s.onJob f).spool = s.spool := rfl
@[simp] theorem State.onJob_creel : (s.onJob f).creel = s.creel := rfl
@[simp] theorem State.onJob_res : (s.onJob f).res = s.res := rfl
@[simp] theorem State.onJob_skein : (s.onJob f).skein = s.skein := rfl
@[simp] theorem State.onJob_freeCtr : (s.onJob f).freeCtr = s.freeCtr := rfl
end Job

section Ply
variable (s : State) (f : PlyBlk → PlyBlk)
@[simp] theorem State.onPly_pending : (s.onPly f).pending = s.pending := rfl
@[simp] theorem State.onPly_clk : (s.onPly f).clk = s.clk := rfl
@[simp] theorem State.onPly_tel : (s.onPly f).tel = s.tel := rfl
@[simp] theorem State.onPly_out : (s.onPly f).out = s.out := rfl
@[simp] theorem State.onPly_hub : (s.onPly f).hub = s.hub := rfl
@[simp] theorem State.onPly_weft : (s.onPly f).weft = s.weft := rfl
@[simp] theorem State.onPly_mod : (s.onPly f).mod = s.mod := rfl
@[simp] theorem State.onPly_jtag : (s.onPly f).jtag = s.jtag := rfl
@[simp] theorem State.onPly_i3c : (s.onPly f).i3c = s.i3c := rfl
@[simp] theorem State.onPly_trd : (s.onPly f).trd = s.trd := rfl
@[simp] theorem State.onPly_flash : (s.onPly f).flash = s.flash := rfl
@[simp] theorem State.onPly_sec : (s.onPly f).sec = s.sec := rfl
@[simp] theorem State.onPly_spdm : (s.onPly f).spdm = s.spdm := rfl
@[simp] theorem State.onPly_warp : (s.onPly f).warp = s.warp := rfl
@[simp] theorem State.onPly_nep : (s.onPly f).nep = s.nep := rfl
@[simp] theorem State.onPly_num : (s.onPly f).num = s.num := rfl
@[simp] theorem State.onPly_stp : (s.onPly f).stp = s.stp := rfl
@[simp] theorem State.onPly_bob : (s.onPly f).bob = s.bob := rfl
@[simp] theorem State.onPly_job : (s.onPly f).job = s.job := rfl
@[simp] theorem State.onPly_ply : (s.onPly f).ply = f s.ply := rfl
@[simp] theorem State.onPly_reel : (s.onPly f).reel = s.reel := rfl
@[simp] theorem State.onPly_rov : (s.onPly f).rov = s.rov := rfl
@[simp] theorem State.onPly_skn : (s.onPly f).skn = s.skn := rfl
@[simp] theorem State.onPly_cores : (s.onPly f).cores = s.cores := rfl
@[simp] theorem State.onPly_acc : (s.onPly f).acc = s.acc := rfl
@[simp] theorem State.onPly_spool : (s.onPly f).spool = s.spool := rfl
@[simp] theorem State.onPly_creel : (s.onPly f).creel = s.creel := rfl
@[simp] theorem State.onPly_res : (s.onPly f).res = s.res := rfl
@[simp] theorem State.onPly_skein : (s.onPly f).skein = s.skein := rfl
@[simp] theorem State.onPly_freeCtr : (s.onPly f).freeCtr = s.freeCtr := rfl
end Ply

section Reel
variable (s : State) (f : ReelBlk → ReelBlk)
@[simp] theorem State.onReel_pending : (s.onReel f).pending = s.pending := rfl
@[simp] theorem State.onReel_clk : (s.onReel f).clk = s.clk := rfl
@[simp] theorem State.onReel_tel : (s.onReel f).tel = s.tel := rfl
@[simp] theorem State.onReel_out : (s.onReel f).out = s.out := rfl
@[simp] theorem State.onReel_hub : (s.onReel f).hub = s.hub := rfl
@[simp] theorem State.onReel_weft : (s.onReel f).weft = s.weft := rfl
@[simp] theorem State.onReel_mod : (s.onReel f).mod = s.mod := rfl
@[simp] theorem State.onReel_jtag : (s.onReel f).jtag = s.jtag := rfl
@[simp] theorem State.onReel_i3c : (s.onReel f).i3c = s.i3c := rfl
@[simp] theorem State.onReel_trd : (s.onReel f).trd = s.trd := rfl
@[simp] theorem State.onReel_flash : (s.onReel f).flash = s.flash := rfl
@[simp] theorem State.onReel_sec : (s.onReel f).sec = s.sec := rfl
@[simp] theorem State.onReel_spdm : (s.onReel f).spdm = s.spdm := rfl
@[simp] theorem State.onReel_warp : (s.onReel f).warp = s.warp := rfl
@[simp] theorem State.onReel_nep : (s.onReel f).nep = s.nep := rfl
@[simp] theorem State.onReel_num : (s.onReel f).num = s.num := rfl
@[simp] theorem State.onReel_stp : (s.onReel f).stp = s.stp := rfl
@[simp] theorem State.onReel_bob : (s.onReel f).bob = s.bob := rfl
@[simp] theorem State.onReel_job : (s.onReel f).job = s.job := rfl
@[simp] theorem State.onReel_ply : (s.onReel f).ply = s.ply := rfl
@[simp] theorem State.onReel_reel : (s.onReel f).reel = f s.reel := rfl
@[simp] theorem State.onReel_rov : (s.onReel f).rov = s.rov := rfl
@[simp] theorem State.onReel_skn : (s.onReel f).skn = s.skn := rfl
@[simp] theorem State.onReel_cores : (s.onReel f).cores = s.cores := rfl
@[simp] theorem State.onReel_acc : (s.onReel f).acc = s.acc := rfl
@[simp] theorem State.onReel_spool : (s.onReel f).spool = s.spool := rfl
@[simp] theorem State.onReel_creel : (s.onReel f).creel = s.creel := rfl
@[simp] theorem State.onReel_res : (s.onReel f).res = s.res := rfl
@[simp] theorem State.onReel_skein : (s.onReel f).skein = s.skein := rfl
@[simp] theorem State.onReel_freeCtr : (s.onReel f).freeCtr = s.freeCtr := rfl
end Reel

section Rov
variable (s : State) (f : RovBlk → RovBlk)
@[simp] theorem State.onRov_pending : (s.onRov f).pending = s.pending := rfl
@[simp] theorem State.onRov_clk : (s.onRov f).clk = s.clk := rfl
@[simp] theorem State.onRov_tel : (s.onRov f).tel = s.tel := rfl
@[simp] theorem State.onRov_out : (s.onRov f).out = s.out := rfl
@[simp] theorem State.onRov_hub : (s.onRov f).hub = s.hub := rfl
@[simp] theorem State.onRov_weft : (s.onRov f).weft = s.weft := rfl
@[simp] theorem State.onRov_mod : (s.onRov f).mod = s.mod := rfl
@[simp] theorem State.onRov_jtag : (s.onRov f).jtag = s.jtag := rfl
@[simp] theorem State.onRov_i3c : (s.onRov f).i3c = s.i3c := rfl
@[simp] theorem State.onRov_trd : (s.onRov f).trd = s.trd := rfl
@[simp] theorem State.onRov_flash : (s.onRov f).flash = s.flash := rfl
@[simp] theorem State.onRov_sec : (s.onRov f).sec = s.sec := rfl
@[simp] theorem State.onRov_spdm : (s.onRov f).spdm = s.spdm := rfl
@[simp] theorem State.onRov_warp : (s.onRov f).warp = s.warp := rfl
@[simp] theorem State.onRov_nep : (s.onRov f).nep = s.nep := rfl
@[simp] theorem State.onRov_num : (s.onRov f).num = s.num := rfl
@[simp] theorem State.onRov_stp : (s.onRov f).stp = s.stp := rfl
@[simp] theorem State.onRov_bob : (s.onRov f).bob = s.bob := rfl
@[simp] theorem State.onRov_job : (s.onRov f).job = s.job := rfl
@[simp] theorem State.onRov_ply : (s.onRov f).ply = s.ply := rfl
@[simp] theorem State.onRov_reel : (s.onRov f).reel = s.reel := rfl
@[simp] theorem State.onRov_rov : (s.onRov f).rov = f s.rov := rfl
@[simp] theorem State.onRov_skn : (s.onRov f).skn = s.skn := rfl
@[simp] theorem State.onRov_cores : (s.onRov f).cores = s.cores := rfl
@[simp] theorem State.onRov_acc : (s.onRov f).acc = s.acc := rfl
@[simp] theorem State.onRov_spool : (s.onRov f).spool = s.spool := rfl
@[simp] theorem State.onRov_creel : (s.onRov f).creel = s.creel := rfl
@[simp] theorem State.onRov_res : (s.onRov f).res = s.res := rfl
@[simp] theorem State.onRov_skein : (s.onRov f).skein = s.skein := rfl
@[simp] theorem State.onRov_freeCtr : (s.onRov f).freeCtr = s.freeCtr := rfl
end Rov

section Skn
variable (s : State) (f : SknBlk → SknBlk)
@[simp] theorem State.onSkn_pending : (s.onSkn f).pending = s.pending := rfl
@[simp] theorem State.onSkn_clk : (s.onSkn f).clk = s.clk := rfl
@[simp] theorem State.onSkn_tel : (s.onSkn f).tel = s.tel := rfl
@[simp] theorem State.onSkn_out : (s.onSkn f).out = s.out := rfl
@[simp] theorem State.onSkn_hub : (s.onSkn f).hub = s.hub := rfl
@[simp] theorem State.onSkn_weft : (s.onSkn f).weft = s.weft := rfl
@[simp] theorem State.onSkn_mod : (s.onSkn f).mod = s.mod := rfl
@[simp] theorem State.onSkn_jtag : (s.onSkn f).jtag = s.jtag := rfl
@[simp] theorem State.onSkn_i3c : (s.onSkn f).i3c = s.i3c := rfl
@[simp] theorem State.onSkn_trd : (s.onSkn f).trd = s.trd := rfl
@[simp] theorem State.onSkn_flash : (s.onSkn f).flash = s.flash := rfl
@[simp] theorem State.onSkn_sec : (s.onSkn f).sec = s.sec := rfl
@[simp] theorem State.onSkn_spdm : (s.onSkn f).spdm = s.spdm := rfl
@[simp] theorem State.onSkn_warp : (s.onSkn f).warp = s.warp := rfl
@[simp] theorem State.onSkn_nep : (s.onSkn f).nep = s.nep := rfl
@[simp] theorem State.onSkn_num : (s.onSkn f).num = s.num := rfl
@[simp] theorem State.onSkn_stp : (s.onSkn f).stp = s.stp := rfl
@[simp] theorem State.onSkn_bob : (s.onSkn f).bob = s.bob := rfl
@[simp] theorem State.onSkn_job : (s.onSkn f).job = s.job := rfl
@[simp] theorem State.onSkn_ply : (s.onSkn f).ply = s.ply := rfl
@[simp] theorem State.onSkn_reel : (s.onSkn f).reel = s.reel := rfl
@[simp] theorem State.onSkn_rov : (s.onSkn f).rov = s.rov := rfl
@[simp] theorem State.onSkn_skn : (s.onSkn f).skn = f s.skn := rfl
@[simp] theorem State.onSkn_cores : (s.onSkn f).cores = s.cores := rfl
@[simp] theorem State.onSkn_acc : (s.onSkn f).acc = s.acc := rfl
@[simp] theorem State.onSkn_spool : (s.onSkn f).spool = s.spool := rfl
@[simp] theorem State.onSkn_creel : (s.onSkn f).creel = s.creel := rfl
@[simp] theorem State.onSkn_res : (s.onSkn f).res = s.res := rfl
@[simp] theorem State.onSkn_skein : (s.onSkn f).skein = s.skein := rfl
@[simp] theorem State.onSkn_freeCtr : (s.onSkn f).freeCtr = s.freeCtr := rfl
end Skn

section Res
variable (s : State) (f : ResBlk → ResBlk)
@[simp] theorem State.onRes_pending : (s.onRes f).pending = s.pending := rfl
@[simp] theorem State.onRes_clk : (s.onRes f).clk = s.clk := rfl
@[simp] theorem State.onRes_tel : (s.onRes f).tel = s.tel := rfl
@[simp] theorem State.onRes_out : (s.onRes f).out = s.out := rfl
@[simp] theorem State.onRes_hub : (s.onRes f).hub = s.hub := rfl
@[simp] theorem State.onRes_weft : (s.onRes f).weft = s.weft := rfl
@[simp] theorem State.onRes_mod : (s.onRes f).mod = s.mod := rfl
@[simp] theorem State.onRes_jtag : (s.onRes f).jtag = s.jtag := rfl
@[simp] theorem State.onRes_i3c : (s.onRes f).i3c = s.i3c := rfl
@[simp] theorem State.onRes_trd : (s.onRes f).trd = s.trd := rfl
@[simp] theorem State.onRes_flash : (s.onRes f).flash = s.flash := rfl
@[simp] theorem State.onRes_sec : (s.onRes f).sec = s.sec := rfl
@[simp] theorem State.onRes_spdm : (s.onRes f).spdm = s.spdm := rfl
@[simp] theorem State.onRes_warp : (s.onRes f).warp = s.warp := rfl
@[simp] theorem State.onRes_nep : (s.onRes f).nep = s.nep := rfl
@[simp] theorem State.onRes_num : (s.onRes f).num = s.num := rfl
@[simp] theorem State.onRes_stp : (s.onRes f).stp = s.stp := rfl
@[simp] theorem State.onRes_bob : (s.onRes f).bob = s.bob := rfl
@[simp] theorem State.onRes_job : (s.onRes f).job = s.job := rfl
@[simp] theorem State.onRes_ply : (s.onRes f).ply = s.ply := rfl
@[simp] theorem State.onRes_reel : (s.onRes f).reel = s.reel := rfl
@[simp] theorem State.onRes_rov : (s.onRes f).rov = s.rov := rfl
@[simp] theorem State.onRes_skn : (s.onRes f).skn = s.skn := rfl
@[simp] theorem State.onRes_cores : (s.onRes f).cores = s.cores := rfl
@[simp] theorem State.onRes_acc : (s.onRes f).acc = s.acc := rfl
@[simp] theorem State.onRes_spool : (s.onRes f).spool = s.spool := rfl
@[simp] theorem State.onRes_creel : (s.onRes f).creel = s.creel := rfl
@[simp] theorem State.onRes_res : (s.onRes f).res = f s.res := rfl
@[simp] theorem State.onRes_skein : (s.onRes f).skein = s.skein := rfl
@[simp] theorem State.onRes_freeCtr : (s.onRes f).freeCtr = s.freeCtr := rfl
end Res

@[simp] theorem raiseAt_pending (b : Nat) (c : Half) (p : List Nat) (s : State) : (raiseAt b c p s).pending = s.pending := rfl
@[simp] theorem raiseAt_clk (b : Nat) (c : Half) (p : List Nat) (s : State) : (raiseAt b c p s).clk = s.clk := rfl
@[simp] theorem raiseAt_out (b : Nat) (c : Half) (p : List Nat) (s : State) : (raiseAt b c p s).out = s.out := rfl
@[simp] theorem raiseAt_hub (b : Nat) (c : Half) (p : List Nat) (s : State) : (raiseAt b c p s).hub = s.hub := rfl
@[simp] theorem raiseAt_weft (b : Nat) (c : Half) (p : List Nat) (s : State) : (raiseAt b c p s).weft = s.weft := rfl
@[simp] theorem raiseAt_mod (b : Nat) (c : Half) (p : List Nat) (s : State) : (raiseAt b c p s).mod = s.mod := rfl
@[simp] theorem raiseAt_jtag (b : Nat) (c : Half) (p : List Nat) (s : State) : (raiseAt b c p s).jtag = s.jtag := rfl
@[simp] theorem raiseAt_i3c (b : Nat) (c : Half) (p : List Nat) (s : State) : (raiseAt b c p s).i3c = s.i3c := rfl
@[simp] theorem raiseAt_trd (b : Nat) (c : Half) (p : List Nat) (s : State) : (raiseAt b c p s).trd = s.trd := rfl
@[simp] theorem raiseAt_flash (b : Nat) (c : Half) (p : List Nat) (s : State) : (raiseAt b c p s).flash = s.flash := rfl
@[simp] theorem raiseAt_sec (b : Nat) (c : Half) (p : List Nat) (s : State) : (raiseAt b c p s).sec = s.sec := rfl
@[simp] theorem raiseAt_spdm (b : Nat) (c : Half) (p : List Nat) (s : State) : (raiseAt b c p s).spdm = s.spdm := rfl
@[simp] theorem raiseAt_warp (b : Nat) (c : Half) (p : List Nat) (s : State) : (raiseAt b c p s).warp = s.warp := rfl
@[simp] theorem raiseAt_nep (b : Nat) (c : Half) (p : List Nat) (s : State) : (raiseAt b c p s).nep = s.nep := rfl
@[simp] theorem raiseAt_num (b : Nat) (c : Half) (p : List Nat) (s : State) : (raiseAt b c p s).num = s.num := rfl
@[simp] theorem raiseAt_stp (b : Nat) (c : Half) (p : List Nat) (s : State) : (raiseAt b c p s).stp = s.stp := rfl
@[simp] theorem raiseAt_bob (b : Nat) (c : Half) (p : List Nat) (s : State) : (raiseAt b c p s).bob = s.bob := rfl
@[simp] theorem raiseAt_job (b : Nat) (c : Half) (p : List Nat) (s : State) : (raiseAt b c p s).job = s.job := rfl
@[simp] theorem raiseAt_ply (b : Nat) (c : Half) (p : List Nat) (s : State) : (raiseAt b c p s).ply = s.ply := rfl
@[simp] theorem raiseAt_reel (b : Nat) (c : Half) (p : List Nat) (s : State) : (raiseAt b c p s).reel = s.reel := rfl
@[simp] theorem raiseAt_rov (b : Nat) (c : Half) (p : List Nat) (s : State) : (raiseAt b c p s).rov = s.rov := rfl
@[simp] theorem raiseAt_skn (b : Nat) (c : Half) (p : List Nat) (s : State) : (raiseAt b c p s).skn = s.skn := rfl
@[simp] theorem raiseAt_cores (b : Nat) (c : Half) (p : List Nat) (s : State) : (raiseAt b c p s).cores = s.cores := rfl
@[simp] theorem raiseAt_acc (b : Nat) (c : Half) (p : List Nat) (s : State) : (raiseAt b c p s).acc = s.acc := rfl
@[simp] theorem raiseAt_spool (b : Nat) (c : Half) (p : List Nat) (s : State) : (raiseAt b c p s).spool = s.spool := rfl
@[simp] theorem raiseAt_creel (b : Nat) (c : Half) (p : List Nat) (s : State) : (raiseAt b c p s).creel = s.creel := rfl
@[simp] theorem raiseAt_res (b : Nat) (c : Half) (p : List Nat) (s : State) : (raiseAt b c p s).res = s.res := rfl
@[simp] theorem raiseAt_skein (b : Nat) (c : Half) (p : List Nat) (s : State) : (raiseAt b c p s).skein = s.skein := rfl
@[simp] theorem raiseAt_freeCtr (b : Nat) (c : Half) (p : List Nat) (s : State) : (raiseAt b c p s).freeCtr = s.freeCtr := rfl
@[simp] theorem raise_pending (c : Half) (p : List Nat) (s : State) : (raise c p s).pending = s.pending := rfl
@[simp] theorem raise_clk (c : Half) (p : List Nat) (s : State) : (raise c p s).clk = s.clk := rfl
@[simp] theorem raise_out (c : Half) (p : List Nat) (s : State) : (raise c p s).out = s.out := rfl
@[simp] theorem raise_hub (c : Half) (p : List Nat) (s : State) : (raise c p s).hub = s.hub := rfl
@[simp] theorem raise_weft (c : Half) (p : List Nat) (s : State) : (raise c p s).weft = s.weft := rfl
@[simp] theorem raise_mod (c : Half) (p : List Nat) (s : State) : (raise c p s).mod = s.mod := rfl
@[simp] theorem raise_jtag (c : Half) (p : List Nat) (s : State) : (raise c p s).jtag = s.jtag := rfl
@[simp] theorem raise_i3c (c : Half) (p : List Nat) (s : State) : (raise c p s).i3c = s.i3c := rfl
@[simp] theorem raise_trd (c : Half) (p : List Nat) (s : State) : (raise c p s).trd = s.trd := rfl
@[simp] theorem raise_flash (c : Half) (p : List Nat) (s : State) : (raise c p s).flash = s.flash := rfl
@[simp] theorem raise_sec (c : Half) (p : List Nat) (s : State) : (raise c p s).sec = s.sec := rfl
@[simp] theorem raise_spdm (c : Half) (p : List Nat) (s : State) : (raise c p s).spdm = s.spdm := rfl
@[simp] theorem raise_warp (c : Half) (p : List Nat) (s : State) : (raise c p s).warp = s.warp := rfl
@[simp] theorem raise_nep (c : Half) (p : List Nat) (s : State) : (raise c p s).nep = s.nep := rfl
@[simp] theorem raise_num (c : Half) (p : List Nat) (s : State) : (raise c p s).num = s.num := rfl
@[simp] theorem raise_stp (c : Half) (p : List Nat) (s : State) : (raise c p s).stp = s.stp := rfl
@[simp] theorem raise_bob (c : Half) (p : List Nat) (s : State) : (raise c p s).bob = s.bob := rfl
@[simp] theorem raise_job (c : Half) (p : List Nat) (s : State) : (raise c p s).job = s.job := rfl
@[simp] theorem raise_ply (c : Half) (p : List Nat) (s : State) : (raise c p s).ply = s.ply := rfl
@[simp] theorem raise_reel (c : Half) (p : List Nat) (s : State) : (raise c p s).reel = s.reel := rfl
@[simp] theorem raise_rov (c : Half) (p : List Nat) (s : State) : (raise c p s).rov = s.rov := rfl
@[simp] theorem raise_skn (c : Half) (p : List Nat) (s : State) : (raise c p s).skn = s.skn := rfl
@[simp] theorem raise_cores (c : Half) (p : List Nat) (s : State) : (raise c p s).cores = s.cores := rfl
@[simp] theorem raise_acc (c : Half) (p : List Nat) (s : State) : (raise c p s).acc = s.acc := rfl
@[simp] theorem raise_spool (c : Half) (p : List Nat) (s : State) : (raise c p s).spool = s.spool := rfl
@[simp] theorem raise_creel (c : Half) (p : List Nat) (s : State) : (raise c p s).creel = s.creel := rfl
@[simp] theorem raise_res (c : Half) (p : List Nat) (s : State) : (raise c p s).res = s.res := rfl
@[simp] theorem raise_skein (c : Half) (p : List Nat) (s : State) : (raise c p s).skein = s.skein := rfl
@[simp] theorem raise_freeCtr (c : Half) (p : List Nat) (s : State) : (raise c p s).freeCtr = s.freeCtr := rfl
@[simp] theorem raiseExec_pending (c : Half) (p : List Nat) (s : State) : (raiseExec c p s).pending = s.pending := rfl
@[simp] theorem raiseExec_clk (c : Half) (p : List Nat) (s : State) : (raiseExec c p s).clk = s.clk := rfl
@[simp] theorem raiseExec_out (c : Half) (p : List Nat) (s : State) : (raiseExec c p s).out = s.out := rfl
@[simp] theorem raiseExec_hub (c : Half) (p : List Nat) (s : State) : (raiseExec c p s).hub = s.hub := rfl
@[simp] theorem raiseExec_weft (c : Half) (p : List Nat) (s : State) : (raiseExec c p s).weft = s.weft := rfl
@[simp] theorem raiseExec_mod (c : Half) (p : List Nat) (s : State) : (raiseExec c p s).mod = s.mod := rfl
@[simp] theorem raiseExec_jtag (c : Half) (p : List Nat) (s : State) : (raiseExec c p s).jtag = s.jtag := rfl
@[simp] theorem raiseExec_i3c (c : Half) (p : List Nat) (s : State) : (raiseExec c p s).i3c = s.i3c := rfl
@[simp] theorem raiseExec_trd (c : Half) (p : List Nat) (s : State) : (raiseExec c p s).trd = s.trd := rfl
@[simp] theorem raiseExec_flash (c : Half) (p : List Nat) (s : State) : (raiseExec c p s).flash = s.flash := rfl
@[simp] theorem raiseExec_sec (c : Half) (p : List Nat) (s : State) : (raiseExec c p s).sec = s.sec := rfl
@[simp] theorem raiseExec_spdm (c : Half) (p : List Nat) (s : State) : (raiseExec c p s).spdm = s.spdm := rfl
@[simp] theorem raiseExec_warp (c : Half) (p : List Nat) (s : State) : (raiseExec c p s).warp = s.warp := rfl
@[simp] theorem raiseExec_nep (c : Half) (p : List Nat) (s : State) : (raiseExec c p s).nep = s.nep := rfl
@[simp] theorem raiseExec_num (c : Half) (p : List Nat) (s : State) : (raiseExec c p s).num = s.num := rfl
@[simp] theorem raiseExec_stp (c : Half) (p : List Nat) (s : State) : (raiseExec c p s).stp = s.stp := rfl
@[simp] theorem raiseExec_bob (c : Half) (p : List Nat) (s : State) : (raiseExec c p s).bob = s.bob := rfl
@[simp] theorem raiseExec_job (c : Half) (p : List Nat) (s : State) : (raiseExec c p s).job = s.job := rfl
@[simp] theorem raiseExec_ply (c : Half) (p : List Nat) (s : State) : (raiseExec c p s).ply = s.ply := rfl
@[simp] theorem raiseExec_reel (c : Half) (p : List Nat) (s : State) : (raiseExec c p s).reel = s.reel := rfl
@[simp] theorem raiseExec_rov (c : Half) (p : List Nat) (s : State) : (raiseExec c p s).rov = s.rov := rfl
@[simp] theorem raiseExec_skn (c : Half) (p : List Nat) (s : State) : (raiseExec c p s).skn = s.skn := rfl
@[simp] theorem raiseExec_cores (c : Half) (p : List Nat) (s : State) : (raiseExec c p s).cores = s.cores := rfl
@[simp] theorem raiseExec_acc (c : Half) (p : List Nat) (s : State) : (raiseExec c p s).acc = s.acc := rfl
@[simp] theorem raiseExec_spool (c : Half) (p : List Nat) (s : State) : (raiseExec c p s).spool = s.spool := rfl
@[simp] theorem raiseExec_creel (c : Half) (p : List Nat) (s : State) : (raiseExec c p s).creel = s.creel := rfl
@[simp] theorem raiseExec_res (c : Half) (p : List Nat) (s : State) : (raiseExec c p s).res = s.res := rfl
@[simp] theorem raiseExec_skein (c : Half) (p : List Nat) (s : State) : (raiseExec c p s).skein = s.skein := rfl
@[simp] theorem raiseExec_freeCtr (c : Half) (p : List Nat) (s : State) : (raiseExec c p s).freeCtr = s.freeCtr := rfl
@[simp] theorem raiseIf_pending (b : Bool) (c : Half) (p : List Nat) (s : State) : (raiseIf b c p s).pending = s.pending := by cases b <;> rfl
@[simp] theorem raiseIf_clk (b : Bool) (c : Half) (p : List Nat) (s : State) : (raiseIf b c p s).clk = s.clk := by cases b <;> rfl
@[simp] theorem raiseIf_out (b : Bool) (c : Half) (p : List Nat) (s : State) : (raiseIf b c p s).out = s.out := by cases b <;> rfl
@[simp] theorem raiseIf_hub (b : Bool) (c : Half) (p : List Nat) (s : State) : (raiseIf b c p s).hub = s.hub := by cases b <;> rfl
@[simp] theorem raiseIf_weft (b : Bool) (c : Half) (p : List Nat) (s : State) : (raiseIf b c p s).weft = s.weft := by cases b <;> rfl
@[simp] theorem raiseIf_mod (b : Bool) (c : Half) (p : List Nat) (s : State) : (raiseIf b c p s).mod = s.mod := by cases b <;> rfl
@[simp] theorem raiseIf_jtag (b : Bool) (c : Half) (p : List Nat) (s : State) : (raiseIf b c p s).jtag = s.jtag := by cases b <;> rfl
@[simp] theorem raiseIf_i3c (b : Bool) (c : Half) (p : List Nat) (s : State) : (raiseIf b c p s).i3c = s.i3c := by cases b <;> rfl
@[simp] theorem raiseIf_trd (b : Bool) (c : Half) (p : List Nat) (s : State) : (raiseIf b c p s).trd = s.trd := by cases b <;> rfl
@[simp] theorem raiseIf_flash (b : Bool) (c : Half) (p : List Nat) (s : State) : (raiseIf b c p s).flash = s.flash := by cases b <;> rfl
@[simp] theorem raiseIf_sec (b : Bool) (c : Half) (p : List Nat) (s : State) : (raiseIf b c p s).sec = s.sec := by cases b <;> rfl
@[simp] theorem raiseIf_spdm (b : Bool) (c : Half) (p : List Nat) (s : State) : (raiseIf b c p s).spdm = s.spdm := by cases b <;> rfl
@[simp] theorem raiseIf_warp (b : Bool) (c : Half) (p : List Nat) (s : State) : (raiseIf b c p s).warp = s.warp := by cases b <;> rfl
@[simp] theorem raiseIf_nep (b : Bool) (c : Half) (p : List Nat) (s : State) : (raiseIf b c p s).nep = s.nep := by cases b <;> rfl
@[simp] theorem raiseIf_num (b : Bool) (c : Half) (p : List Nat) (s : State) : (raiseIf b c p s).num = s.num := by cases b <;> rfl
@[simp] theorem raiseIf_stp (b : Bool) (c : Half) (p : List Nat) (s : State) : (raiseIf b c p s).stp = s.stp := by cases b <;> rfl
@[simp] theorem raiseIf_bob (b : Bool) (c : Half) (p : List Nat) (s : State) : (raiseIf b c p s).bob = s.bob := by cases b <;> rfl
@[simp] theorem raiseIf_job (b : Bool) (c : Half) (p : List Nat) (s : State) : (raiseIf b c p s).job = s.job := by cases b <;> rfl
@[simp] theorem raiseIf_ply (b : Bool) (c : Half) (p : List Nat) (s : State) : (raiseIf b c p s).ply = s.ply := by cases b <;> rfl
@[simp] theorem raiseIf_reel (b : Bool) (c : Half) (p : List Nat) (s : State) : (raiseIf b c p s).reel = s.reel := by cases b <;> rfl
@[simp] theorem raiseIf_rov (b : Bool) (c : Half) (p : List Nat) (s : State) : (raiseIf b c p s).rov = s.rov := by cases b <;> rfl
@[simp] theorem raiseIf_skn (b : Bool) (c : Half) (p : List Nat) (s : State) : (raiseIf b c p s).skn = s.skn := by cases b <;> rfl
@[simp] theorem raiseIf_cores (b : Bool) (c : Half) (p : List Nat) (s : State) : (raiseIf b c p s).cores = s.cores := by cases b <;> rfl
@[simp] theorem raiseIf_acc (b : Bool) (c : Half) (p : List Nat) (s : State) : (raiseIf b c p s).acc = s.acc := by cases b <;> rfl
@[simp] theorem raiseIf_spool (b : Bool) (c : Half) (p : List Nat) (s : State) : (raiseIf b c p s).spool = s.spool := by cases b <;> rfl
@[simp] theorem raiseIf_creel (b : Bool) (c : Half) (p : List Nat) (s : State) : (raiseIf b c p s).creel = s.creel := by cases b <;> rfl
@[simp] theorem raiseIf_res (b : Bool) (c : Half) (p : List Nat) (s : State) : (raiseIf b c p s).res = s.res := by cases b <;> rfl
@[simp] theorem raiseIf_skein (b : Bool) (c : Half) (p : List Nat) (s : State) : (raiseIf b c p s).skein = s.skein := by cases b <;> rfl
@[simp] theorem raiseIf_freeCtr (b : Bool) (c : Half) (p : List Nat) (s : State) : (raiseIf b c p s).freeCtr = s.freeCtr := by cases b <;> rfl
@[simp] theorem count_pending (b k n : Nat) (s : State) : (count b k n s).pending = s.pending := rfl
@[simp] theorem count_clk (b k n : Nat) (s : State) : (count b k n s).clk = s.clk := rfl
@[simp] theorem count_out (b k n : Nat) (s : State) : (count b k n s).out = s.out := rfl
@[simp] theorem count_hub (b k n : Nat) (s : State) : (count b k n s).hub = s.hub := rfl
@[simp] theorem count_weft (b k n : Nat) (s : State) : (count b k n s).weft = s.weft := rfl
@[simp] theorem count_mod (b k n : Nat) (s : State) : (count b k n s).mod = s.mod := rfl
@[simp] theorem count_jtag (b k n : Nat) (s : State) : (count b k n s).jtag = s.jtag := rfl
@[simp] theorem count_i3c (b k n : Nat) (s : State) : (count b k n s).i3c = s.i3c := rfl
@[simp] theorem count_trd (b k n : Nat) (s : State) : (count b k n s).trd = s.trd := rfl
@[simp] theorem count_flash (b k n : Nat) (s : State) : (count b k n s).flash = s.flash := rfl
@[simp] theorem count_sec (b k n : Nat) (s : State) : (count b k n s).sec = s.sec := rfl
@[simp] theorem count_spdm (b k n : Nat) (s : State) : (count b k n s).spdm = s.spdm := rfl
@[simp] theorem count_warp (b k n : Nat) (s : State) : (count b k n s).warp = s.warp := rfl
@[simp] theorem count_nep (b k n : Nat) (s : State) : (count b k n s).nep = s.nep := rfl
@[simp] theorem count_num (b k n : Nat) (s : State) : (count b k n s).num = s.num := rfl
@[simp] theorem count_stp (b k n : Nat) (s : State) : (count b k n s).stp = s.stp := rfl
@[simp] theorem count_bob (b k n : Nat) (s : State) : (count b k n s).bob = s.bob := rfl
@[simp] theorem count_job (b k n : Nat) (s : State) : (count b k n s).job = s.job := rfl
@[simp] theorem count_ply (b k n : Nat) (s : State) : (count b k n s).ply = s.ply := rfl
@[simp] theorem count_reel (b k n : Nat) (s : State) : (count b k n s).reel = s.reel := rfl
@[simp] theorem count_rov (b k n : Nat) (s : State) : (count b k n s).rov = s.rov := rfl
@[simp] theorem count_skn (b k n : Nat) (s : State) : (count b k n s).skn = s.skn := rfl
@[simp] theorem count_cores (b k n : Nat) (s : State) : (count b k n s).cores = s.cores := rfl
@[simp] theorem count_acc (b k n : Nat) (s : State) : (count b k n s).acc = s.acc := rfl
@[simp] theorem count_spool (b k n : Nat) (s : State) : (count b k n s).spool = s.spool := rfl
@[simp] theorem count_creel (b k n : Nat) (s : State) : (count b k n s).creel = s.creel := rfl
@[simp] theorem count_res (b k n : Nat) (s : State) : (count b k n s).res = s.res := rfl
@[simp] theorem count_skein (b k n : Nat) (s : State) : (count b k n s).skein = s.skein := rfl
@[simp] theorem count_freeCtr (b k n : Nat) (s : State) : (count b k n s).freeCtr = s.freeCtr := rfl
@[simp] theorem countEvt_pending (k : Nat) (s : State) : (countEvt k s).pending = s.pending := rfl
@[simp] theorem countEvt_clk (k : Nat) (s : State) : (countEvt k s).clk = s.clk := rfl
@[simp] theorem countEvt_out (k : Nat) (s : State) : (countEvt k s).out = s.out := rfl
@[simp] theorem countEvt_hub (k : Nat) (s : State) : (countEvt k s).hub = s.hub := rfl
@[simp] theorem countEvt_weft (k : Nat) (s : State) : (countEvt k s).weft = s.weft := rfl
@[simp] theorem countEvt_mod (k : Nat) (s : State) : (countEvt k s).mod = s.mod := rfl
@[simp] theorem countEvt_jtag (k : Nat) (s : State) : (countEvt k s).jtag = s.jtag := rfl
@[simp] theorem countEvt_i3c (k : Nat) (s : State) : (countEvt k s).i3c = s.i3c := rfl
@[simp] theorem countEvt_trd (k : Nat) (s : State) : (countEvt k s).trd = s.trd := rfl
@[simp] theorem countEvt_flash (k : Nat) (s : State) : (countEvt k s).flash = s.flash := rfl
@[simp] theorem countEvt_sec (k : Nat) (s : State) : (countEvt k s).sec = s.sec := rfl
@[simp] theorem countEvt_spdm (k : Nat) (s : State) : (countEvt k s).spdm = s.spdm := rfl
@[simp] theorem countEvt_warp (k : Nat) (s : State) : (countEvt k s).warp = s.warp := rfl
@[simp] theorem countEvt_nep (k : Nat) (s : State) : (countEvt k s).nep = s.nep := rfl
@[simp] theorem countEvt_num (k : Nat) (s : State) : (countEvt k s).num = s.num := rfl
@[simp] theorem countEvt_stp (k : Nat) (s : State) : (countEvt k s).stp = s.stp := rfl
@[simp] theorem countEvt_bob (k : Nat) (s : State) : (countEvt k s).bob = s.bob := rfl
@[simp] theorem countEvt_job (k : Nat) (s : State) : (countEvt k s).job = s.job := rfl
@[simp] theorem countEvt_ply (k : Nat) (s : State) : (countEvt k s).ply = s.ply := rfl
@[simp] theorem countEvt_reel (k : Nat) (s : State) : (countEvt k s).reel = s.reel := rfl
@[simp] theorem countEvt_rov (k : Nat) (s : State) : (countEvt k s).rov = s.rov := rfl
@[simp] theorem countEvt_skn (k : Nat) (s : State) : (countEvt k s).skn = s.skn := rfl
@[simp] theorem countEvt_cores (k : Nat) (s : State) : (countEvt k s).cores = s.cores := rfl
@[simp] theorem countEvt_acc (k : Nat) (s : State) : (countEvt k s).acc = s.acc := rfl
@[simp] theorem countEvt_spool (k : Nat) (s : State) : (countEvt k s).spool = s.spool := rfl
@[simp] theorem countEvt_creel (k : Nat) (s : State) : (countEvt k s).creel = s.creel := rfl
@[simp] theorem countEvt_res (k : Nat) (s : State) : (countEvt k s).res = s.res := rfl
@[simp] theorem countEvt_skein (k : Nat) (s : State) : (countEvt k s).skein = s.skein := rfl
@[simp] theorem countEvt_freeCtr (k : Nat) (s : State) : (countEvt k s).freeCtr = s.freeCtr := rfl
@[simp] theorem countErr_pending (k : Nat) (s : State) : (countErr k s).pending = s.pending := rfl
@[simp] theorem countErr_clk (k : Nat) (s : State) : (countErr k s).clk = s.clk := rfl
@[simp] theorem countErr_out (k : Nat) (s : State) : (countErr k s).out = s.out := rfl
@[simp] theorem countErr_hub (k : Nat) (s : State) : (countErr k s).hub = s.hub := rfl
@[simp] theorem countErr_weft (k : Nat) (s : State) : (countErr k s).weft = s.weft := rfl
@[simp] theorem countErr_mod (k : Nat) (s : State) : (countErr k s).mod = s.mod := rfl
@[simp] theorem countErr_jtag (k : Nat) (s : State) : (countErr k s).jtag = s.jtag := rfl
@[simp] theorem countErr_i3c (k : Nat) (s : State) : (countErr k s).i3c = s.i3c := rfl
@[simp] theorem countErr_trd (k : Nat) (s : State) : (countErr k s).trd = s.trd := rfl
@[simp] theorem countErr_flash (k : Nat) (s : State) : (countErr k s).flash = s.flash := rfl
@[simp] theorem countErr_sec (k : Nat) (s : State) : (countErr k s).sec = s.sec := rfl
@[simp] theorem countErr_spdm (k : Nat) (s : State) : (countErr k s).spdm = s.spdm := rfl
@[simp] theorem countErr_warp (k : Nat) (s : State) : (countErr k s).warp = s.warp := rfl
@[simp] theorem countErr_nep (k : Nat) (s : State) : (countErr k s).nep = s.nep := rfl
@[simp] theorem countErr_num (k : Nat) (s : State) : (countErr k s).num = s.num := rfl
@[simp] theorem countErr_stp (k : Nat) (s : State) : (countErr k s).stp = s.stp := rfl
@[simp] theorem countErr_bob (k : Nat) (s : State) : (countErr k s).bob = s.bob := rfl
@[simp] theorem countErr_job (k : Nat) (s : State) : (countErr k s).job = s.job := rfl
@[simp] theorem countErr_ply (k : Nat) (s : State) : (countErr k s).ply = s.ply := rfl
@[simp] theorem countErr_reel (k : Nat) (s : State) : (countErr k s).reel = s.reel := rfl
@[simp] theorem countErr_rov (k : Nat) (s : State) : (countErr k s).rov = s.rov := rfl
@[simp] theorem countErr_skn (k : Nat) (s : State) : (countErr k s).skn = s.skn := rfl
@[simp] theorem countErr_cores (k : Nat) (s : State) : (countErr k s).cores = s.cores := rfl
@[simp] theorem countErr_acc (k : Nat) (s : State) : (countErr k s).acc = s.acc := rfl
@[simp] theorem countErr_spool (k : Nat) (s : State) : (countErr k s).spool = s.spool := rfl
@[simp] theorem countErr_creel (k : Nat) (s : State) : (countErr k s).creel = s.creel := rfl
@[simp] theorem countErr_res (k : Nat) (s : State) : (countErr k s).res = s.res := rfl
@[simp] theorem countErr_skein (k : Nat) (s : State) : (countErr k s).skein = s.skein := rfl
@[simp] theorem countErr_freeCtr (k : Nat) (s : State) : (countErr k s).freeCtr = s.freeCtr := rfl
@[simp] theorem countSigFail_pending (n : Nat) (s : State) : (countSigFail n s).pending = s.pending := by unfold countSigFail; split <;> rfl
@[simp] theorem countSigFail_clk (n : Nat) (s : State) : (countSigFail n s).clk = s.clk := by unfold countSigFail; split <;> rfl
@[simp] theorem countSigFail_out (n : Nat) (s : State) : (countSigFail n s).out = s.out := by unfold countSigFail; split <;> rfl
@[simp] theorem countSigFail_hub (n : Nat) (s : State) : (countSigFail n s).hub = s.hub := by unfold countSigFail; split <;> rfl
@[simp] theorem countSigFail_weft (n : Nat) (s : State) : (countSigFail n s).weft = s.weft := by unfold countSigFail; split <;> rfl
@[simp] theorem countSigFail_mod (n : Nat) (s : State) : (countSigFail n s).mod = s.mod := by unfold countSigFail; split <;> rfl
@[simp] theorem countSigFail_jtag (n : Nat) (s : State) : (countSigFail n s).jtag = s.jtag := by unfold countSigFail; split <;> rfl
@[simp] theorem countSigFail_i3c (n : Nat) (s : State) : (countSigFail n s).i3c = s.i3c := by unfold countSigFail; split <;> rfl
@[simp] theorem countSigFail_trd (n : Nat) (s : State) : (countSigFail n s).trd = s.trd := by unfold countSigFail; split <;> rfl
@[simp] theorem countSigFail_flash (n : Nat) (s : State) : (countSigFail n s).flash = s.flash := by unfold countSigFail; split <;> rfl
@[simp] theorem countSigFail_sec (n : Nat) (s : State) : (countSigFail n s).sec = s.sec := by unfold countSigFail; split <;> rfl
@[simp] theorem countSigFail_spdm (n : Nat) (s : State) : (countSigFail n s).spdm = s.spdm := by unfold countSigFail; split <;> rfl
@[simp] theorem countSigFail_warp (n : Nat) (s : State) : (countSigFail n s).warp = s.warp := by unfold countSigFail; split <;> rfl
@[simp] theorem countSigFail_nep (n : Nat) (s : State) : (countSigFail n s).nep = s.nep := by unfold countSigFail; split <;> rfl
@[simp] theorem countSigFail_num (n : Nat) (s : State) : (countSigFail n s).num = s.num := by unfold countSigFail; split <;> rfl
@[simp] theorem countSigFail_stp (n : Nat) (s : State) : (countSigFail n s).stp = s.stp := by unfold countSigFail; split <;> rfl
@[simp] theorem countSigFail_bob (n : Nat) (s : State) : (countSigFail n s).bob = s.bob := by unfold countSigFail; split <;> rfl
@[simp] theorem countSigFail_job (n : Nat) (s : State) : (countSigFail n s).job = s.job := by unfold countSigFail; split <;> rfl
@[simp] theorem countSigFail_ply (n : Nat) (s : State) : (countSigFail n s).ply = s.ply := by unfold countSigFail; split <;> rfl
@[simp] theorem countSigFail_reel (n : Nat) (s : State) : (countSigFail n s).reel = s.reel := by unfold countSigFail; split <;> rfl
@[simp] theorem countSigFail_rov (n : Nat) (s : State) : (countSigFail n s).rov = s.rov := by unfold countSigFail; split <;> rfl
@[simp] theorem countSigFail_skn (n : Nat) (s : State) : (countSigFail n s).skn = s.skn := by unfold countSigFail; split <;> rfl
@[simp] theorem countSigFail_cores (n : Nat) (s : State) : (countSigFail n s).cores = s.cores := by unfold countSigFail; split <;> rfl
@[simp] theorem countSigFail_acc (n : Nat) (s : State) : (countSigFail n s).acc = s.acc := by unfold countSigFail; split <;> rfl
@[simp] theorem countSigFail_spool (n : Nat) (s : State) : (countSigFail n s).spool = s.spool := by unfold countSigFail; split <;> rfl
@[simp] theorem countSigFail_creel (n : Nat) (s : State) : (countSigFail n s).creel = s.creel := by unfold countSigFail; split <;> rfl
@[simp] theorem countSigFail_res (n : Nat) (s : State) : (countSigFail n s).res = s.res := by unfold countSigFail; split <;> rfl
@[simp] theorem countSigFail_skein (n : Nat) (s : State) : (countSigFail n s).skein = s.skein := by unfold countSigFail; split <;> rfl
@[simp] theorem countSigFail_freeCtr (n : Nat) (s : State) : (countSigFail n s).freeCtr = s.freeCtr := by unfold countSigFail; split <;> rfl
@[simp] theorem hostWrite_pending (a : Nat) (d : List Byte) (s : State) : (hostWrite a d s).pending = s.pending := rfl
@[simp] theorem hostWrite_clk (a : Nat) (d : List Byte) (s : State) : (hostWrite a d s).clk = s.clk := rfl
@[simp] theorem hostWrite_out (a : Nat) (d : List Byte) (s : State) : (hostWrite a d s).out = s.out := rfl
@[simp] theorem hostWrite_hub (a : Nat) (d : List Byte) (s : State) : (hostWrite a d s).hub = s.hub := rfl
@[simp] theorem hostWrite_weft (a : Nat) (d : List Byte) (s : State) : (hostWrite a d s).weft = s.weft := rfl
@[simp] theorem hostWrite_mod (a : Nat) (d : List Byte) (s : State) : (hostWrite a d s).mod = s.mod := rfl
@[simp] theorem hostWrite_jtag (a : Nat) (d : List Byte) (s : State) : (hostWrite a d s).jtag = s.jtag := rfl
@[simp] theorem hostWrite_i3c (a : Nat) (d : List Byte) (s : State) : (hostWrite a d s).i3c = s.i3c := rfl
@[simp] theorem hostWrite_trd (a : Nat) (d : List Byte) (s : State) : (hostWrite a d s).trd = s.trd := rfl
@[simp] theorem hostWrite_flash (a : Nat) (d : List Byte) (s : State) : (hostWrite a d s).flash = s.flash := rfl
@[simp] theorem hostWrite_sec (a : Nat) (d : List Byte) (s : State) : (hostWrite a d s).sec = s.sec := rfl
@[simp] theorem hostWrite_spdm (a : Nat) (d : List Byte) (s : State) : (hostWrite a d s).spdm = s.spdm := rfl
@[simp] theorem hostWrite_warp (a : Nat) (d : List Byte) (s : State) : (hostWrite a d s).warp = s.warp := rfl
@[simp] theorem hostWrite_nep (a : Nat) (d : List Byte) (s : State) : (hostWrite a d s).nep = s.nep := rfl
@[simp] theorem hostWrite_num (a : Nat) (d : List Byte) (s : State) : (hostWrite a d s).num = s.num := rfl
@[simp] theorem hostWrite_stp (a : Nat) (d : List Byte) (s : State) : (hostWrite a d s).stp = s.stp := rfl
@[simp] theorem hostWrite_bob (a : Nat) (d : List Byte) (s : State) : (hostWrite a d s).bob = s.bob := rfl
@[simp] theorem hostWrite_job (a : Nat) (d : List Byte) (s : State) : (hostWrite a d s).job = s.job := rfl
@[simp] theorem hostWrite_ply (a : Nat) (d : List Byte) (s : State) : (hostWrite a d s).ply = s.ply := rfl
@[simp] theorem hostWrite_reel (a : Nat) (d : List Byte) (s : State) : (hostWrite a d s).reel = s.reel := rfl
@[simp] theorem hostWrite_rov (a : Nat) (d : List Byte) (s : State) : (hostWrite a d s).rov = s.rov := rfl
@[simp] theorem hostWrite_skn (a : Nat) (d : List Byte) (s : State) : (hostWrite a d s).skn = s.skn := rfl
@[simp] theorem hostWrite_cores (a : Nat) (d : List Byte) (s : State) : (hostWrite a d s).cores = s.cores := rfl
@[simp] theorem hostWrite_acc (a : Nat) (d : List Byte) (s : State) : (hostWrite a d s).acc = s.acc := rfl
@[simp] theorem hostWrite_spool (a : Nat) (d : List Byte) (s : State) : (hostWrite a d s).spool = s.spool := rfl
@[simp] theorem hostWrite_creel (a : Nat) (d : List Byte) (s : State) : (hostWrite a d s).creel = s.creel := rfl
@[simp] theorem hostWrite_res (a : Nat) (d : List Byte) (s : State) : (hostWrite a d s).res = s.res := rfl
@[simp] theorem hostWrite_skein (a : Nat) (d : List Byte) (s : State) : (hostWrite a d s).skein = s.skein := rfl
@[simp] theorem hostWrite_freeCtr (a : Nat) (d : List Byte) (s : State) : (hostWrite a d s).freeCtr = s.freeCtr := rfl
@[simp] theorem signal_pending (v : Nat) (s : State) : (signal v s).pending = s.pending := rfl
@[simp] theorem signal_clk (v : Nat) (s : State) : (signal v s).clk = s.clk := rfl
@[simp] theorem signal_out (v : Nat) (s : State) : (signal v s).out = s.out := rfl
@[simp] theorem signal_hub (v : Nat) (s : State) : (signal v s).hub = s.hub := rfl
@[simp] theorem signal_weft (v : Nat) (s : State) : (signal v s).weft = s.weft := rfl
@[simp] theorem signal_mod (v : Nat) (s : State) : (signal v s).mod = s.mod := rfl
@[simp] theorem signal_jtag (v : Nat) (s : State) : (signal v s).jtag = s.jtag := rfl
@[simp] theorem signal_i3c (v : Nat) (s : State) : (signal v s).i3c = s.i3c := rfl
@[simp] theorem signal_trd (v : Nat) (s : State) : (signal v s).trd = s.trd := rfl
@[simp] theorem signal_flash (v : Nat) (s : State) : (signal v s).flash = s.flash := rfl
@[simp] theorem signal_sec (v : Nat) (s : State) : (signal v s).sec = s.sec := rfl
@[simp] theorem signal_spdm (v : Nat) (s : State) : (signal v s).spdm = s.spdm := rfl
@[simp] theorem signal_warp (v : Nat) (s : State) : (signal v s).warp = s.warp := rfl
@[simp] theorem signal_nep (v : Nat) (s : State) : (signal v s).nep = s.nep := rfl
@[simp] theorem signal_num (v : Nat) (s : State) : (signal v s).num = s.num := rfl
@[simp] theorem signal_stp (v : Nat) (s : State) : (signal v s).stp = s.stp := rfl
@[simp] theorem signal_bob (v : Nat) (s : State) : (signal v s).bob = s.bob := rfl
@[simp] theorem signal_job (v : Nat) (s : State) : (signal v s).job = s.job := rfl
@[simp] theorem signal_ply (v : Nat) (s : State) : (signal v s).ply = s.ply := rfl
@[simp] theorem signal_reel (v : Nat) (s : State) : (signal v s).reel = s.reel := rfl
@[simp] theorem signal_rov (v : Nat) (s : State) : (signal v s).rov = s.rov := rfl
@[simp] theorem signal_skn (v : Nat) (s : State) : (signal v s).skn = s.skn := rfl
@[simp] theorem signal_cores (v : Nat) (s : State) : (signal v s).cores = s.cores := rfl
@[simp] theorem signal_acc (v : Nat) (s : State) : (signal v s).acc = s.acc := rfl
@[simp] theorem signal_spool (v : Nat) (s : State) : (signal v s).spool = s.spool := rfl
@[simp] theorem signal_creel (v : Nat) (s : State) : (signal v s).creel = s.creel := rfl
@[simp] theorem signal_res (v : Nat) (s : State) : (signal v s).res = s.res := rfl
@[simp] theorem signal_skein (v : Nat) (s : State) : (signal v s).skein = s.skein := rfl
@[simp] theorem signal_freeCtr (v : Nat) (s : State) : (signal v s).freeCtr = s.freeCtr := rfl
@[simp] theorem latch_pending (r : List (Nat × Word)) (s : State) : (latch r s).pending = s.pending := rfl
@[simp] theorem latch_clk (r : List (Nat × Word)) (s : State) : (latch r s).clk = s.clk := rfl
@[simp] theorem latch_tel (r : List (Nat × Word)) (s : State) : (latch r s).tel = s.tel := rfl
@[simp] theorem latch_out (r : List (Nat × Word)) (s : State) : (latch r s).out = s.out := rfl
@[simp] theorem latch_weft (r : List (Nat × Word)) (s : State) : (latch r s).weft = s.weft := rfl
@[simp] theorem latch_mod (r : List (Nat × Word)) (s : State) : (latch r s).mod = s.mod := rfl
@[simp] theorem latch_jtag (r : List (Nat × Word)) (s : State) : (latch r s).jtag = s.jtag := rfl
@[simp] theorem latch_i3c (r : List (Nat × Word)) (s : State) : (latch r s).i3c = s.i3c := rfl
@[simp] theorem latch_trd (r : List (Nat × Word)) (s : State) : (latch r s).trd = s.trd := rfl
@[simp] theorem latch_flash (r : List (Nat × Word)) (s : State) : (latch r s).flash = s.flash := rfl
@[simp] theorem latch_sec (r : List (Nat × Word)) (s : State) : (latch r s).sec = s.sec := rfl
@[simp] theorem latch_spdm (r : List (Nat × Word)) (s : State) : (latch r s).spdm = s.spdm := rfl
@[simp] theorem latch_warp (r : List (Nat × Word)) (s : State) : (latch r s).warp = s.warp := rfl
@[simp] theorem latch_nep (r : List (Nat × Word)) (s : State) : (latch r s).nep = s.nep := rfl
@[simp] theorem latch_num (r : List (Nat × Word)) (s : State) : (latch r s).num = s.num := rfl
@[simp] theorem latch_stp (r : List (Nat × Word)) (s : State) : (latch r s).stp = s.stp := rfl
@[simp] theorem latch_bob (r : List (Nat × Word)) (s : State) : (latch r s).bob = s.bob := rfl
@[simp] theorem latch_job (r : List (Nat × Word)) (s : State) : (latch r s).job = s.job := rfl
@[simp] theorem latch_ply (r : List (Nat × Word)) (s : State) : (latch r s).ply = s.ply := rfl
@[simp] theorem latch_reel (r : List (Nat × Word)) (s : State) : (latch r s).reel = s.reel := rfl
@[simp] theorem latch_rov (r : List (Nat × Word)) (s : State) : (latch r s).rov = s.rov := rfl
@[simp] theorem latch_skn (r : List (Nat × Word)) (s : State) : (latch r s).skn = s.skn := rfl
@[simp] theorem latch_cores (r : List (Nat × Word)) (s : State) : (latch r s).cores = s.cores := rfl
@[simp] theorem latch_acc (r : List (Nat × Word)) (s : State) : (latch r s).acc = s.acc := rfl
@[simp] theorem latch_spool (r : List (Nat × Word)) (s : State) : (latch r s).spool = s.spool := rfl
@[simp] theorem latch_creel (r : List (Nat × Word)) (s : State) : (latch r s).creel = s.creel := rfl
@[simp] theorem latch_res (r : List (Nat × Word)) (s : State) : (latch r s).res = s.res := rfl
@[simp] theorem latch_skein (r : List (Nat × Word)) (s : State) : (latch r s).skein = s.skein := rfl
@[simp] theorem latch_freeCtr (r : List (Nat × Word)) (s : State) : (latch r s).freeCtr = s.freeCtr := rfl
@[simp] theorem reply_pending (r : MgmtReply) (s : State) : (reply r s).pending = s.pending := rfl
@[simp] theorem reply_clk (r : MgmtReply) (s : State) : (reply r s).clk = s.clk := rfl
@[simp] theorem reply_tel (r : MgmtReply) (s : State) : (reply r s).tel = s.tel := rfl
@[simp] theorem reply_hub (r : MgmtReply) (s : State) : (reply r s).hub = s.hub := rfl
@[simp] theorem reply_weft (r : MgmtReply) (s : State) : (reply r s).weft = s.weft := rfl
@[simp] theorem reply_mod (r : MgmtReply) (s : State) : (reply r s).mod = s.mod := rfl
@[simp] theorem reply_jtag (r : MgmtReply) (s : State) : (reply r s).jtag = s.jtag := rfl
@[simp] theorem reply_i3c (r : MgmtReply) (s : State) : (reply r s).i3c = s.i3c := rfl
@[simp] theorem reply_trd (r : MgmtReply) (s : State) : (reply r s).trd = s.trd := rfl
@[simp] theorem reply_flash (r : MgmtReply) (s : State) : (reply r s).flash = s.flash := rfl
@[simp] theorem reply_sec (r : MgmtReply) (s : State) : (reply r s).sec = s.sec := rfl
@[simp] theorem reply_spdm (r : MgmtReply) (s : State) : (reply r s).spdm = s.spdm := rfl
@[simp] theorem reply_warp (r : MgmtReply) (s : State) : (reply r s).warp = s.warp := rfl
@[simp] theorem reply_nep (r : MgmtReply) (s : State) : (reply r s).nep = s.nep := rfl
@[simp] theorem reply_num (r : MgmtReply) (s : State) : (reply r s).num = s.num := rfl
@[simp] theorem reply_stp (r : MgmtReply) (s : State) : (reply r s).stp = s.stp := rfl
@[simp] theorem reply_bob (r : MgmtReply) (s : State) : (reply r s).bob = s.bob := rfl
@[simp] theorem reply_job (r : MgmtReply) (s : State) : (reply r s).job = s.job := rfl
@[simp] theorem reply_ply (r : MgmtReply) (s : State) : (reply r s).ply = s.ply := rfl
@[simp] theorem reply_reel (r : MgmtReply) (s : State) : (reply r s).reel = s.reel := rfl
@[simp] theorem reply_rov (r : MgmtReply) (s : State) : (reply r s).rov = s.rov := rfl
@[simp] theorem reply_skn (r : MgmtReply) (s : State) : (reply r s).skn = s.skn := rfl
@[simp] theorem reply_cores (r : MgmtReply) (s : State) : (reply r s).cores = s.cores := rfl
@[simp] theorem reply_acc (r : MgmtReply) (s : State) : (reply r s).acc = s.acc := rfl
@[simp] theorem reply_spool (r : MgmtReply) (s : State) : (reply r s).spool = s.spool := rfl
@[simp] theorem reply_creel (r : MgmtReply) (s : State) : (reply r s).creel = s.creel := rfl
@[simp] theorem reply_res (r : MgmtReply) (s : State) : (reply r s).res = s.res := rfl
@[simp] theorem reply_skein (r : MgmtReply) (s : State) : (reply r s).skein = s.skein := rfl
@[simp] theorem reply_freeCtr (r : MgmtReply) (s : State) : (reply r s).freeCtr = s.freeCtr := rfl
@[simp] theorem faultWith_pending (c : Nat) (s : State) : (faultWith c s).pending = s.pending := rfl
@[simp] theorem faultWith_clk (c : Nat) (s : State) : (faultWith c s).clk = s.clk := rfl
@[simp] theorem faultWith_tel (c : Nat) (s : State) : (faultWith c s).tel = s.tel := rfl
@[simp] theorem faultWith_out (c : Nat) (s : State) : (faultWith c s).out = s.out := rfl
@[simp] theorem faultWith_hub (c : Nat) (s : State) : (faultWith c s).hub = s.hub := rfl
@[simp] theorem faultWith_weft (c : Nat) (s : State) : (faultWith c s).weft = s.weft := rfl
@[simp] theorem faultWith_mod (c : Nat) (s : State) : (faultWith c s).mod = s.mod := rfl
@[simp] theorem faultWith_jtag (c : Nat) (s : State) : (faultWith c s).jtag = s.jtag := rfl
@[simp] theorem faultWith_i3c (c : Nat) (s : State) : (faultWith c s).i3c = s.i3c := rfl
@[simp] theorem faultWith_trd (c : Nat) (s : State) : (faultWith c s).trd = s.trd := rfl
@[simp] theorem faultWith_flash (c : Nat) (s : State) : (faultWith c s).flash = s.flash := rfl
@[simp] theorem faultWith_sec (c : Nat) (s : State) : (faultWith c s).sec = s.sec := rfl
@[simp] theorem faultWith_spdm (c : Nat) (s : State) : (faultWith c s).spdm = s.spdm := rfl
@[simp] theorem faultWith_warp (c : Nat) (s : State) : (faultWith c s).warp = s.warp := rfl
@[simp] theorem faultWith_nep (c : Nat) (s : State) : (faultWith c s).nep = s.nep := rfl
@[simp] theorem faultWith_num (c : Nat) (s : State) : (faultWith c s).num = s.num := rfl
@[simp] theorem faultWith_bob (c : Nat) (s : State) : (faultWith c s).bob = s.bob := rfl
@[simp] theorem faultWith_job (c : Nat) (s : State) : (faultWith c s).job = s.job := rfl
@[simp] theorem faultWith_ply (c : Nat) (s : State) : (faultWith c s).ply = s.ply := rfl
@[simp] theorem faultWith_reel (c : Nat) (s : State) : (faultWith c s).reel = s.reel := rfl
@[simp] theorem faultWith_rov (c : Nat) (s : State) : (faultWith c s).rov = s.rov := rfl
@[simp] theorem faultWith_skn (c : Nat) (s : State) : (faultWith c s).skn = s.skn := rfl
@[simp] theorem faultWith_cores (c : Nat) (s : State) : (faultWith c s).cores = s.cores := rfl
@[simp] theorem faultWith_acc (c : Nat) (s : State) : (faultWith c s).acc = s.acc := rfl
@[simp] theorem faultWith_spool (c : Nat) (s : State) : (faultWith c s).spool = s.spool := rfl
@[simp] theorem faultWith_creel (c : Nat) (s : State) : (faultWith c s).creel = s.creel := rfl
@[simp] theorem faultWith_res (c : Nat) (s : State) : (faultWith c s).res = s.res := rfl
@[simp] theorem faultWith_skein (c : Nat) (s : State) : (faultWith c s).skein = s.skein := rfl
@[simp] theorem faultWith_freeCtr (c : Nat) (s : State) : (faultWith c s).freeCtr = s.freeCtr := rfl
@[simp] theorem faultNow_pending (s : State) : (faultNow s).pending = s.pending := rfl
@[simp] theorem faultNow_clk (s : State) : (faultNow s).clk = s.clk := rfl
@[simp] theorem faultNow_tel (s : State) : (faultNow s).tel = s.tel := rfl
@[simp] theorem faultNow_out (s : State) : (faultNow s).out = s.out := rfl
@[simp] theorem faultNow_hub (s : State) : (faultNow s).hub = s.hub := rfl
@[simp] theorem faultNow_weft (s : State) : (faultNow s).weft = s.weft := rfl
@[simp] theorem faultNow_mod (s : State) : (faultNow s).mod = s.mod := rfl
@[simp] theorem faultNow_jtag (s : State) : (faultNow s).jtag = s.jtag := rfl
@[simp] theorem faultNow_i3c (s : State) : (faultNow s).i3c = s.i3c := rfl
@[simp] theorem faultNow_trd (s : State) : (faultNow s).trd = s.trd := rfl
@[simp] theorem faultNow_flash (s : State) : (faultNow s).flash = s.flash := rfl
@[simp] theorem faultNow_sec (s : State) : (faultNow s).sec = s.sec := rfl
@[simp] theorem faultNow_spdm (s : State) : (faultNow s).spdm = s.spdm := rfl
@[simp] theorem faultNow_warp (s : State) : (faultNow s).warp = s.warp := rfl
@[simp] theorem faultNow_nep (s : State) : (faultNow s).nep = s.nep := rfl
@[simp] theorem faultNow_num (s : State) : (faultNow s).num = s.num := rfl
@[simp] theorem faultNow_bob (s : State) : (faultNow s).bob = s.bob := rfl
@[simp] theorem faultNow_job (s : State) : (faultNow s).job = s.job := rfl
@[simp] theorem faultNow_ply (s : State) : (faultNow s).ply = s.ply := rfl
@[simp] theorem faultNow_reel (s : State) : (faultNow s).reel = s.reel := rfl
@[simp] theorem faultNow_rov (s : State) : (faultNow s).rov = s.rov := rfl
@[simp] theorem faultNow_skn (s : State) : (faultNow s).skn = s.skn := rfl
@[simp] theorem faultNow_cores (s : State) : (faultNow s).cores = s.cores := rfl
@[simp] theorem faultNow_acc (s : State) : (faultNow s).acc = s.acc := rfl
@[simp] theorem faultNow_spool (s : State) : (faultNow s).spool = s.spool := rfl
@[simp] theorem faultNow_creel (s : State) : (faultNow s).creel = s.creel := rfl
@[simp] theorem faultNow_res (s : State) : (faultNow s).res = s.res := rfl
@[simp] theorem faultNow_skein (s : State) : (faultNow s).skein = s.skein := rfl
@[simp] theorem faultNow_freeCtr (s : State) : (faultNow s).freeCtr = s.freeCtr := rfl
@[simp] theorem batchKhz_pending (a b : Nat) (s : State) : (batchKhz a b s).pending = s.pending := rfl
@[simp] theorem batchKhz_clk (a b : Nat) (s : State) : (batchKhz a b s).clk = s.clk := rfl
@[simp] theorem batchKhz_tel (a b : Nat) (s : State) : (batchKhz a b s).tel = s.tel := rfl
@[simp] theorem batchKhz_out (a b : Nat) (s : State) : (batchKhz a b s).out = s.out := rfl
@[simp] theorem batchKhz_hub (a b : Nat) (s : State) : (batchKhz a b s).hub = s.hub := rfl
@[simp] theorem batchKhz_weft (a b : Nat) (s : State) : (batchKhz a b s).weft = s.weft := rfl
@[simp] theorem batchKhz_mod (a b : Nat) (s : State) : (batchKhz a b s).mod = s.mod := rfl
@[simp] theorem batchKhz_jtag (a b : Nat) (s : State) : (batchKhz a b s).jtag = s.jtag := rfl
@[simp] theorem batchKhz_i3c (a b : Nat) (s : State) : (batchKhz a b s).i3c = s.i3c := rfl
@[simp] theorem batchKhz_flash (a b : Nat) (s : State) : (batchKhz a b s).flash = s.flash := rfl
@[simp] theorem batchKhz_sec (a b : Nat) (s : State) : (batchKhz a b s).sec = s.sec := rfl
@[simp] theorem batchKhz_spdm (a b : Nat) (s : State) : (batchKhz a b s).spdm = s.spdm := rfl
@[simp] theorem batchKhz_warp (a b : Nat) (s : State) : (batchKhz a b s).warp = s.warp := rfl
@[simp] theorem batchKhz_nep (a b : Nat) (s : State) : (batchKhz a b s).nep = s.nep := rfl
@[simp] theorem batchKhz_num (a b : Nat) (s : State) : (batchKhz a b s).num = s.num := rfl
@[simp] theorem batchKhz_stp (a b : Nat) (s : State) : (batchKhz a b s).stp = s.stp := rfl
@[simp] theorem batchKhz_bob (a b : Nat) (s : State) : (batchKhz a b s).bob = s.bob := rfl
@[simp] theorem batchKhz_job (a b : Nat) (s : State) : (batchKhz a b s).job = s.job := rfl
@[simp] theorem batchKhz_ply (a b : Nat) (s : State) : (batchKhz a b s).ply = s.ply := rfl
@[simp] theorem batchKhz_reel (a b : Nat) (s : State) : (batchKhz a b s).reel = s.reel := rfl
@[simp] theorem batchKhz_rov (a b : Nat) (s : State) : (batchKhz a b s).rov = s.rov := rfl
@[simp] theorem batchKhz_skn (a b : Nat) (s : State) : (batchKhz a b s).skn = s.skn := rfl
@[simp] theorem batchKhz_cores (a b : Nat) (s : State) : (batchKhz a b s).cores = s.cores := rfl
@[simp] theorem batchKhz_acc (a b : Nat) (s : State) : (batchKhz a b s).acc = s.acc := rfl
@[simp] theorem batchKhz_spool (a b : Nat) (s : State) : (batchKhz a b s).spool = s.spool := rfl
@[simp] theorem batchKhz_creel (a b : Nat) (s : State) : (batchKhz a b s).creel = s.creel := rfl
@[simp] theorem batchKhz_res (a b : Nat) (s : State) : (batchKhz a b s).res = s.res := rfl
@[simp] theorem batchKhz_skein (a b : Nat) (s : State) : (batchKhz a b s).skein = s.skein := rfl
@[simp] theorem batchKhz_freeCtr (a b : Nat) (s : State) : (batchKhz a b s).freeCtr = s.freeCtr := rfl
@[simp] theorem State.onCore_pending (s : State) (c : Nat) (f : CoreState → CoreState) : (s.onCore c f).pending = s.pending := rfl
@[simp] theorem State.onCore_clk (s : State) (c : Nat) (f : CoreState → CoreState) : (s.onCore c f).clk = s.clk := rfl
@[simp] theorem State.onCore_tel (s : State) (c : Nat) (f : CoreState → CoreState) : (s.onCore c f).tel = s.tel := rfl
@[simp] theorem State.onCore_out (s : State) (c : Nat) (f : CoreState → CoreState) : (s.onCore c f).out = s.out := rfl
@[simp] theorem State.onCore_hub (s : State) (c : Nat) (f : CoreState → CoreState) : (s.onCore c f).hub = s.hub := rfl
@[simp] theorem State.onCore_weft (s : State) (c : Nat) (f : CoreState → CoreState) : (s.onCore c f).weft = s.weft := rfl
@[simp] theorem State.onCore_mod (s : State) (c : Nat) (f : CoreState → CoreState) : (s.onCore c f).mod = s.mod := rfl
@[simp] theorem State.onCore_jtag (s : State) (c : Nat) (f : CoreState → CoreState) : (s.onCore c f).jtag = s.jtag := rfl
@[simp] theorem State.onCore_i3c (s : State) (c : Nat) (f : CoreState → CoreState) : (s.onCore c f).i3c = s.i3c := rfl
@[simp] theorem State.onCore_trd (s : State) (c : Nat) (f : CoreState → CoreState) : (s.onCore c f).trd = s.trd := rfl
@[simp] theorem State.onCore_flash (s : State) (c : Nat) (f : CoreState → CoreState) : (s.onCore c f).flash = s.flash := rfl
@[simp] theorem State.onCore_sec (s : State) (c : Nat) (f : CoreState → CoreState) : (s.onCore c f).sec = s.sec := rfl
@[simp] theorem State.onCore_spdm (s : State) (c : Nat) (f : CoreState → CoreState) : (s.onCore c f).spdm = s.spdm := rfl
@[simp] theorem State.onCore_warp (s : State) (c : Nat) (f : CoreState → CoreState) : (s.onCore c f).warp = s.warp := rfl
@[simp] theorem State.onCore_nep (s : State) (c : Nat) (f : CoreState → CoreState) : (s.onCore c f).nep = s.nep := rfl
@[simp] theorem State.onCore_num (s : State) (c : Nat) (f : CoreState → CoreState) : (s.onCore c f).num = s.num := rfl
@[simp] theorem State.onCore_stp (s : State) (c : Nat) (f : CoreState → CoreState) : (s.onCore c f).stp = s.stp := rfl
@[simp] theorem State.onCore_bob (s : State) (c : Nat) (f : CoreState → CoreState) : (s.onCore c f).bob = s.bob := rfl
@[simp] theorem State.onCore_job (s : State) (c : Nat) (f : CoreState → CoreState) : (s.onCore c f).job = s.job := rfl
@[simp] theorem State.onCore_ply (s : State) (c : Nat) (f : CoreState → CoreState) : (s.onCore c f).ply = s.ply := rfl
@[simp] theorem State.onCore_reel (s : State) (c : Nat) (f : CoreState → CoreState) : (s.onCore c f).reel = s.reel := rfl
@[simp] theorem State.onCore_rov (s : State) (c : Nat) (f : CoreState → CoreState) : (s.onCore c f).rov = s.rov := rfl
@[simp] theorem State.onCore_skn (s : State) (c : Nat) (f : CoreState → CoreState) : (s.onCore c f).skn = s.skn := rfl
@[simp] theorem State.onCore_acc (s : State) (c : Nat) (f : CoreState → CoreState) : (s.onCore c f).acc = s.acc := rfl
@[simp] theorem State.onCore_spool (s : State) (c : Nat) (f : CoreState → CoreState) : (s.onCore c f).spool = s.spool := rfl
@[simp] theorem State.onCore_creel (s : State) (c : Nat) (f : CoreState → CoreState) : (s.onCore c f).creel = s.creel := rfl
@[simp] theorem State.onCore_res (s : State) (c : Nat) (f : CoreState → CoreState) : (s.onCore c f).res = s.res := rfl
@[simp] theorem State.onCore_skein (s : State) (c : Nat) (f : CoreState → CoreState) : (s.onCore c f).skein = s.skein := rfl
@[simp] theorem State.onCore_freeCtr (s : State) (c : Nat) (f : CoreState → CoreState) : (s.onCore c f).freeCtr = s.freeCtr := rfl
@[simp] theorem freePick_pending (n : Nat) (s : State) : (freePick n s).2.pending = s.pending := rfl
@[simp] theorem freePick_clk (n : Nat) (s : State) : (freePick n s).2.clk = s.clk := rfl
@[simp] theorem freePick_tel (n : Nat) (s : State) : (freePick n s).2.tel = s.tel := rfl
@[simp] theorem freePick_out (n : Nat) (s : State) : (freePick n s).2.out = s.out := rfl
@[simp] theorem freePick_hub (n : Nat) (s : State) : (freePick n s).2.hub = s.hub := rfl
@[simp] theorem freePick_weft (n : Nat) (s : State) : (freePick n s).2.weft = s.weft := rfl
@[simp] theorem freePick_mod (n : Nat) (s : State) : (freePick n s).2.mod = s.mod := rfl
@[simp] theorem freePick_jtag (n : Nat) (s : State) : (freePick n s).2.jtag = s.jtag := rfl
@[simp] theorem freePick_i3c (n : Nat) (s : State) : (freePick n s).2.i3c = s.i3c := rfl
@[simp] theorem freePick_trd (n : Nat) (s : State) : (freePick n s).2.trd = s.trd := rfl
@[simp] theorem freePick_flash (n : Nat) (s : State) : (freePick n s).2.flash = s.flash := rfl
@[simp] theorem freePick_sec (n : Nat) (s : State) : (freePick n s).2.sec = s.sec := rfl
@[simp] theorem freePick_spdm (n : Nat) (s : State) : (freePick n s).2.spdm = s.spdm := rfl
@[simp] theorem freePick_warp (n : Nat) (s : State) : (freePick n s).2.warp = s.warp := rfl
@[simp] theorem freePick_nep (n : Nat) (s : State) : (freePick n s).2.nep = s.nep := rfl
@[simp] theorem freePick_num (n : Nat) (s : State) : (freePick n s).2.num = s.num := rfl
@[simp] theorem freePick_stp (n : Nat) (s : State) : (freePick n s).2.stp = s.stp := rfl
@[simp] theorem freePick_bob (n : Nat) (s : State) : (freePick n s).2.bob = s.bob := rfl
@[simp] theorem freePick_job (n : Nat) (s : State) : (freePick n s).2.job = s.job := rfl
@[simp] theorem freePick_ply (n : Nat) (s : State) : (freePick n s).2.ply = s.ply := rfl
@[simp] theorem freePick_reel (n : Nat) (s : State) : (freePick n s).2.reel = s.reel := rfl
@[simp] theorem freePick_rov (n : Nat) (s : State) : (freePick n s).2.rov = s.rov := rfl
@[simp] theorem freePick_skn (n : Nat) (s : State) : (freePick n s).2.skn = s.skn := rfl
@[simp] theorem freePick_cores (n : Nat) (s : State) : (freePick n s).2.cores = s.cores := rfl
@[simp] theorem freePick_acc (n : Nat) (s : State) : (freePick n s).2.acc = s.acc := rfl
@[simp] theorem freePick_spool (n : Nat) (s : State) : (freePick n s).2.spool = s.spool := rfl
@[simp] theorem freePick_creel (n : Nat) (s : State) : (freePick n s).2.creel = s.creel := rfl
@[simp] theorem freePick_res (n : Nat) (s : State) : (freePick n s).2.res = s.res := rfl
@[simp] theorem freePick_skein (n : Nat) (s : State) : (freePick n s).2.skein = s.skein := rfl

end Sys2Proof.Machine
end

