-- ==== Sys2Proof/Laws/Frame.lean ====
section
/-! SUPPORT. The parts of a state that few operations touch, each as one value: what `lead` and `mems` are left at by the block
updates, by the shared reporting operations and by folds. -/

namespace Sys2Proof.Machine

/-- The queue and module flash. -/
def State.lead (s : State) : List Instr × SecFlash := (s.pending, s.flash)

/-- What no frame, hank or commit message by itself changes: everything but the ports, telemetry, step, job, integrity and reel blocks,
the numeric state, the pair of the ply digest, the residency marks, the skein and its counters, and the free-value counter. -/
def State.base (s : State) :=
  (s.pending, s.clk, s.out, s.hub, s.weft, s.mod, s.jtag, s.i3c, s.trd, s.flash, s.spdm, s.warp, s.nep, s.bob, s.cores,
    s.acc, s.spool, s.creel)

theorem State.lead_of {s t : State} (h : t.base = s.base) : t.lead = s.lead := by
  simp only [State.base, Prod.mk.injEq] at h
  simp only [State.lead, h]

theorem State.cores_of {s t : State} (h : t.base = s.base) : t.cores = s.cores := by
  simp only [State.base, Prod.mk.injEq] at h
  simp only [h]

theorem State.warp_of {s t : State} (h : t.base = s.base) : t.warp = s.warp := by
  simp only [State.base, Prod.mk.injEq] at h
  simp only [h]

theorem State.pending_of {s t : State} (h : t.lead = s.lead) : t.pending = s.pending := congrArg Prod.fst h

theorem State.flash_of {s t : State} (h : t.lead = s.lead) : t.flash = s.flash := congrArg Prod.snd h

theorem State.memWf_congr {s t : State} (h : t.mems = s.mems) (w : s.memWf) : t.memWf := by
  unfold State.memWf at w ⊢; rwa [h]

theorem State.ite_memWf {c : Prop} [Decidable c] {a b : State} (ha : a.memWf) (hb : b.memWf) : (if c then a else b).memWf := by
  split
  · exact ha
  · exact hb

@[simp] theorem State.onClk_lead (s : State) (f : ClkBlk → ClkBlk) : (s.onClk f).lead = s.lead := (rfl)
@[simp] theorem State.onClk_mems (s : State) (f : ClkBlk → ClkBlk) : (s.onClk f).mems = s.mems := (rfl)
@[simp] theorem State.onTel_lead (s : State) (f : TelBlk → TelBlk) : (s.onTel f).lead = s.lead := (rfl)
@[simp] theorem State.onTel_mems (s : State) (f : TelBlk → TelBlk) : (s.onTel f).mems = s.mems := (rfl)
@[simp] theorem State.onTel_base (s : State) (f : TelBlk → TelBlk) : (s.onTel f).base = s.base := (rfl)
@[simp] theorem State.onOut_lead (s : State) (f : OutBlk → OutBlk) : (s.onOut f).lead = s.lead := (rfl)
@[simp] theorem State.onOut_mems (s : State) (f : OutBlk → OutBlk) : (s.onOut f).mems = s.mems := (rfl)
@[simp] theorem State.onHub_lead (s : State) (f : HubBlk → HubBlk) : (s.onHub f).lead = s.lead := (rfl)
@[simp] theorem State.onHub_mems (s : State) (f : HubBlk → HubBlk) : (s.onHub f).mems = s.mems := (rfl)
@[simp] theorem State.onWeft_lead (s : State) (f : WeftBlk → WeftBlk) : (s.onWeft f).lead = s.lead := (rfl)
@[simp] theorem State.onWeft_mems (s : State) (f : WeftBlk → WeftBlk) : (s.onWeft f).mems = s.mems := (rfl)
@[simp] theorem State.onMod_lead (s : State) (f : ModBlk → ModBlk) : (s.onMod f).lead = s.lead := (rfl)
@[simp] theorem State.onMod_mems (s : State) (f : ModBlk → ModBlk) : (s.onMod f).mems = s.mems := (rfl)
@[simp] theorem State.onJtag_lead (s : State) (f : JtagBlk → JtagBlk) : (s.onJtag f).lead = s.lead := (rfl)
@[simp] theorem State.onJtag_mems (s : State) (f : JtagBlk → JtagBlk) : (s.onJtag f).mems = s.mems := (rfl)
@[simp] theorem State.onI3c_lead (s : State) (f : I3cBlk → I3cBlk) : (s.onI3c f).lead = s.lead := (rfl)
@[simp] theorem State.onI3c_mems (s : State) (f : I3cBlk → I3cBlk) : (s.onI3c f).mems = s.mems := (rfl)
@[simp] theorem State.onTrd_lead (s : State) (f : TrdBlk → TrdBlk) : (s.onTrd f).lead = s.lead := (rfl)
@[simp] theorem State.onTrd_mems (s : State) (f : TrdBlk → TrdBlk) : (s.onTrd f).mems = s.mems := (rfl)
@[simp] theorem State.onFlash_mems (s : State) (f : SecFlash → SecFlash) : (s.onFlash f).mems = s.mems := (rfl)
@[simp] theorem State.onSec_lead (s : State) (f : SecBlk → SecBlk) : (s.onSec f).lead = s.lead := (rfl)
@[simp] theorem State.onSec_mems (s : State) (f : SecBlk → SecBlk) : (s.onSec f).mems = s.mems := (rfl)
@[simp] theorem State.onSec_base (s : State) (f : SecBlk → SecBlk) : (s.onSec f).base = s.base := (rfl)
@[simp] theorem State.onSpdm_lead (s : State) (f : SpdmBlk → SpdmBlk) : (s.onSpdm f).lead = s.lead := (rfl)
@[simp] theorem State.onSpdm_mems (s : State) (f : SpdmBlk → SpdmBlk) : (s.onSpdm f).mems = s.mems := (rfl)
@[simp] theorem State.onWarp_lead (s : State) (f : WarpBlk → WarpBlk) : (s.onWarp f).lead = s.lead := (rfl)
@[simp] theorem State.onWarp_mems (s : State) (f : WarpBlk → WarpBlk) : (s.onWarp f).mems = s.mems := (rfl)
@[simp] theorem State.onNep_lead (s : State) (f : NepBlk → NepBlk) : (s.onNep f).lead = s.lead := (rfl)
@[simp] theorem State.onNep_mems (s : State) (f : NepBlk → NepBlk) : (s.onNep f).mems = s.mems := (rfl)
@[simp] theorem State.onNum_lead (s : State) (f : NumBlk → NumBlk) : (s.onNum f).lead = s.lead := (rfl)
@[simp] theorem State.onNum_mems (s : State) (f : NumBlk → NumBlk) : (s.onNum f).mems = s.mems := (rfl)
@[simp] theorem State.onNum_base (s : State) (f : NumBlk → NumBlk) : (s.onNum f).base = s.base := (rfl)
@[simp] theorem State.onStp_lead (s : State) (f : StpBlk → StpBlk) : (s.onStp f).lead = s.lead := (rfl)
@[simp] theorem State.onStp_mems (s : State) (f : StpBlk → StpBlk) : (s.onStp f).mems = s.mems := (rfl)
@[simp] theorem State.onStp_base (s : State) (f : StpBlk → StpBlk) : (s.onStp f).base = s.base := (rfl)
@[simp] theorem State.onBob_lead (s : State) (f : BobBlk → BobBlk) : (s.onBob f).lead = s.lead := (rfl)
@[simp] theorem State.onBob_mems (s : State) (f : BobBlk → BobBlk) : (s.onBob f).mems = s.mems := (rfl)
@[simp] theorem State.onJob_lead (s : State) (f : JobBlk → JobBlk) : (s.onJob f).lead = s.lead := (rfl)
@[simp] theorem State.onJob_mems (s : State) (f : JobBlk → JobBlk) : (s.onJob f).mems = s.mems := (rfl)
@[simp] theorem State.onJob_base (s : State) (f : JobBlk → JobBlk) : (s.onJob f).base = s.base := (rfl)
@[simp] theorem State.onPly_lead (s : State) (f : PlyBlk → PlyBlk) : (s.onPly f).lead = s.lead := (rfl)
@[simp] theorem State.onPly_mems (s : State) (f : PlyBlk → PlyBlk) : (s.onPly f).mems = s.mems := (rfl)
@[simp] theorem State.onPly_base (s : State) (f : PlyBlk → PlyBlk) : (s.onPly f).base = s.base := (rfl)
@[simp] theorem State.onReel_lead (s : State) (f : ReelBlk → ReelBlk) : (s.onReel f).lead = s.lead := (rfl)
@[simp] theorem State.onReel_mems (s : State) (f : ReelBlk → ReelBlk) : (s.onReel f).mems = s.mems := (rfl)
@[simp] theorem State.onReel_base (s : State) (f : ReelBlk → ReelBlk) : (s.onReel f).base = s.base := (rfl)
@[simp] theorem State.onRov_lead (s : State) (f : RovBlk → RovBlk) : (s.onRov f).lead = s.lead := (rfl)
@[simp] theorem State.onRov_mems (s : State) (f : RovBlk → RovBlk) : (s.onRov f).mems = s.mems := (rfl)
@[simp] theorem State.onRov_base (s : State) (f : RovBlk → RovBlk) : (s.onRov f).base = s.base := (rfl)
@[simp] theorem State.onSkn_lead (s : State) (f : SknBlk → SknBlk) : (s.onSkn f).lead = s.lead := (rfl)
@[simp] theorem State.onSkn_mems (s : State) (f : SknBlk → SknBlk) : (s.onSkn f).mems = s.mems := (rfl)
@[simp] theorem State.onSkn_base (s : State) (f : SknBlk → SknBlk) : (s.onSkn f).base = s.base := (rfl)
@[simp] theorem State.onRes_lead (s : State) (f : ResBlk → ResBlk) : (s.onRes f).lead = s.lead := (rfl)
@[simp] theorem State.onRes_mems (s : State) (f : ResBlk → ResBlk) : (s.onRes f).mems = s.mems := (rfl)
@[simp] theorem State.onRes_base (s : State) (f : ResBlk → ResBlk) : (s.onRes f).base = s.base := (rfl)
@[simp] theorem raise_lead (c : Half) (p : List Nat) (s : State) : (raise c p s).lead = s.lead := (rfl)
@[simp] theorem raise_mems (c : Half) (p : List Nat) (s : State) : (raise c p s).mems = s.mems := (rfl)
@[simp] theorem raise_base (c : Half) (p : List Nat) (s : State) : (raise c p s).base = s.base := (rfl)
@[simp] theorem count_lead (b k n : Nat) (s : State) : (count b k n s).lead = s.lead := (rfl)
@[simp] theorem count_mems (b k n : Nat) (s : State) : (count b k n s).mems = s.mems := (rfl)
@[simp] theorem count_base (b k n : Nat) (s : State) : (count b k n s).base = s.base := (rfl)
@[simp] theorem countEvt_lead (k : Nat) (s : State) : (countEvt k s).lead = s.lead := (rfl)
@[simp] theorem countEvt_mems (k : Nat) (s : State) : (countEvt k s).mems = s.mems := (rfl)
@[simp] theorem countEvt_base (k : Nat) (s : State) : (countEvt k s).base = s.base := (rfl)
@[simp] theorem countErr_lead (k : Nat) (s : State) : (countErr k s).lead = s.lead := (rfl)
@[simp] theorem countErr_mems (k : Nat) (s : State) : (countErr k s).mems = s.mems := (rfl)
@[simp] theorem countErr_base (k : Nat) (s : State) : (countErr k s).base = s.base := (rfl)
@[simp] theorem hostWrite_lead (a : Nat) (d : List Byte) (s : State) : (hostWrite a d s).lead = s.lead := (rfl)
@[simp] theorem hostWrite_mems (a : Nat) (d : List Byte) (s : State) : (hostWrite a d s).mems = s.mems := (rfl)
@[simp] theorem hostWrite_base (a : Nat) (d : List Byte) (s : State) : (hostWrite a d s).base = s.base := (rfl)
@[simp] theorem signal_lead (v : Nat) (s : State) : (signal v s).lead = s.lead := (rfl)
@[simp] theorem signal_mems (v : Nat) (s : State) : (signal v s).mems = s.mems := (rfl)
@[simp] theorem signal_base (v : Nat) (s : State) : (signal v s).base = s.base := (rfl)
@[simp] theorem latch_lead (r : List (Nat × Word)) (s : State) : (latch r s).lead = s.lead := (rfl)
@[simp] theorem latch_mems (r : List (Nat × Word)) (s : State) : (latch r s).mems = s.mems := (rfl)
@[simp] theorem reply_lead (r : MgmtReply) (s : State) : (reply r s).lead = s.lead := (rfl)
@[simp] theorem reply_mems (r : MgmtReply) (s : State) : (reply r s).mems = s.mems := (rfl)
@[simp] theorem faultWith_lead (c : Nat) (s : State) : (faultWith c s).lead = s.lead := (rfl)
@[simp] theorem faultWith_mems (c : Nat) (s : State) : (faultWith c s).mems = s.mems := (rfl)
@[simp] theorem faultWith_base (c : Nat) (s : State) : (faultWith c s).base = s.base := (rfl)
@[simp] theorem faultNow_lead (s : State) : (faultNow s).lead = s.lead := (rfl)
@[simp] theorem faultNow_mems (s : State) : (faultNow s).mems = s.mems := (rfl)
@[simp] theorem faultNow_base (s : State) : (faultNow s).base = s.base := (rfl)
@[simp] theorem raiseIf_lead (b : Bool) (c : Half) (p : List Nat) (s : State) : (raiseIf b c p s).lead = s.lead := by cases b <;> rfl
@[simp] theorem State.onCore_lead (s : State) (c : Nat) (f : CoreState → CoreState) : (s.onCore c f).lead = s.lead := (rfl)
@[simp] theorem freePick_lead (n : Nat) (s : State) : (freePick n s).2.lead = s.lead := (rfl)
@[simp] theorem ite_lead (c : Prop) [Decidable c] (a b : State) : (if c then a else b).lead = if c then a.lead else b.lead := by split <;> rfl
@[simp] theorem refuseWrite_lead (off : Nat) (s : State) : (refuseWrite off s).lead = s.lead := (rfl)
@[simp] theorem gated_lead (off : Nat) (f : State → State) (s : State) (h : (f s).lead = s.lead) : (gated off f s).lead = s.lead := by
  unfold gated; split
  · exact h
  · rfl
@[simp] theorem foldl_lead {α : Type} (f : State → α → State) (h : ∀ s x, (f s x).lead = s.lead) (l : List α) (s : State) :
    (l.foldl f s).lead = s.lead := by
  induction l generalizing s with
  | nil => rfl
  | cons x xs ih => rw [List.foldl_cons, ih, h]
@[simp] theorem ite_pending (c : Prop) [Decidable c] (a b : State) : (if c then a else b).pending = if c then a.pending else b.pending := by split <;> rfl
@[simp] theorem refuseWrite_pending (off : Nat) (s : State) : (refuseWrite off s).pending = s.pending := (rfl)
@[simp] theorem gated_pending (off : Nat) (f : State → State) (s : State) (h : (f s).pending = s.pending) : (gated off f s).pending = s.pending := by
  unfold gated; split
  · exact h
  · rfl
@[simp] theorem foldl_pending {α : Type} (f : State → α → State) (h : ∀ s x, (f s x).pending = s.pending) (l : List α) (s : State) :
    (l.foldl f s).pending = s.pending := by
  induction l generalizing s with
  | nil => rfl
  | cons x xs ih => rw [List.foldl_cons, ih, h]
@[simp] theorem raiseIf_mems (b : Bool) (c : Half) (p : List Nat) (s : State) : (raiseIf b c p s).mems = s.mems := by cases b <;> rfl
@[simp] theorem State.onCore_mems (s : State) (c : Nat) (f : CoreState → CoreState) : (s.onCore c f).mems = s.mems := (rfl)
@[simp] theorem freePick_mems (n : Nat) (s : State) : (freePick n s).2.mems = s.mems := (rfl)
@[simp] theorem ite_mems (c : Prop) [Decidable c] (a b : State) : (if c then a else b).mems = if c then a.mems else b.mems := by split <;> rfl
@[simp] theorem refuseWrite_mems (off : Nat) (s : State) : (refuseWrite off s).mems = s.mems := (rfl)
@[simp] theorem gated_mems (off : Nat) (f : State → State) (s : State) (h : (f s).mems = s.mems) : (gated off f s).mems = s.mems := by
  unfold gated; split
  · exact h
  · rfl
@[simp] theorem foldl_mems {α : Type} (f : State → α → State) (h : ∀ s x, (f s x).mems = s.mems) (l : List α) (s : State) :
    (l.foldl f s).mems = s.mems := by
  induction l generalizing s with
  | nil => rfl
  | cons x xs ih => rw [List.foldl_cons, ih, h]
@[simp] theorem raiseIf_base (b : Bool) (c : Half) (p : List Nat) (s : State) : (raiseIf b c p s).base = s.base := by cases b <;> rfl
@[simp] theorem freePick_base (n : Nat) (s : State) : (freePick n s).2.base = s.base := (rfl)
@[simp] theorem ite_base (c : Prop) [Decidable c] (a b : State) : (if c then a else b).base = if c then a.base else b.base := by split <;> rfl
@[simp] theorem refuseWrite_base (off : Nat) (s : State) : (refuseWrite off s).base = s.base := (rfl)
@[simp] theorem gated_base (off : Nat) (f : State → State) (s : State) (h : (f s).base = s.base) : (gated off f s).base = s.base := by
  unfold gated; split
  · exact h
  · rfl
@[simp] theorem foldl_base {α : Type} (f : State → α → State) (h : ∀ s x, (f s x).base = s.base) (l : List α) (s : State) :
    (l.foldl f s).base = s.base := by
  induction l generalizing s with
  | nil => rfl
  | cons x xs ih => rw [List.foldl_cons, ih, h]

theorem memWf_iff (s : State) : s.memWf ↔ memsWf s.mems := Iff.rfl

@[simp] theorem ite_wf (c : Prop) [Decidable c] (a b : State) (ha : memsWf a.mems) (hb : memsWf b.mems) : memsWf (if c then a else b).mems := by
  split
  · exact ha
  · exact hb

@[simp] theorem foldl_wf {α : Type} (f : State → α → State) (h : ∀ s x, memsWf s.mems → memsWf (f s x).mems) (l : List α) (s : State)
    (w : memsWf s.mems) : memsWf (l.foldl f s).mems := by
  induction l generalizing s with
  | nil => exact w
  | cons x xs ih => exact ih _ (h s x w)

theorem acc_wf (s : State) (m : Memory) (w : memsWf s.mems) (h : m.wf = true) : memsWf ({ s with acc := m } : State).mems :=
  ⟨h, w.2⟩

theorem spool_wf (s : State) (m : Memory) (w : memsWf s.mems) (h : m.wf = true) : memsWf ({ s with spool := m } : State).mems :=
  ⟨w.1, h, w.2.2⟩

theorem creel_wf (s : State) (m : Memory) (w : memsWf s.mems) (h : m.wf = true) : memsWf ({ s with creel := m } : State).mems :=
  ⟨w.1, w.2.1, h, w.2.2.2⟩

theorem skein_wf (s : State) (m : Memory) (w : memsWf s.mems) (h : m.wf = true) : memsWf ({ s with skein := m } : State).mems :=
  ⟨w.1, w.2.1, w.2.2.1, h⟩

end Sys2Proof.Machine
end

