-- ==== Sys2Proof/Laws/FrameOps.lean ====
section
/-! SUPPORT. What the operations of `Sys2Proof.Machine.Ops` leave of the queue, module flash and the memories. -/

namespace Sys2Proof.Machine

@[simp] theorem raiseAt_lead (batch : Nat) (code : Half) (payload : List Nat) (s : State) : (raiseAt batch code payload s).lead = s.lead := (rfl)
@[simp] theorem raiseAt_mems (batch : Nat) (code : Half) (payload : List Nat) (s : State) : (raiseAt batch code payload s).mems = s.mems := (rfl)
@[simp] theorem raiseExec_lead (code : Half) (payload : List Nat) (s : State) : (raiseExec code payload s).lead = s.lead := (rfl)
@[simp] theorem raiseExec_mems (code : Half) (payload : List Nat) (s : State) : (raiseExec code payload s).mems = s.mems := (rfl)
@[simp] theorem countSigFail_lead (n : Nat) (s : State) : (countSigFail n s).lead = s.lead := by unfold countSigFail; split <;> rfl
@[simp] theorem countSigFail_mems (n : Nat) (s : State) : (countSigFail n s).mems = s.mems := by unfold countSigFail; split <;> rfl
@[simp] theorem batchKhz_lead (scaled tick : Nat) (s : State) : (batchKhz scaled tick s).lead = s.lead := by simp [batchKhz]
@[simp] theorem batchKhz_mems (scaled tick : Nat) (s : State) : (batchKhz scaled tick s).mems = s.mems := by simp [batchKhz]

end Sys2Proof.Machine
end

