-- ==== Sys2Proof/Laws/FrameLink.lean ====
section
/-! SUPPORT. What the operations of `Sys2Proof.Machine.Link` leave of the queue, module flash and the memories. -/

namespace Sys2Proof.Machine

@[simp] theorem State.onPort_lead (s : State) (p : PortIx) (f : Port → Port) : (State.onPort s p f).lead = s.lead := (rfl)
@[simp] theorem State.onPort_mems (s : State) (p : PortIx) (f : Port → Port) : (State.onPort s p f).mems = s.mems := (rfl)
@[simp] theorem putWire_lead (p : PortIx) (f : Frame) (s : State) : (putWire p f s).lead = s.lead := (rfl)
@[simp] theorem putWire_mems (p : PortIx) (f : Frame) (s : State) : (putWire p f s).mems = s.mems := (rfl)
@[simp] theorem giveBack_lead (p : PortIx) (vc blocks : Nat) (s : State) : (giveBack p vc blocks s).lead = s.lead := by unfold giveBack; split <;> rfl
@[simp] theorem giveBack_mems (p : PortIx) (vc blocks : Nat) (s : State) : (giveBack p vc blocks s).mems = s.mems := by unfold giveBack; split <;> rfl
@[simp] theorem Queued.done_lead (x : Queued) (s : State) : (Queued.done x s).lead = s.lead := by unfold Queued.done; split <;> rfl
@[simp] theorem Queued.done_mems (x : Queued) (s : State) : (Queued.done x s).mems = s.mems := by unfold Queued.done; split <;> rfl
@[simp] theorem putWires_lead (p : PortIx) (l : List Frame) (s : State) : (putWires p l s).lead = s.lead := by
  induction l generalizing s with
  | nil => rfl
  | cons f fs ih => simp [putWires, ih]
@[simp] theorem pumpN_lead (p : PortIx) (n : Nat) (s : State) : (pumpN p n s).lead = s.lead := by
  induction n generalizing s with
  | zero => rfl
  | succ n ih => unfold pumpN; (repeat' split) <;> simp [ih]
@[simp] theorem pump_lead (p : PortIx) (s : State) : (pump p s).lead = s.lead := by simp [pump]
@[simp] theorem putWires_mems (p : PortIx) (l : List Frame) (s : State) : (putWires p l s).mems = s.mems := by
  induction l generalizing s with
  | nil => rfl
  | cons f fs ih => simp [putWires, ih]
@[simp] theorem pumpN_mems (p : PortIx) (n : Nat) (s : State) : (pumpN p n s).mems = s.mems := by
  induction n generalizing s with
  | zero => rfl
  | succ n ih => unfold pumpN; (repeat' split) <;> simp [ih]
@[simp] theorem pump_mems (p : PortIx) (s : State) : (pump p s).mems = s.mems := by simp [pump]
@[simp] theorem queueVia_lead (via : Option PortIx) (p : PortIx) (f : Frame) (s : State) : (queueVia via p f s).lead = s.lead := by simp [queueVia]
@[simp] theorem queueVia_mems (via : Option PortIx) (p : PortIx) (f : Frame) (s : State) : (queueVia via p f s).mems = s.mems := by simp [queueVia]
@[simp] theorem queueFrame_lead (p : PortIx) (f : Frame) (s : State) : (queueFrame p f s).lead = s.lead := by simp [queueFrame]
@[simp] theorem queueFrame_mems (p : PortIx) (f : Frame) (s : State) : (queueFrame p f s).mems = s.mems := by simp [queueFrame]
@[simp] theorem sendOn_lead (p : Option PortIx) (f : Frame) (s : State) : (sendOn p f s).lead = s.lead := by unfold sendOn; (try dsimp only); (repeat' split) <;> (first | rfl | (simp [*]; done))
@[simp] theorem sendOn_mems (p : Option PortIx) (f : Frame) (s : State) : (sendOn p f s).mems = s.mems := by unfold sendOn; (try dsimp only); (repeat' split) <;> (first | rfl | (simp [*]; done))
@[simp] theorem sendUnicast_lead (f : Frame) (s : State) : (sendUnicast f s).lead = s.lead := by simp [sendUnicast]
@[simp] theorem sendUnicast_mems (f : Frame) (s : State) : (sendUnicast f s).mems = s.mems := by simp [sendUnicast]
@[simp] theorem spread_lead (roleP roleM n o c : Nat) (only : Option Bool) (f : Frame) (s : State) : (spread roleP roleM n o c only f s).lead = s.lead := by simp [spread]
@[simp] theorem spread_mems (roleP roleM n o c : Nat) (only : Option Bool) (f : Frame) (s : State) : (spread roleP roleM n o c only f s).mems = s.mems := by simp [spread]
@[simp] theorem passBroadcast_lead (arrival : Option Nat) (f : Frame) (s : State) : (passBroadcast arrival f s).lead = s.lead := by unfold passBroadcast; (try dsimp only); (repeat' split) <;> (first | rfl | (simp [*]; done))
@[simp] theorem passBroadcast_mems (arrival : Option Nat) (f : Frame) (s : State) : (passBroadcast arrival f s).mems = s.mems := by unfold passBroadcast; (try dsimp only); (repeat' split) <;> (first | rfl | (simp [*]; done))
@[simp] theorem broadcast_lead (f : Frame) (s : State) : (broadcast f s).lead = s.lead := by simp [broadcast]
@[simp] theorem broadcast_mems (f : Frame) (s : State) : (broadcast f s).mems = s.mems := by simp [broadcast]
@[simp] theorem sendLinkCtrl_lead (p : PortIx) (nak : Bool) (s : State) : (sendLinkCtrl p nak s).lead = s.lead := (rfl)
@[simp] theorem sendLinkCtrl_mems (p : PortIx) (nak : Bool) (s : State) : (sendLinkCtrl p nak s).mems = s.mems := (rfl)
@[simp] theorem nakNow_lead (p : PortIx) (s : State) : (nakNow p s).lead = s.lead := (rfl)
@[simp] theorem nakNow_mems (p : PortIx) (s : State) : (nakNow p s).mems = s.mems := (rfl)
@[simp] theorem sendNak_lead (p : PortIx) (s : State) : (sendNak p s).lead = s.lead := by unfold sendNak; split <;> rfl
@[simp] theorem sendNak_mems (p : PortIx) (s : State) : (sendNak p s).mems = s.mems := by unfold sendNak; split <;> rfl
@[simp] theorem retrainPort_lead (p : PortIx) (cause : Nat) (s : State) : (retrainPort p cause s).lead = s.lead := by unfold retrainPort; (try dsimp only); (repeat' split) <;> (first | rfl | (simp [*]; done))
@[simp] theorem retrainPort_mems (p : PortIx) (cause : Nat) (s : State) : (retrainPort p cause s).mems = s.mems := by unfold retrainPort; (try dsimp only); (repeat' split) <;> (first | rfl | (simp [*]; done))
@[simp] theorem retryLimit_lead (p : PortIx) (cause : RetrainCause) (s : State) : (retryLimit p cause s).lead = s.lead := by simp [retryLimit]
@[simp] theorem retryLimit_mems (p : PortIx) (cause : RetrainCause) (s : State) : (retryLimit p cause s).mems = s.mems := by simp [retryLimit]
@[simp] theorem resendAll_lead (p : PortIx) (s : State) : (resendAll p s).lead = s.lead := by simp [resendAll]
@[simp] theorem resendAll_mems (p : PortIx) (s : State) : (resendAll p s).mems = s.mems := by simp [resendAll]
@[simp] theorem sendHello_lead (p : PortIx) (s : State) : (sendHello p s).lead = s.lead := (rfl)
@[simp] theorem sendHello_mems (p : PortIx) (s : State) : (sendHello p s).mems = s.mems := (rfl)
@[simp] theorem joinPort_lead (p : PortIx) (h : HelloInfo) (s : State) : (joinPort p h s).lead = s.lead := by simp [joinPort]
@[simp] theorem joinPort_mems (p : PortIx) (h : HelloInfo) (s : State) : (joinPort p h s).mems = s.mems := by simp [joinPort]
@[simp] theorem takeHello_lead (p : PortIx) (h : HelloInfo) (s : State) : (takeHello p h s).lead = s.lead := by simp [takeHello]
@[simp] theorem takeHello_mems (p : PortIx) (h : HelloInfo) (s : State) : (takeHello p h s).mems = s.mems := by simp [takeHello]
@[simp] theorem helloAgain_lead (s : State) (p : PortIx) : (helloAgain s p).lead = s.lead := by unfold helloAgain; (try dsimp only); (repeat' split) <;> (first | rfl | (simp [*]; done))
@[simp] theorem helloAgain_mems (s : State) (p : PortIx) : (helloAgain s p).mems = s.mems := by unfold helloAgain; (try dsimp only); (repeat' split) <;> (first | rfl | (simp [*]; done))
@[simp] theorem helloAll_lead (s : State) : (helloAll s).lead = s.lead := by simp [helloAll]
@[simp] theorem helloAll_mems (s : State) : (helloAll s).mems = s.mems := by simp [helloAll]
@[simp] theorem portUp_lead (p : PortIx) (s : State) : (portUp p s).lead = s.lead := (rfl)
@[simp] theorem portUp_mems (p : PortIx) (s : State) : (portUp p s).mems = s.mems := (rfl)
@[simp] theorem portGone_lead (st : PState) (p : PortIx) (s : State) : (portGone st p s).lead = s.lead := by unfold portGone; split <;> rfl
@[simp] theorem portGone_mems (st : PState) (p : PortIx) (s : State) : (portGone st p s).mems = s.mems := by unfold portGone; split <;> rfl
@[simp] theorem answerNotReady_lead (p : PortIx) (f : Frame) (s : State) : (answerNotReady p f s).lead = s.lead := (rfl)
@[simp] theorem answerNotReady_mems (p : PortIx) (f : Frame) (s : State) : (answerNotReady p f s).mems = s.mems := (rfl)
@[simp] theorem dropFrames_lead (drop : Frame → Bool) (s : State) : (dropFrames drop s).lead = s.lead := by simp [dropFrames]
@[simp] theorem dropFrames_mems (drop : Frame → Bool) (s : State) : (dropFrames drop s).mems = s.mems := by simp [dropFrames]
@[simp] theorem dropRevoked_lead (batch exec : Nat) (s : State) : (dropRevoked batch exec s).lead = s.lead := by simp [dropRevoked]
@[simp] theorem dropRevoked_mems (batch exec : Nat) (s : State) : (dropRevoked batch exec s).mems = s.mems := by simp [dropRevoked]
@[simp] theorem frameParity_lead (boundary : Fin 8) (s : State) : (frameParity boundary s).lead = s.lead := (rfl)
@[simp] theorem frameParity_mems (boundary : Fin 8) (s : State) : (frameParity boundary s).mems = s.mems := (rfl)
@[simp] theorem endpoint_lead (first : Bool) (k : Rx → State → State) (r : Rx) (s : State) (hk : ∀ x y, (k x y).lead = y.lead) : (endpoint first k r s).lead = s.lead := by unfold endpoint; (try dsimp only); (repeat' split) <;> (first | rfl | (simp [*]; done))
@[simp] theorem endpoint_mems (first : Bool) (k : Rx → State → State) (r : Rx) (s : State) (hk : ∀ x y, (k x y).mems = y.mems) : (endpoint first k r s).mems = s.mems := by unfold endpoint; (try dsimp only); (repeat' split) <;> (first | rfl | (simp [*]; done))
@[simp] theorem endpoint_wf (first : Bool) (k : Rx → State → State) (r : Rx) (s : State) (hk : ∀ x y, memsWf y.mems → memsWf (k x y).mems) (wf : memsWf s.mems) : memsWf (endpoint first k r s).mems := by unfold endpoint; (try dsimp only); (repeat' split) <;> (first | assumption | (simp (maxDischargeDepth := 30) [*]; done))
@[simp] theorem accepted_lead (k : Rx → State → State) (r : Rx) (s : State) (hk : ∀ x y, (k x y).lead = y.lead) : (accepted k r s).lead = s.lead := by unfold accepted; (try dsimp only); (repeat' split) <;> (first | rfl | (simp [*]; done))
@[simp] theorem accepted_mems (k : Rx → State → State) (r : Rx) (s : State) (hk : ∀ x y, (k x y).mems = y.mems) : (accepted k r s).mems = s.mems := by unfold accepted; (try dsimp only); (repeat' split) <;> (first | rfl | (simp [*]; done))
@[simp] theorem receive_lead (k : Rx → State → State) (r : Rx) (s : State) (hk : ∀ x y, (k x y).lead = y.lead) : (receive k r s).lead = s.lead := by unfold receive; (try dsimp only); (repeat' split) <;> (first | rfl | (simp [*]; done))
@[simp] theorem receive_mems (k : Rx → State → State) (r : Rx) (s : State) (hk : ∀ x y, (k x y).mems = y.mems) : (receive k r s).mems = s.mems := by unfold receive; (try dsimp only); (repeat' split) <;> (first | rfl | (simp [*]; done))
@[simp] theorem receiveLink_lead (k : Rx → State → State) (r : Rx) (s : State) (hk : ∀ x y, (k x y).lead = y.lead) : (receiveLink k r s).lead = s.lead := by unfold receiveLink; (try dsimp only); (repeat' split) <;> (first | rfl | (simp [*]; done))
@[simp] theorem receiveLink_mems (k : Rx → State → State) (r : Rx) (s : State) (hk : ∀ x y, (k x y).mems = y.mems) : (receiveLink k r s).mems = s.mems := by unfold receiveLink; (try dsimp only); (repeat' split) <;> (first | rfl | (simp [*]; done))
@[simp] theorem receiveLink_wf (k : Rx → State → State) (r : Rx) (s : State) (hk : ∀ x y, memsWf y.mems → memsWf (k x y).mems) (wf : memsWf s.mems) : memsWf (receiveLink k r s).mems := by unfold receiveLink; (try dsimp only); (repeat' split) <;> (first | assumption | (simp (maxDischargeDepth := 30) [*]; done))

end Sys2Proof.Machine
end

