-- ==== Sys2Proof/Laws/FrameFlags.lean ====
section
/-! SUPPORT. What the operations of `Sys2Proof.Machine.Flags` leave of the queue, module flash and the memories. -/

namespace Sys2Proof.Machine

@[simp] theorem dropPartGradients_lead (which : Nat → Bool) (s : State) : (dropPartGradients which s).lead = s.lead := by unfold dropPartGradients; (try dsimp only); (repeat' split) <;> (first | rfl | (simp [*]; done))
@[simp] theorem dropPartGradients_mems (which : Nat → Bool) (s : State) : (dropPartGradients which s).mems = s.mems := by unfold dropPartGradients; (try dsimp only); (repeat' split) <;> (first | rfl | (simp [*]; done))
@[simp] theorem holdSkip_lead (s : State) : (holdSkip s).lead = s.lead := (rfl)
@[simp] theorem holdSkip_mems (s : State) : (holdSkip s).mems = s.mems := (rfl)
@[simp] theorem managerNotice_lead (s : State) : (managerNotice s).lead = s.lead := by simp [managerNotice]
@[simp] theorem managerNotice_mems (s : State) : (managerNotice s).mems = s.mems := by simp [managerNotice]
@[simp] theorem noteNonfinite_lead (s : State) : (noteNonfinite s).lead = s.lead := by simp [noteNonfinite]
@[simp] theorem noteNonfinite_mems (s : State) : (noteNonfinite s).mems = s.mems := by simp [noteNonfinite]
@[simp] theorem noteIf_lead (c : Bool) (s : State) : (noteIf c s).lead = s.lead := by simp [noteIf]
@[simp] theorem noteIf_mems (c : Bool) (s : State) : (noteIf c s).mems = s.mems := by simp [noteIf]
@[simp] theorem coreInvalid_lead (core : Nat) (sets : List InvalidAt) (s : State) : (coreInvalid core sets s).lead = s.lead := by unfold coreInvalid; (try dsimp only); (repeat' split) <;> (first | rfl | (simp [*]; done))
@[simp] theorem coreInvalid_mems (core : Nat) (sets : List InvalidAt) (s : State) : (coreInvalid core sets s).mems = s.mems := by unfold coreInvalid; (try dsimp only); (repeat' split) <;> (first | rfl | (simp [*]; done))
@[simp] theorem coreInf_lead (core : Nat) (inf : Bool) (s : State) : (coreInf core inf s).lead = s.lead := by unfold coreInf; split <;> rfl
@[simp] theorem coreInf_mems (core : Nat) (inf : Bool) (s : State) : (coreInf core inf s).mems = s.mems := by unfold coreInf; split <;> rfl
@[simp] theorem coreReports_lead (core : Nat) (fl : Flags) (sets : List InvalidAt) (s : State) : (coreReports core fl sets s).lead = s.lead := by simp [coreReports]
@[simp] theorem coreReports_mems (core : Nat) (fl : Flags) (sets : List InvalidAt) (s : State) : (coreReports core fl sets s).mems = s.mems := by simp [coreReports]
@[simp] theorem State.onTile_lead (s : State) (a : AccRef) (f : AccTile → AccTile) : (State.onTile s a f).lead = s.lead := (rfl)
@[simp] theorem State.onTile_mems (s : State) (a : AccRef) (f : AccTile → AccTile) : (State.onTile s a f).mems = s.mems := (rfl)
@[simp] theorem stepFlags_lead (core : Nat) (t : TileFlags) (s : State) : (stepFlags core t s).lead = s.lead := by unfold stepFlags; split <;> rfl
@[simp] theorem stepFlags_mems (core : Nat) (t : TileFlags) (s : State) : (stepFlags core t s).mems = s.mems := by unfold stepFlags; split <;> rfl
@[simp] theorem drainedWith_lead (core off : Nat) (code : Half) (on already : Bool) (mark : CoreState → CoreState) (s : State) : (drainedWith core off code on already mark s).lead = s.lead := by simp [drainedWith]
@[simp] theorem drainedWith_mems (core off : Nat) (code : Half) (on already : Bool) (mark : CoreState → CoreState) (s : State) : (drainedWith core off code on already mark s).mems = s.mems := by simp [drainedWith]
@[simp] theorem drainFlags_lead (a : AccRef) (t : TileFlags) (s : State) : (drainFlags a t s).lead = s.lead := by simp [drainFlags]
@[simp] theorem drainFlags_mems (a : AccRef) (t : TileFlags) (s : State) : (drainFlags a t s).mems = s.mems := by simp [drainFlags]

end Sys2Proof.Machine
end

