-- ==== Sys2Proof/Laws/FrameShuttle.lean ====
section
/-! SUPPORT. What the operations of `Sys2Proof.Machine.Shuttle` leave of the queue, module flash and the memories. -/

namespace Sys2Proof.Machine

@[simp] theorem State.onStack_lead (s : State) (k : StackIx) (f : Stack → Stack) : (State.onStack s k f).lead = s.lead := (rfl)
@[simp] theorem State.onStack_mems (s : State) (k : StackIx) (f : Stack → Stack) : (State.onStack s k f).mems = s.mems := (rfl)
@[simp] theorem State.onArbiter_lead (s : State) (k : StackIx) (c : ChanIx) (f : Arbiter → Arbiter) : (State.onArbiter s k c f).lead = s.lead := (rfl)
@[simp] theorem State.onArbiter_mems (s : State) (k : StackIx) (c : ChanIx) (f : Arbiter → Arbiter) : (State.onArbiter s k c f).mems = s.mems := (rfl)
@[simp] theorem countBeats_lead (k : StackIx) (c : ChanIx) (cls : ClassIx) (beats : Nat) (s : State) : (countBeats k c cls beats s).lead = s.lead := by simp [countBeats]
@[simp] theorem countBeats_mems (k : StackIx) (c : ChanIx) (cls : ClassIx) (beats : Nat) (s : State) : (countBeats k c cls beats s).mems = s.mems := by simp [countBeats]
@[simp] theorem chargeOwner_lead (k : StackIx) (c : ChanIx) (beats : Nat) (s : State) : (chargeOwner k c beats s).lead = s.lead := by unfold chargeOwner; (try dsimp only); (repeat' split) <;> (first | rfl | (simp [*]; done))
@[simp] theorem chargeOwner_mems (k : StackIx) (c : ChanIx) (beats : Nat) (s : State) : (chargeOwner k c beats s).mems = s.mems := by unfold chargeOwner; (try dsimp only); (repeat' split) <;> (first | rfl | (simp [*]; done))
@[simp] theorem refill_lead (k : StackIx) (c : ChanIx) (beats : Nat) (s : State) : (refill k c beats s).lead = s.lead := by simp [refill]
@[simp] theorem refill_mems (k : StackIx) (c : ChanIx) (beats : Nat) (s : State) : (refill k c beats s).mems = s.mems := by simp [refill]
@[simp] theorem noteWait_lead (k : StackIx) (c : ChanIx) (cls : ClassIx) (wait : Nat) (s : State) : (noteWait k c cls wait s).lead = s.lead := (rfl)
@[simp] theorem noteWait_mems (k : StackIx) (c : ChanIx) (cls : ClassIx) (wait : Nat) (s : State) : (noteWait k c cls wait s).mems = s.mems := (rfl)
@[simp] theorem arbitrate_lead (k : StackIx) (c : ChanIx) (requests : BitVec 5) (beats wait : Nat) (s : State) : (arbitrate k c requests beats wait s).lead = s.lead := by unfold arbitrate; (try dsimp only); (repeat' split) <;> (first | rfl | (simp [*]; done))
@[simp] theorem arbitrate_mems (k : StackIx) (c : ChanIx) (requests : BitVec 5) (beats wait : Nat) (s : State) : (arbitrate k c requests beats wait s).mems = s.mems := by unfold arbitrate; (try dsimp only); (repeat' split) <;> (first | rfl | (simp [*]; done))
@[simp] theorem writeSknCtrl_lead (k : StackIx) (val : Word) (s : State) : (writeSknCtrl k val s).lead = s.lead := by unfold writeSknCtrl; split <;> rfl
@[simp] theorem writeSknCtrl_mems (k : StackIx) (val : Word) (s : State) : (writeSknCtrl k val s).mems = s.mems := by unfold writeSknCtrl; split <;> rfl

end Sys2Proof.Machine
end

