-- ==== Sys2Proof/Laws/FramePlaces.lean ====
section
/-! SUPPORT. What the operations of `Sys2Proof.Machine.Places` leave of the queue, module flash and the memories. -/

namespace Sys2Proof.Machine

@[simp] theorem State.putSpool_lead (s : State) (a : Nat) (bs : List Byte) : (State.putSpool s a bs).lead = s.lead := (rfl)
@[simp] theorem State.putSpool_wf (s : State) (a : Nat) (bs : List Byte) (wf : memsWf s.mems) : memsWf (s.putSpool a bs).mems :=
  ⟨wf.1, Memory.writeBytes_wf wf.2.1 _ _, wf.2.2⟩
@[simp] theorem State.putCreel_lead (s : State) (a : Nat) (bs : List Byte) : (State.putCreel s a bs).lead = s.lead := (rfl)
@[simp] theorem State.putCreel_wf (s : State) (a : Nat) (bs : List Byte) (wf : memsWf s.mems) : memsWf (s.putCreel a bs).mems :=
  ⟨wf.1, wf.2.1, Memory.writeBytes_wf wf.2.2.1 _ _, wf.2.2.2⟩
@[simp] theorem State.putSkein_lead (s : State) (a : Nat) (bs : List Byte) : (State.putSkein s a bs).lead = s.lead := (rfl)
@[simp] theorem State.putSkein_wf (s : State) (a : Nat) (bs : List Byte) (wf : memsWf s.mems) : memsWf (s.putSkein a bs).mems :=
  ⟨wf.1, wf.2.1, wf.2.2.1, Memory.writeBytes_wf wf.2.2.2 _ _⟩
@[simp] theorem State.putPlaces_lead (s : State) (ps : List (Nat × Nat)) (bs : List Byte) : (State.putPlaces s ps bs).lead = s.lead := (rfl)
theorem writePlaces_wf (ps : List (Nat × Nat)) (bs : List Byte) (m : Memory) (h : m.wf = true) : (writePlaces ps bs m).wf = true := by
  induction ps generalizing bs m with
  | nil => exact h
  | cons p ps ih => exact ih _ _ (Memory.writeBytes_wf h _ _)
@[simp] theorem State.putPlaces_wf (s : State) (ps : List (Nat × Nat)) (bs : List Byte) (wf : memsWf s.mems) : memsWf (s.putPlaces ps bs).mems :=
  ⟨wf.1, wf.2.1, wf.2.2.1, writePlaces_wf _ _ _ wf.2.2.2⟩
@[simp] theorem State.putSkeinWords_lead (s : State) (a : Nat) (ws : List Word) : (State.putSkeinWords s a ws).lead = s.lead := (rfl)
@[simp] theorem State.putSkeinWords_wf (s : State) (a : Nat) (ws : List Word) (wf : memsWf s.mems) : memsWf (s.putSkeinWords a ws).mems :=
  State.putSkein_wf s a _ wf
@[simp] theorem noteError_lead (addr kind : Nat) (byScrub : Bool) (cls symbol : Nat) (s : State) : (noteError addr kind byScrub cls symbol s).lead = s.lead := (rfl)
@[simp] theorem noteError_mems (addr kind : Nat) (byScrub : Bool) (cls symbol : Nat) (s : State) : (noteError addr kind byScrub cls symbol s).mems = s.mems := (rfl)
@[simp] theorem refuseRequest_lead (addr cls : Nat) (s : State) : (refuseRequest addr cls s).lead = s.lead := by simp [refuseRequest]
@[simp] theorem refuseRequest_mems (addr cls : Nat) (s : State) : (refuseRequest addr cls s).mems = s.mems := by simp [refuseRequest]
@[simp] theorem State.storeAt_lead (s : State) (l : Loc) (bs : List Byte) : (s.storeAt l bs).lead = s.lead := by
  unfold State.storeAt; split <;> (try split) <;> simp
@[simp] theorem State.storeAt_wf (s : State) (l : Loc) (bs : List Byte) (wf : memsWf s.mems) : memsWf (s.storeAt l bs).mems := by
  unfold State.storeAt; split <;> (try split) <;> simp [wf]

end Sys2Proof.Machine
end

