-- ==== Sys2Proof/Laws/FrameReel.lean ====
section
/-! SUPPORT. What the operations of `Sys2Proof.Machine.Reel` leave of the queue, module flash and the memories. -/

namespace Sys2Proof.Machine

@[simp] theorem State.onHank_lead (s : State) (tag : Nat) (f : HankRt → HankRt) : (State.onHank s tag f).lead = s.lead := (rfl)
@[simp] theorem State.onHank_mems (s : State) (tag : Nat) (f : HankRt → HankRt) : (State.onHank s tag f).mems = s.mems := (rfl)
@[simp] theorem sendReel_lead (marker : BitVec 4) (role par dest : Nat) (h : RHdr) (body : List Word) (s : State) : (sendReel marker role par dest h body s).lead = s.lead := by simp [sendReel]
@[simp] theorem sendReel_mems (marker : BitVec 4) (role par dest : Nat) (h : RHdr) (body : List Word) (s : State) : (sendReel marker role par dest h body s).mems = s.mems := by simp [sendReel]
@[simp] theorem distribute_lead (marker : BitVec 4) (owner : Nat) (h : RHdr) (body : List Word) (s : State) : (distribute marker owner h body s).lead = s.lead := by simp [distribute]
@[simp] theorem distribute_mems (marker : BitVec 4) (owner : Nat) (h : RHdr) (body : List Word) (s : State) : (distribute marker owner h body s).mems = s.mems := by simp [distribute]
@[simp] theorem putSources_lead (tag : Nat) (c : Contribution) (vals : List Word) (s : State) : (putSources tag c vals s).lead = s.lead := by unfold putSources; split <;> rfl
@[simp] theorem putSources_wf (tag : Nat) (c : Contribution) (vals : List Word) (s : State) (wf : memsWf s.mems) : memsWf (putSources tag c vals s).mems := by unfold putSources; (try dsimp only); (repeat' split) <;> (first | assumption | (simp (maxDischargeDepth := 30) [*]; done))
@[simp] theorem readSources_lead (tag : Nat) (c : Contribution) (s : State) : (readSources tag c s).lead = s.lead := by unfold readSources; (try dsimp only); (repeat' split) <;> (first | rfl | (simp [*]; done))
@[simp] theorem readSources_mems (tag : Nat) (c : Contribution) (s : State) : (readSources tag c s).mems = s.mems := by unfold readSources; (try dsimp only); (repeat' split) <;> (first | rfl | (simp [*]; done))
@[simp] theorem readRetained_lead (h : HankRt) (s : State) : (readRetained h s).lead = s.lead := by simp [readRetained]
@[simp] theorem readRetained_mems (h : HankRt) (s : State) : (readRetained h s).mems = s.mems := by simp [readRetained]
@[simp] theorem countClips_lead (tag : Nat) (c : Contribution) (s : State) : (countClips tag c s).lead = s.lead := by unfold countClips; (try dsimp only); (repeat' split) <;> (first | rfl | (simp [*]; done))
@[simp] theorem countClips_mems (tag : Nat) (c : Contribution) (s : State) : (countClips tag c s).mems = s.mems := by unfold countClips; (try dsimp only); (repeat' split) <;> (first | rfl | (simp [*]; done))
@[simp] theorem forwardPartial_lead (tag : Nat) (h : HankRt) (second : Bool) (tile seg : Nat) (contributors : Nat) (c : Checked) (s : State) : (forwardPartial tag h second tile seg contributors c s).lead = s.lead := by unfold forwardPartial; (try dsimp only); (repeat' split) <;> (first | rfl | (simp [*]; done))
@[simp] theorem forwardPartial_mems (tag : Nat) (h : HankRt) (second : Bool) (tile seg : Nat) (contributors : Nat) (c : Checked) (s : State) : (forwardPartial tag h second tile seg contributors c s).mems = s.mems := by unfold forwardPartial; (try dsimp only); (repeat' split) <;> (first | rfl | (simp [*]; done))
@[simp] theorem finishAdder_lead (tag : Nat) (second : Bool) (tile seg : Nat) (s : State) : (finishAdder tag second tile seg s).lead = s.lead := by unfold finishAdder; (try dsimp only); (repeat' split) <;> (first | rfl | (simp [*]; done))
@[simp] theorem finishAdder_mems (tag : Nat) (second : Bool) (tile seg : Nat) (s : State) : (finishAdder tag second tile seg s).mems = s.mems := by unfold finishAdder; (try dsimp only); (repeat' split) <;> (first | rfl | (simp [*]; done))
@[simp] theorem enterTile_lead (tag : Nat) (second : Bool) (tile : Nat) (s : State) : (enterTile tag second tile s).lead = s.lead := by
  refine foldl_lead _ (fun t seg => ?_) _ s
  split <;> simp
@[simp] theorem enterTile_mems (tag : Nat) (second : Bool) (tile : Nat) (s : State) : (enterTile tag second tile s).mems = s.mems := by
  refine foldl_mems _ (fun t seg => ?_) _ s
  split <;> simp
@[simp] theorem enterHank_lead (tag : Nat) (second : Bool) (s : State) : (enterHank tag second s).lead = s.lead := by unfold enterHank; (try dsimp only); (repeat' split) <;> (first | rfl | (simp [*]; done))
@[simp] theorem enterHank_mems (tag : Nat) (second : Bool) (s : State) : (enterHank tag second s).mems = s.mems := by unfold enterHank; (try dsimp only); (repeat' split) <;> (first | rfl | (simp [*]; done))
@[simp] theorem capture_lead (comparator : Nat) (c : Capture) (s : State) : (capture comparator c s).lead = s.lead := by simp [capture]
@[simp] theorem capture_mems (comparator : Nat) (c : Capture) (s : State) : (capture comparator c s).mems = s.mems := by simp [capture]
@[simp] theorem comparePaths_lead (p : Hank) (h : HankRt) (s : State) : (comparePaths p h s).lead = s.lead := by
  unfold comparePaths; dsimp only; split <;> simp
@[simp] theorem comparePaths_mems (p : Hank) (h : HankRt) (s : State) : (comparePaths p h s).mems = s.mems := by
  unfold comparePaths; dsimp only; split <;> simp
@[simp] theorem abandonShard_lead (tag : Nat) (s : State) : (abandonShard tag s).lead = s.lead := (rfl)
@[simp] theorem abandonShard_mems (tag : Nat) (s : State) : (abandonShard tag s).mems = s.mems := (rfl)
@[simp] theorem beginU_lead (s : State) : (beginU s).lead = s.lead := by simp [beginU]
@[simp] theorem beginU_mems (s : State) : (beginU s).mems = s.mems := by simp [beginU]
@[simp] theorem hankProgress_lead (tag : Nat) (s : State) : (hankProgress tag s).lead = s.lead := by unfold hankProgress; (try dsimp only); (repeat' split) <;> (first | rfl | (simp [*]; done))
@[simp] theorem hankProgress_mems (tag : Nat) (s : State) : (hankProgress tag s).mems = s.mems := by unfold hankProgress; (try dsimp only); (repeat' split) <;> (first | rfl | (simp [*]; done))
@[simp] theorem secondPath_lead (tag : Nat) (was : HankSt) (s : State) : (secondPath tag was s).lead = s.lead := by unfold secondPath; (try dsimp only); (repeat' split) <;> (first | rfl | (simp [*]; done))
@[simp] theorem secondPath_mems (tag : Nat) (was : HankSt) (s : State) : (secondPath tag was s).mems = s.mems := by unfold secondPath; (try dsimp only); (repeat' split) <;> (first | rfl | (simp [*]; done))
@[simp] theorem advanceHank_lead (tag : Nat) (s : State) : (advanceHank tag s).lead = s.lead := by unfold advanceHank; (try dsimp only); (repeat' split) <;> (first | rfl | (simp [*]; done))
@[simp] theorem advanceHank_mems (tag : Nat) (s : State) : (advanceHank tag s).mems = s.mems := by unfold advanceHank; (try dsimp only); (repeat' split) <;> (first | rfl | (simp [*]; done))
@[simp] theorem restartHank_lead (tag : Nat) (s : State) : (restartHank tag s).lead = s.lead := by unfold restartHank; (try dsimp only); (repeat' split) <;> (first | rfl | (simp [*]; done))
@[simp] theorem restartHank_mems (tag : Nat) (s : State) : (restartHank tag s).mems = s.mems := by unfold restartHank; (try dsimp only); (repeat' split) <;> (first | rfl | (simp [*]; done))
@[simp] theorem markHank_lead (tag : Nat) (s : State) : (markHank tag s).lead = s.lead := by simp [markHank]
@[simp] theorem markHank_mems (tag : Nat) (s : State) : (markHank tag s).mems = s.mems := by simp [markHank]
@[simp] theorem ownerRescale_lead (tag attempt detector : Nat) (s : State) : (ownerRescale tag attempt detector s).lead = s.lead := by unfold ownerRescale; (try dsimp only); (repeat' split) <;> (first | rfl | (simp [*]; done))
@[simp] theorem ownerRescale_mems (tag attempt detector : Nat) (s : State) : (ownerRescale tag attempt detector s).mems = s.mems := by unfold ownerRescale; (try dsimp only); (repeat' split) <;> (first | rfl | (simp [*]; done))
@[simp] theorem askRescale_lead (tag : Nat) (s : State) : (askRescale tag s).lead = s.lead := by unfold askRescale; (try dsimp only); (repeat' split) <;> (first | rfl | (simp [*]; done))
@[simp] theorem askRescale_mems (tag : Nat) (s : State) : (askRescale tag s).mems = s.mems := by unfold askRescale; (try dsimp only); (repeat' split) <;> (first | rfl | (simp [*]; done))
@[simp] theorem settleHank_lead (tag : Nat) (s : State) : (settleHank tag s).lead = s.lead := by simp [settleHank]
@[simp] theorem settleHank_mems (tag : Nat) (s : State) : (settleHank tag s).mems = s.mems := by simp [settleHank]
@[simp] theorem openHank_lead (tag : Nat) (s : State) : (openHank tag s).lead = s.lead := by simp [openHank]
@[simp] theorem openHank_mems (tag : Nat) (s : State) : (openHank tag s).mems = s.mems := by simp [openHank]
@[simp] theorem beginG_lead (s : State) : (beginG s).lead = s.lead := by simp [beginG]
@[simp] theorem beginG_mems (s : State) : (beginG s).mems = s.mems := by simp [beginG]
@[simp] theorem contribute_lead (tag tile group : Nat) (vals : List Word) (s : State) : (contribute tag tile group vals s).lead = s.lead := by
  unfold contribute
  split
  · rfl
  · dsimp only; split
    · simp
    · split
      · simp
      · split <;> simp
@[simp] theorem contribute_wf (tag tile group : Nat) (vals : List Word) (s : State) (wf : memsWf s.mems) : memsWf (contribute tag tile group vals s).mems := by
  have h (c : Contribution) : memsWf (countClips tag c (putSources tag c vals (s.onHank tag (keepContribution c)))).mems := by
    rw [countClips_mems]; exact putSources_wf _ _ _ _ (by simpa using wf)
  unfold contribute
  split
  · exact wf
  · dsimp only; split
    · exact h _
    · split
      · exact h _
      · split <;> simpa using h _
@[simp] theorem startG_lead (s : State) : (startG s).lead = s.lead := by unfold startG; (try dsimp only); (repeat' split) <;> (first | rfl | (simp [*]; done) | exact foldl_lead _ (fun t x => by (try dsimp only); (repeat' split) <;> (first | rfl | (simp [*]; done))) _ _ | (refine (foldl_lead _ (fun t x => by (try dsimp only); (repeat' split) <;> (first | rfl | (simp [*]; done))) _ _).trans ?_; (repeat' split) <;> (first | rfl | (simp [*]; done))))
@[simp] theorem startG_mems (s : State) : (startG s).mems = s.mems := by unfold startG; (try dsimp only); (repeat' split) <;> (first | rfl | (simp [*]; done) | exact foldl_mems _ (fun t x => by (try dsimp only); (repeat' split) <;> (first | rfl | (simp [*]; done))) _ _ | (refine (foldl_mems _ (fun t x => by (try dsimp only); (repeat' split) <;> (first | rfl | (simp [*]; done))) _ _).trans ?_; (repeat' split) <;> (first | rfl | (simp [*]; done))))
@[simp] theorem reelInvalid_lead (r : Rx) (s : State) : (reelInvalid r s).lead = s.lead := (rfl)
@[simp] theorem reelInvalid_mems (r : Rx) (s : State) : (reelInvalid r s).mems = s.mems := (rfl)
@[simp] theorem useSegment_lead (h : RHdr) (ws : List Word) (s : State) : (useSegment h ws s).lead = s.lead := by simp [useSegment]
@[simp] theorem useSegment_mems (h : RHdr) (ws : List Word) (s : State) : (useSegment h ws s).mems = s.mems := by simp [useSegment]
@[simp] theorem takeSegment_lead (r : Rx) (s : State) : (takeSegment r s).lead = s.lead := by unfold takeSegment; (try dsimp only); (repeat' split) <;> (first | rfl | (simp [*]; done))
@[simp] theorem takeSegment_mems (r : Rx) (s : State) : (takeSegment r s).mems = s.mems := by unfold takeSegment; (try dsimp only); (repeat' split) <;> (first | rfl | (simp [*]; done))
@[simp] theorem onSegment_lead (r : Rx) (s : State) : (onSegment r s).lead = s.lead := by simp [onSegment]
@[simp] theorem onSegment_mems (r : Rx) (s : State) : (onSegment r s).mems = s.mems := by simp [onSegment]
@[simp] theorem releaseSegments_lead (tag : Nat) (s : State) : (releaseSegments tag s).lead = s.lead := by unfold releaseSegments; (try dsimp only); (repeat' split) <;> (first | rfl | (simp [*]; done))
@[simp] theorem releaseSegments_mems (tag : Nat) (s : State) : (releaseSegments tag s).mems = s.mems := by unfold releaseSegments; (try dsimp only); (repeat' split) <;> (first | rfl | (simp [*]; done))
@[simp] theorem onRescale_lead (r : Rx) (s : State) : (onRescale r s).lead = s.lead := by unfold onRescale; (try dsimp only); (repeat' split) <;> (first | rfl | (simp [*]; done))
@[simp] theorem onRescale_mems (r : Rx) (s : State) : (onRescale r s).mems = s.mems := by unfold onRescale; (try dsimp only); (repeat' split) <;> (first | rfl | (simp [*]; done))

end Sys2Proof.Machine
end

