-- ==== Sys2Proof/Laws/FrameUpdate.lean ====
section
/-! SUPPORT. What the operations of `Sys2Proof.Machine.Update` leave of the queue, module flash and the memories. -/

namespace Sys2Proof.Machine

@[simp] theorem State.onShard_lead (s : State) (tag : Nat) (f : Shard → Shard) : (State.onShard s tag f).lead = s.lead := (rfl)
@[simp] theorem State.onShard_mems (s : State) (tag : Nat) (f : Shard → Shard) : (State.onShard s tag f).mems = s.mems := (rfl)
@[simp] theorem putSide_lead (p : Hank) (second : Bool) (b : ShardBuf) (s : State) : (putSide p second b s).lead = s.lead := by unfold putSide; split <;> rfl
@[simp] theorem putSide_wf (p : Hank) (second : Bool) (b : ShardBuf) (s : State) (wf : memsWf s.mems) : memsWf (putSide p second b s).mems := by unfold putSide; (try dsimp only); (repeat' split) <;> (first | assumption | (simp (maxDischargeDepth := 30) [*]; done))
@[simp] theorem flipSel_lead (tag : Nat) (s : State) : (flipSel tag s).lead = s.lead := by unfold flipSel; split <;> rfl
@[simp] theorem flipSel_wf (tag : Nat) (s : State) (wf : memsWf s.mems) : memsWf (flipSel tag s).mems := by unfold flipSel; (try dsimp only); (repeat' split) <;> (first | assumption | (simp (maxDischargeDepth := 30) [*]; done))
@[simp] theorem State.onLowRank_lead (s : State) (layer : Nat) (f : LowRankRt → LowRankRt) : (State.onLowRank s layer f).lead = s.lead := (rfl)
@[simp] theorem State.onLowRank_mems (s : State) (layer : Nat) (f : LowRankRt → LowRankRt) : (State.onLowRank s layer f).mems = s.mems := (rfl)
@[simp] theorem takeFactor_lead (layer kind tile seg : Nat) (vals : List Word) (s : State) : (takeFactor layer kind tile seg vals s).lead = s.lead := by unfold takeFactor; (try dsimp only); (repeat' split) <;> (first | rfl | (simp [*]; done))
@[simp] theorem takeFactor_mems (layer kind tile seg : Nat) (vals : List Word) (s : State) : (takeFactor layer kind tile seg vals s).mems = s.mems := by unfold takeFactor; (try dsimp only); (repeat' split) <;> (first | rfl | (simp [*]; done))
@[simp] theorem sendFactor_lead (tag : Nat) (s : State) : (sendFactor tag s).lead = s.lead := by unfold sendFactor; (try dsimp only); (repeat' split) <;> (first | rfl | (simp [*]; done))
@[simp] theorem sendFactor_mems (tag : Nat) (s : State) : (sendFactor tag s).mems = s.mems := by unfold sendFactor; (try dsimp only); (repeat' split) <;> (first | rfl | (simp [*]; done))
@[simp] theorem sendNewFactors_lead (before : State) (s : State) : (sendNewFactors before s).lead = s.lead := by
  unfold sendNewFactors
  refine foldl_lead _ (fun t p => ?_) _ s
  dsimp only
  (repeat' split) <;> simp
@[simp] theorem sendNewFactors_mems (before : State) (s : State) : (sendNewFactors before s).mems = s.mems := by
  unfold sendNewFactors
  refine foldl_mems _ (fun t p => ?_) _ s
  dsimp only
  (repeat' split) <;> simp
@[simp] theorem tellReduced_lead (s : State) : (tellReduced s).lead = s.lead := by simp [tellReduced]
@[simp] theorem tellReduced_mems (s : State) : (tellReduced s).mems = s.mems := by simp [tellReduced]
@[simp] theorem endF_lead (s : State) : (endF s).lead = s.lead := by simp [endF]
@[simp] theorem endF_mems (s : State) : (endF s).mems = s.mems := by simp [endF]
@[simp] theorem endB_lead (s : State) : (endB s).lead = s.lead := by simp [endB]
@[simp] theorem endB_mems (s : State) : (endB s).mems = s.mems := by simp [endB]
@[simp] theorem startU_lead (s : State) : (startU s).lead = s.lead := by unfold startU; split <;> rfl
@[simp] theorem startU_mems (s : State) : (startU s).mems = s.mems := by unfold startU; split <;> rfl
@[simp] theorem noteSpans_lead (s : State) : (noteSpans s).lead = s.lead := by simp [noteSpans]
@[simp] theorem noteSpans_mems (s : State) : (noteSpans s).mems = s.mems := by simp [noteSpans]
@[simp] theorem noteEnds_lead (s : State) : (noteEnds s).lead = s.lead := by simp [noteEnds]
@[simp] theorem noteEnds_mems (s : State) : (noteEnds s).mems = s.mems := by simp [noteEnds]
@[simp] theorem abandonHanks_lead (which : Hank → Bool) (s : State) : (abandonHanks which s).lead = s.lead := by unfold abandonHanks; exact foldl_lead _ (fun t x => by (try dsimp only); (repeat' split) <;> (first | rfl | (simp [*]; done))) _ _
@[simp] theorem abandonHanks_mems (which : Hank → Bool) (s : State) : (abandonHanks which s).mems = s.mems := by unfold abandonHanks; exact foldl_mems _ (fun t x => by (try dsimp only); (repeat' split) <;> (first | rfl | (simp [*]; done))) _ _
@[simp] theorem loseBelow_lead (bound : Nat) (s : State) : (loseBelow bound s).lead = s.lead := by simp [loseBelow]
@[simp] theorem loseBelow_mems (bound : Nat) (s : State) : (loseBelow bound s).mems = s.mems := by simp [loseBelow]
@[simp] theorem loseF_lead (s : State) : (loseF s).lead = s.lead := by simp [loseF]
@[simp] theorem loseF_mems (s : State) : (loseF s).mems = s.mems := by simp [loseF]
@[simp] theorem loseWork_lead (phase : Phase) (layer : Nat) (s : State) : (loseWork phase layer s).lead = s.lead := by unfold loseWork; (try dsimp only); (repeat' split) <;> (first | rfl | (simp [*]; done))
@[simp] theorem loseWork_mems (phase : Phase) (layer : Nat) (s : State) : (loseWork phase layer s).mems = s.mems := by unfold loseWork; (try dsimp only); (repeat' split) <;> (first | rfl | (simp [*]; done))
@[simp] theorem noteUpdateOvf_lead (tag n : Nat) (s : State) : (noteUpdateOvf tag n s).lead = s.lead := by simp [noteUpdateOvf]
@[simp] theorem noteUpdateOvf_mems (tag n : Nat) (s : State) : (noteUpdateOvf tag n s).mems = s.mems := by simp [noteUpdateOvf]
@[simp] theorem updateShard_lead (hk : Hanks) (l : Layer) (p : Hank) (h : HankRt) (s : State) : (updateShard hk l p h s).lead = s.lead := by simp [updateShard]
@[simp] theorem updateShard_wf (hk : Hanks) (l : Layer) (p : Hank) (h : HankRt) (s : State) (wf : memsWf s.mems) : memsWf (updateShard hk l p h s).mems := by simp (maxDischargeDepth := 30) [updateShard, *]
@[simp] theorem startShard_lead (p : Hank) (b : ShardBuf) (s : State) : (startShard p b s).lead = s.lead := by unfold startShard; (try dsimp only); (repeat' split) <;> (first | rfl | (simp [*]; done))
@[simp] theorem startShard_wf (p : Hank) (b : ShardBuf) (s : State) (wf : memsWf s.mems) : memsWf (startShard p b s).mems := by unfold startShard; (try dsimp only); (repeat' split) <;> (first | assumption | (simp (maxDischargeDepth := 30) [*]; done))
@[simp] theorem initShard_lead (l : Layer) (p : Hank) (s : State) : (initShard l p s).lead = s.lead := by simp [initShard]
@[simp] theorem initShard_wf (l : Layer) (p : Hank) (s : State) (wf : memsWf s.mems) : memsWf (initShard l p s).mems := by simp (maxDischargeDepth := 30) [initShard, *]
@[simp] theorem initLowRank_lead (l : Layer) (s : State) : (initLowRank l s).lead = s.lead := by simp [initLowRank]
@[simp] theorem initLowRank_mems (l : Layer) (s : State) : (initLowRank l s).mems = s.mems := by simp [initLowRank]

end Sys2Proof.Machine
end

