-- ==== Sys2Proof/Laws/FrameParams.lean ====
section
/-! SUPPORT. What the operations of `Sys2Proof.Machine.Params` leave of the queue, module flash and the memories. -/

namespace Sys2Proof.Machine

@[simp] theorem agreeScale_lead (tag : Nat) (rho : Int) (s : State) : (agreeScale tag rho s).lead = s.lead := by simp [agreeScale]
@[simp] theorem agreeScale_mems (tag : Nat) (rho : Int) (s : State) : (agreeScale tag rho s).mems = s.mems := by simp [agreeScale]
@[simp] theorem tryAgree_lead (tag : Nat) (s : State) : (tryAgree tag s).lead = s.lead := by unfold tryAgree; (try dsimp only); (repeat' split) <;> (first | rfl | (simp [*]; done))
@[simp] theorem tryAgree_mems (tag : Nat) (s : State) : (tryAgree tag s).mems = s.mems := by unfold tryAgree; (try dsimp only); (repeat' split) <;> (first | rfl | (simp [*]; done))
@[simp] theorem addProposal_lead (tag source : Nat) (rho : Int) (s : State) : (addProposal tag source rho s).lead = s.lead := by simp [addProposal]
@[simp] theorem addProposal_mems (tag source : Nat) (rho : Int) (s : State) : (addProposal tag source rho s).mems = s.mems := by simp [addProposal]
@[simp] theorem onProposal_lead (r : Rx) (s : State) : (onProposal r s).lead = s.lead := by simp [onProposal]
@[simp] theorem onProposal_mems (r : Rx) (s : State) : (onProposal r s).mems = s.mems := by simp [onProposal]
@[simp] theorem passOn_lead (r : Rx) (s : State) : (passOn r s).lead = s.lead := by simp [passOn]
@[simp] theorem passOn_mems (r : Rx) (s : State) : (passOn r s).mems = s.mems := by simp [passOn]
@[simp] theorem onAgreed_lead (r : Rx) (s : State) : (onAgreed r s).lead = s.lead := by simp [onAgreed]
@[simp] theorem onAgreed_mems (r : Rx) (s : State) : (onAgreed r s).mems = s.mems := by simp [onAgreed]
@[simp] theorem onFactor_lead (r : Rx) (s : State) : (onFactor r s).lead = s.lead := by unfold onFactor; (try dsimp only); (repeat' split) <;> (first | rfl | (simp [*]; done))
@[simp] theorem onFactor_mems (r : Rx) (s : State) : (onFactor r s).mems = s.mems := by unfold onFactor; (try dsimp only); (repeat' split) <;> (first | rfl | (simp [*]; done))
@[simp] theorem renewHanks_lead (keep : Bool) (s : State) : (renewHanks keep s).lead = s.lead := by unfold renewHanks; split <;> rfl
@[simp] theorem renewHanks_mems (keep : Bool) (s : State) : (renewHanks keep s).mems = s.mems := by unfold renewHanks; split <;> rfl
@[simp] theorem placeSegment_lead (p : Hank) (copy fmt tile seg : Nat) (bytes : List Byte) (s : State) : (placeSegment p copy fmt tile seg bytes s).lead = s.lead := by unfold placeSegment; (try dsimp only); (repeat' split) <;> (first | rfl | (simp [*]; done))
@[simp] theorem placeSegment_wf (p : Hank) (copy fmt tile seg : Nat) (bytes : List Byte) (s : State) (wf : memsWf s.mems) : memsWf (placeSegment p copy fmt tile seg bytes s).mems := by unfold placeSegment; (try dsimp only); (repeat' split) <;> (first | assumption | (simp (maxDischargeDepth := 30) [*]; done))
@[simp] theorem emitAll_lead (p : Hank) (es : List Emitted) (s : State) : (emitAll p es s).lead = s.lead := by simp [emitAll]
@[simp] theorem emitAll_wf (p : Hank) (es : List Emitted) (s : State) (wf : memsWf s.mems) : memsWf (emitAll p es s).mems := by
  unfold emitAll; dsimp only
  rw [distribute_mems]
  exact foldl_wf _ (fun t e w => by rw [distribute_mems]; exact placeSegment_wf _ _ _ _ _ _ _ w) _ _ wf
@[simp] theorem emitHank_lead (p : Hank) (s : State) : (emitHank p s).lead = s.lead := by unfold emitHank; (try dsimp only); (repeat' split) <;> (first | rfl | (simp [*]; done))
@[simp] theorem emitHank_wf (p : Hank) (s : State) (wf : memsWf s.mems) : memsWf (emitHank p s).mems := by unfold emitHank; (try dsimp only); (repeat' split) <;> (first | assumption | (simp (maxDischargeDepth := 30) [*]; done))
@[simp] theorem reEmit_lead (p : Hank) (s : State) : (reEmit p s).lead = s.lead := by simp [reEmit]
@[simp] theorem reEmit_wf (p : Hank) (s : State) (wf : memsWf s.mems) : memsWf (reEmit p s).mems := by simp (maxDischargeDepth := 30) [reEmit, *]
@[simp] theorem State.onParam_lead (s : State) (tag : Nat) (f : ParamRt → ParamRt) : (State.onParam s tag f).lead = s.lead := (rfl)
@[simp] theorem State.onParam_mems (s : State) (tag : Nat) (f : ParamRt → ParamRt) : (State.onParam s tag f).mems = s.mems := (rfl)
@[simp] theorem awaitParams_lead (s : State) : (awaitParams s).lead = s.lead := (rfl)
@[simp] theorem awaitParams_mems (s : State) : (awaitParams s).mems = s.mems := (rfl)
@[simp] theorem onParamSegment_lead (r : Rx) (s : State) : (onParamSegment r s).lead = s.lead := by unfold onParamSegment; (try dsimp only); (repeat' split) <;> (first | rfl | (simp [*]; done))
@[simp] theorem onParamSegment_wf (r : Rx) (s : State) (wf : memsWf s.mems) : memsWf (onParamSegment r s).mems := by unfold onParamSegment; (try dsimp only); (repeat' split) <;> (first | assumption | (simp (maxDischargeDepth := 30) [*]; done))
@[simp] theorem requestResend_lead (tag : Nat) (s : State) : (requestResend tag s).lead = s.lead := by simp [requestResend]
@[simp] theorem requestResend_mems (tag : Nat) (s : State) : (requestResend tag s).mems = s.mems := by simp [requestResend]
@[simp] theorem askResend_lead (tag : Nat) (s : State) : (askResend tag s).lead = s.lead := by simp [askResend]
@[simp] theorem askResend_mems (tag : Nat) (s : State) : (askResend tag s).mems = s.mems := by simp [askResend]
@[simp] theorem onParamEnd_lead (r : Rx) (s : State) : (onParamEnd r s).lead = s.lead := by unfold onParamEnd; (try dsimp only); (repeat' split) <;> (first | rfl | (simp [*]; done))
@[simp] theorem onParamEnd_mems (r : Rx) (s : State) : (onParamEnd r s).mems = s.mems := by unfold onParamEnd; (try dsimp only); (repeat' split) <;> (first | rfl | (simp [*]; done))
@[simp] theorem onParamResend_lead (r : Rx) (s : State) : (onParamResend r s).lead = s.lead := by unfold onParamResend; (try dsimp only); (repeat' split) <;> (first | rfl | (simp [*]; done))
@[simp] theorem onParamResend_wf (r : Rx) (s : State) (wf : memsWf s.mems) : memsWf (onParamResend r s).mems := by unfold onParamResend; (try dsimp only); (repeat' split) <;> (first | assumption | (simp (maxDischargeDepth := 30) [*]; done))
@[simp] theorem formPairs_lead (n : Nat) (s : State) : (formPairs n s).lead = s.lead := by
  induction n generalizing s with
  | zero => rfl
  | succ n ih => unfold formPairs; dsimp only; split <;> simp [ih]
@[simp] theorem holdLeaf_lead (step tag : Nat) (leaf : List Byte) (s : State) : (holdLeaf step tag leaf s).lead = s.lead := by
  simp [holdLeaf]
@[simp] theorem formPairs_mems (n : Nat) (s : State) : (formPairs n s).mems = s.mems := by
  induction n generalizing s with
  | zero => rfl
  | succ n ih => unfold formPairs; dsimp only; split <;> simp [ih]
@[simp] theorem holdLeaf_mems (step tag : Nat) (leaf : List Byte) (s : State) : (holdLeaf step tag leaf s).mems = s.mems := by
  simp [holdLeaf]
@[simp] theorem sendLeaf_lead (tag : Nat) (leaf : List Byte) (s : State) : (sendLeaf tag leaf s).lead = s.lead := by simp [sendLeaf]
@[simp] theorem sendLeaf_mems (tag : Nat) (leaf : List Byte) (s : State) : (sendLeaf tag leaf s).mems = s.mems := by simp [sendLeaf]
@[simp] theorem passLeaf_lead (r : Rx) (step tag : Nat) (s : State) : (passLeaf r step tag s).lead = s.lead := by simp [passLeaf]
@[simp] theorem passLeaf_mems (r : Rx) (step tag : Nat) (s : State) : (passLeaf r step tag s).mems = s.mems := by simp [passLeaf]
@[simp] theorem onLeaf_lead (r : Rx) (s : State) : (onLeaf r s).lead = s.lead := by simp [onLeaf]
@[simp] theorem onLeaf_mems (r : Rx) (s : State) : (onLeaf r s).mems = s.mems := by simp [onLeaf]
@[simp] theorem onLeafQuery_lead (r : Rx) (s : State) : (onLeafQuery r s).lead = s.lead := by unfold onLeafQuery; (try dsimp only); (repeat' split) <;> (first | rfl | (simp [*]; done))
@[simp] theorem onLeafQuery_mems (r : Rx) (s : State) : (onLeafQuery r s).mems = s.mems := by unfold onLeafQuery; (try dsimp only); (repeat' split) <;> (first | rfl | (simp [*]; done))
@[simp] theorem sendBlock_lead (k : KvHdr) (n : Nat) (bs : List Byte) (s : State) : (sendBlock k n bs s).lead = s.lead := by
  induction n generalizing k bs s with
  | zero => rfl
  | succ n ih => unfold sendBlock; dsimp only; split <;> simp [ih]
@[simp] theorem ringOut_lead (k : KvHdr) (bs : List Byte) (s : State) : (ringOut k bs s).lead = s.lead := by
  unfold ringOut; split <;> simp
@[simp] theorem sendBlock_mems (k : KvHdr) (n : Nat) (bs : List Byte) (s : State) : (sendBlock k n bs s).mems = s.mems := by
  induction n generalizing k bs s with
  | zero => rfl
  | succ n ih => unfold sendBlock; dsimp only; split <;> simp [ih]
@[simp] theorem ringOut_mems (k : KvHdr) (bs : List Byte) (s : State) : (ringOut k bs s).mems = s.mems := by
  unfold ringOut; split <;> simp
@[simp] theorem ringSend_lead (r : RingSend) (s : State) : (ringSend r s).lead = s.lead := by simp [ringSend]
@[simp] theorem ringSend_mems (r : RingSend) (s : State) : (ringSend r s).mems = s.mems := by simp [ringSend]
@[simp] theorem kvDeliver_lead (n : Nat) (s : State) : (kvDeliver n s).lead = s.lead := by
  induction n generalizing s with
  | zero => rfl
  | succ n ih =>
    unfold kvDeliver
    split
    · rfl
    · dsimp only; rw [ih]; split <;> simp
@[simp] theorem onKv_lead (r : Rx) (s : State) : (onKv r s).lead = s.lead := by simp [onKv]
@[simp] theorem kvDeliver_mems (n : Nat) (s : State) : (kvDeliver n s).mems = s.mems := by
  induction n generalizing s with
  | zero => rfl
  | succ n ih =>
    unfold kvDeliver
    split
    · rfl
    · dsimp only; rw [ih]; split <;> simp
@[simp] theorem onKv_mems (r : Rx) (s : State) : (onKv r s).mems = s.mems := by simp [onKv]
@[simp] theorem noteP_lead (s : State) : (noteP s).lead = s.lead := by simp [noteP]
@[simp] theorem noteP_mems (s : State) : (noteP s).mems = s.mems := by simp [noteP]
@[simp] theorem onReelFrame_lead (r : Rx) (s : State) : (onReelFrame r s).lead = s.lead := by unfold onReelFrame; (try dsimp only); (repeat' split) <;> (first | rfl | (simp [*]; done))
@[simp] theorem onReelFrame_wf (r : Rx) (s : State) (wf : memsWf s.mems) : memsWf (onReelFrame r s).mems := by unfold onReelFrame; (try dsimp only); (repeat' split) <;> (first | assumption | (simp (maxDischargeDepth := 30) [*]; done))
@[simp] theorem releaseHeld_lead (s : State) : (releaseHeld s).lead = s.lead := by simp [releaseHeld]
@[simp] theorem releaseHeld_wf (s : State) (wf : memsWf s.mems) : memsWf (releaseHeld s).mems := by
  unfold releaseHeld
  exact foldl_wf _ (fun t r w => endpoint_wf _ _ _ _ (fun x y h => onReelFrame_wf x y h) w) _ _ wf
@[simp] theorem moveRing_lead (layer : Nat) (p : Phase) (m : Option RingMove) (s : State) : (moveRing layer p m s).lead = s.lead := by unfold moveRing; (try dsimp only); (repeat' split) <;> (first | rfl | (simp [*]; done))
@[simp] theorem moveRing_wf (layer : Nat) (p : Phase) (m : Option RingMove) (s : State) (wf : memsWf s.mems) : memsWf (moveRing layer p m s).mems := by unfold moveRing; (try dsimp only); (repeat' split) <;> (first | assumption | (simp (maxDischargeDepth := 30) [*]; done))
@[simp] theorem abandonHank_lead (tag : Nat) (s : State) : (abandonHank tag s).lead = s.lead := by
  unfold abandonHank; dsimp only
  rw [noteEnds_lead]
  refine foldl_lead _ (fun t p => ?_) _ s
  split
  · split <;> simp
  · rfl
@[simp] theorem abandonHank_mems (tag : Nat) (s : State) : (abandonHank tag s).mems = s.mems := by
  unfold abandonHank; dsimp only
  rw [noteEnds_mems]
  refine foldl_mems _ (fun t p => ?_) _ s
  split
  · split <;> simp
  · rfl
@[simp] theorem sendLeaves_lead (s : State) : (sendLeaves s).lead = s.lead := by unfold sendLeaves; exact foldl_lead _ (fun t x => by (try dsimp only); (repeat' split) <;> (first | rfl | (simp [*]; done))) _ _
@[simp] theorem sendLeaves_mems (s : State) : (sendLeaves s).mems = s.mems := by unfold sendLeaves; exact foldl_mems _ (fun t x => by (try dsimp only); (repeat' split) <;> (first | rfl | (simp [*]; done))) _ _
@[simp] theorem emitOwn_lead (s : State) : (emitOwn s).lead = s.lead := by simp [emitOwn]
@[simp] theorem emitOwn_wf (s : State) (wf : memsWf s.mems) : memsWf (emitOwn s).mems := by unfold emitOwn; exact foldl_wf _ (fun t x w => by (try dsimp only); (repeat' split) <;> (first | assumption | (simp (maxDischargeDepth := 30) [*]; done))) _ _ (by (first | assumption | (simp (maxDischargeDepth := 30) [*]; done)))
@[simp] theorem initVector_lead (l : Layer) (slot : Nat) (s : State) : (initVector l slot s).lead = s.lead := by unfold initVector; (try dsimp only); (repeat' split) <;> (first | rfl | (simp [*]; done))
@[simp] theorem initVector_wf (l : Layer) (slot : Nat) (s : State) (wf : memsWf s.mems) : memsWf (initVector l slot s).mems := by unfold initVector; (try dsimp only); (repeat' split) <;> (first | assumption | (simp (maxDischargeDepth := 30) [*]; done))
@[simp] theorem initVectors_lead (s : State) : (initVectors s).lead = s.lead := by unfold initVectors; (try dsimp only); (repeat' split) <;> (first | rfl | (simp [*]; done))
@[simp] theorem initJob_lead (s : State) : (initJob s).lead = s.lead := by
  unfold initJob; dsimp only
  rw [foldl_lead _ (fun t l => by simp), initVectors_lead, foldl_lead _ (fun t p => by split <;> simp)]
  rfl
@[simp] theorem initVectors_wf (s : State) (wf : memsWf s.mems) : memsWf (initVectors s).mems := by
  unfold initVectors; split
  · exact foldl_wf _ (fun t l w => initVector_wf _ _ _ (initVector_wf _ _ _ w)) _ _ wf
  · exact wf
@[simp] theorem initJob_wf (s : State) (wf : memsWf s.mems) : memsWf (initJob s).mems := by
  unfold initJob; dsimp only
  refine foldl_wf _ (fun t l w => by simp [w]) _ _ (initVectors_wf _ (foldl_wf _ (fun t p w => ?_) _ _ wf))
  split
  · exact initShard_wf _ _ _ w
  · exact w

end Sys2Proof.Machine
end

