-- ==== Sys2Proof/Laws/FrameJobOps.lean ====
section
/-! SUPPORT. What the operations of `Sys2Proof.Machine.JobOps` leave of the queue, module flash and the memories. -/

namespace Sys2Proof.Machine

@[simp] theorem State.onQueue_lead (s : State) (q : QueueIx) (f : Queue → Queue) : (State.onQueue s q f).lead = s.lead := by unfold State.onQueue; split <;> rfl
@[simp] theorem State.onQueue_mems (s : State) (q : QueueIx) (f : Queue → Queue) : (State.onQueue s q f).mems = s.mems := by unfold State.onQueue; split <;> rfl
@[simp] theorem queueError_lead (q : QueueIx) (cause : Nat) (s : State) : (queueError q cause s).lead = s.lead := (rfl)
@[simp] theorem queueError_mems (q : QueueIx) (cause : Nat) (s : State) : (queueError q cause s).mems = s.mems := (rfl)
@[simp] theorem complete_lead (q : QueueIx) (d : Desc) (c : Compl) (s : State) : (complete q d c s).lead = s.lead := by unfold complete; split <;> rfl
@[simp] theorem complete_mems (q : QueueIx) (d : Desc) (c : Compl) (s : State) : (complete q d c s).mems = s.mems := by unfold complete; split <;> rfl
@[simp] theorem completeHead_lead (q : QueueIx) (c : Compl) (s : State) : (completeHead q c s).lead = s.lead := by unfold completeHead; (try dsimp only); (repeat' split) <;> (first | rfl | (simp [*]; done))
@[simp] theorem completeHead_mems (q : QueueIx) (c : Compl) (s : State) : (completeHead q c s).mems = s.mems := by unfold completeHead; (try dsimp only); (repeat' split) <;> (first | rfl | (simp [*]; done))
@[simp] theorem refuseHead_lead (q : QueueIx) (status detail : Nat) (s : State) : (refuseHead q status detail s).lead = s.lead := by unfold refuseHead; (try dsimp only); (repeat' split) <;> (first | rfl | (simp [*]; done))
@[simp] theorem refuseHead_mems (q : QueueIx) (status detail : Nat) (s : State) : (refuseHead q status detail s).mems = s.mems := by unfold refuseHead; (try dsimp only); (repeat' split) <;> (first | rfl | (simp [*]; done))
@[simp] theorem completeRunning_lead (c : Compl) (s : State) : (completeRunning c s).lead = s.lead := by unfold completeRunning; (try dsimp only); (repeat' split) <;> (first | rfl | (simp [*]; done))
@[simp] theorem completeRunning_mems (c : Compl) (s : State) : (completeRunning c s).mems = s.mems := by unfold completeRunning; (try dsimp only); (repeat' split) <;> (first | rfl | (simp [*]; done))
@[simp] theorem dropJobFrames_lead (s : State) : (dropJobFrames s).lead = s.lead := by simp [dropJobFrames]
@[simp] theorem dropJobFrames_mems (s : State) : (dropJobFrames s).mems = s.mems := by simp [dropJobFrames]
@[simp] theorem noteEnd_lead (outcome : Nat) (s : State) : (noteEnd outcome s).lead = s.lead := (rfl)
@[simp] theorem noteEnd_mems (outcome : Nat) (s : State) : (noteEnd outcome s).mems = s.mems := (rfl)
@[simp] theorem completeStep_lead (status batch : Nat) (s : State) : (completeStep status batch s).lead = s.lead := by simp [completeStep]
@[simp] theorem completeStep_mems (status batch : Nat) (s : State) : (completeStep status batch s).mems = s.mems := by simp [completeStep]
@[simp] theorem haltStep_lead (s : State) : (haltStep s).lead = s.lead := by simp [haltStep]
@[simp] theorem haltStep_mems (s : State) : (haltStep s).mems = s.mems := by simp [haltStep]
@[simp] theorem discardJob_lead (before : State) : (discardJob before).lead = before.lead := by
  show (haltStep (dropJobFrames before)).lead = before.lead
  simp
@[simp] theorem discardJob_mems (before : State) : (discardJob before).mems = before.mems := by
  show (haltStep (dropJobFrames before)).mems = before.mems
  simp
@[simp] theorem dropImage_lead (st : Loader) (s : State) : (dropImage st s).lead = s.lead := by
  show (discardJob s).lead = s.lead
  simp
@[simp] theorem dropImage_mems (st : Loader) (s : State) : (dropImage st s).mems = s.mems := by
  show (discardJob s).mems = s.mems
  simp
@[simp] theorem loseCommitted_lead (s : State) : (loseCommitted s).lead = s.lead := by
  unfold loseCommitted; rw [helloAll_lead, dropImage_lead]
@[simp] theorem loseCommitted_mems (s : State) : (loseCommitted s).mems = s.mems := by
  unfold loseCommitted; rw [helloAll_mems, dropImage_mems]
@[simp] theorem leaveHalted_lead (s : State) : (leaveHalted s).lead = s.lead := by unfold leaveHalted; split <;> rfl
@[simp] theorem leaveHalted_mems (s : State) : (leaveHalted s).mems = s.mems := by unfold leaveHalted; split <;> rfl
@[simp] theorem endLoad_lead (fresh : Loader) (s : State) : (endLoad fresh s).lead = s.lead := by simp [endLoad]
@[simp] theorem endLoad_mems (fresh : Loader) (s : State) : (endLoad fresh s).mems = s.mems := by simp [endLoad]
@[simp] theorem abortLoad_lead (s : State) : (abortLoad s).lead = s.lead := by simp [abortLoad]
@[simp] theorem abortLoad_mems (s : State) : (abortLoad s).mems = s.mems := by simp [abortLoad]

end Sys2Proof.Machine
end

