-- ==== Sys2Proof/Laws/FrameCommit.lean ====
section
/-! SUPPORT. What the operations of `Sys2Proof.Machine.Commit` leave of the queue, module flash and the memories. -/

namespace Sys2Proof.Machine

@[simp] theorem sendSet_lead (v : VerdictSet) (s : State) : (sendSet v s).lead = s.lead := by simp [sendSet]
@[simp] theorem sendSet_mems (v : VerdictSet) (s : State) : (sendSet v s).mems = s.mems := by simp [sendSet]
@[simp] theorem noteExecution_lead (s : State) : (noteExecution s).lead = s.lead := by simp [noteExecution]
@[simp] theorem noteExecution_mems (s : State) : (noteExecution s).mems = s.mems := by simp [noteExecution]
@[simp] theorem reportRatios_lead (step : Nat) (s : State) : (reportRatios step s).lead = s.lead := by simp [reportRatios]
@[simp] theorem reportRatios_mems (step : Nat) (s : State) : (reportRatios step s).mems = s.mems := by simp [reportRatios]
@[simp] theorem dropScratch_lead (s : State) : (dropScratch s).lead = s.lead := (rfl)
@[simp] theorem dropScratch_mems (s : State) : (dropScratch s).mems = s.mems := (rfl)
@[simp] theorem dropShadows_lead (s : State) : (dropShadows s).lead = s.lead := (rfl)
@[simp] theorem dropShadows_mems (s : State) : (dropShadows s).mems = s.mems := (rfl)
@[simp] theorem nameMode_lead (d : DecHdr) (s : State) : (nameMode d s).lead = s.lead := (rfl)
@[simp] theorem nameMode_mems (d : DecHdr) (s : State) : (nameMode d s).mems = s.mems := (rfl)
@[simp] theorem noteDecision_lead (d : DecHdr) (batch : Nat) (s : State) : (noteDecision d batch s).lead = s.lead := (rfl)
@[simp] theorem noteDecision_mems (d : DecHdr) (batch : Nat) (s : State) : (noteDecision d batch s).mems = s.mems := (rfl)
@[simp] theorem noteOutcome_lead (outcome : Nat) (s : State) : (noteOutcome outcome s).lead = s.lead := by unfold noteOutcome; split <;> rfl
@[simp] theorem noteOutcome_mems (outcome : Nat) (s : State) : (noteOutcome outcome s).mems = s.mems := by unfold noteOutcome; split <;> rfl
@[simp] theorem closeBobbin_lead (s : State) : (closeBobbin s).lead = s.lead := (rfl)
@[simp] theorem closeBobbin_mems (s : State) : (closeBobbin s).mems = s.mems := (rfl)
@[simp] theorem modeEvents_lead (old new : LayerNum) (l : Nat) (s : State) : (modeEvents old new l s).lead = s.lead := by simp [modeEvents]
@[simp] theorem modeEvents_mems (old new : LayerNum) (l : Nat) (s : State) : (modeEvents old new l s).mems = s.mems := by simp [modeEvents]
@[simp] theorem bringNumeric_lead (skip : Bool) (n : NumNext) (s : State) : (bringNumeric skip n s).lead = s.lead := by simp [bringNumeric]
@[simp] theorem bringNumeric_mems (skip : Bool) (n : NumNext) (s : State) : (bringNumeric skip n s).mems = s.mems := by simp [bringNumeric]
@[simp] theorem propose_lead (ps : List (Nat × Int)) (s : State) : (propose ps s).lead = s.lead := by simp [propose]
@[simp] theorem propose_mems (ps : List (Nat × Int)) (s : State) : (propose ps s).mems = s.mems := by simp [propose]
@[simp] theorem keepScales_lead (s : State) : (keepScales s).lead = s.lead := by unfold keepScales; split <;> rfl
@[simp] theorem keepScales_mems (s : State) : (keepScales s).mems = s.mems := by unfold keepScales; split <;> rfl
@[simp] theorem commitShard_lead (tag : Nat) (s : State) : (commitShard tag s).lead = s.lead := by unfold commitShard; (try dsimp only); (repeat' split) <;> (first | rfl | (simp [*]; done))
@[simp] theorem commitShard_wf (tag : Nat) (s : State) (wf : memsWf s.mems) : memsWf (commitShard tag s).mems := by unfold commitShard; (try dsimp only); (repeat' split) <;> (first | assumption | (simp (maxDischargeDepth := 30) [*]; done))
@[simp] theorem commitShards_lead (s : State) : (commitShards s).lead = s.lead := by simp [commitShards]
@[simp] theorem commitShards_wf (s : State) (wf : memsWf s.mems) : memsWf (commitShards s).mems := by unfold commitShards; exact foldl_wf _ (fun t x w => by (try dsimp only); (repeat' split) <;> (first | assumption | (simp (maxDischargeDepth := 30) [*]; done))) _ _ (by (first | assumption | (simp (maxDischargeDepth := 30) [*]; done)))
@[simp] theorem publish_lead (s : State) : (publish s).lead = s.lead := by unfold publish; exact foldl_lead _ (fun t x => by (try dsimp only); (repeat' split) <;> (first | rfl | (simp [*]; done))) _ _
@[simp] theorem publish_wf (s : State) (wf : memsWf s.mems) : memsWf (publish s).mems := by unfold publish; exact foldl_wf _ (fun t x w => by (try dsimp only); (repeat' split) <;> (first | assumption | (simp (maxDischargeDepth := 30) [*]; done))) _ _ (by (first | assumption | (simp (maxDischargeDepth := 30) [*]; done)))
@[simp] theorem beginP_lead (s : State) : (beginP s).lead = s.lead := (rfl)
@[simp] theorem beginP_mems (s : State) : (beginP s).mems = s.mems := (rfl)
@[simp] theorem keepLost_lead (s : State) : (keepLost s).lead = s.lead := by unfold keepLost; split <;> rfl
@[simp] theorem keepLost_mems (s : State) : (keepLost s).mems = s.mems := by unfold keepLost; split <;> rfl
@[simp] theorem clearStarved_lead (s : State) : (clearStarved s).lead = s.lead := (rfl)
@[simp] theorem clearStarved_mems (s : State) : (clearStarved s).mems = s.mems := (rfl)
@[simp] theorem closeBatch_lead (d : DecHdr) (s : State) : (closeBatch d s).lead = s.lead := by simp [closeBatch]
@[simp] theorem closeBatch_mems (d : DecHdr) (s : State) : (closeBatch d s).mems = s.mems := by simp [closeBatch]
@[simp] theorem quarantineAgain_lead (s : State) : (quarantineAgain s).lead = s.lead := by simp [quarantineAgain]
@[simp] theorem quarantineAgain_mems (s : State) : (quarantineAgain s).mems = s.mems := by simp [quarantineAgain]
@[simp] theorem actCommit_lead (d : DecHdr) (n : NumNext) (s : State) : (actCommit d n s).lead = s.lead := by simp [actCommit]
@[simp] theorem actCommit_wf (d : DecHdr) (n : NumNext) (s : State) (wf : memsWf s.mems) : memsWf (actCommit d n s).mems := by simp (maxDischargeDepth := 30) [actCommit, *]
@[simp] theorem reformat_lead (ls : List Nat) (s : State) : (reformat ls s).lead = s.lead := by simp [reformat]
@[simp] theorem reformat_wf (ls : List Nat) (s : State) (wf : memsWf s.mems) : memsWf (reformat ls s).mems := by unfold reformat; exact foldl_wf _ (fun t x w => by (try dsimp only); (repeat' split) <;> (first | assumption | (simp (maxDischargeDepth := 30) [*]; done))) _ _ (by (first | assumption | (simp (maxDischargeDepth := 30) [*]; done)))
@[simp] theorem actSkip_lead (d : DecHdr) (n : NumNext) (s : State) : (actSkip d n s).lead = s.lead := by simp [actSkip]
@[simp] theorem actSkip_wf (d : DecHdr) (n : NumNext) (s : State) (wf : memsWf s.mems) : memsWf (actSkip d n s).mems := by simp (maxDischargeDepth := 30) [actSkip, *]
@[simp] theorem actReplay_lead (d : DecHdr) (mask : BitVec 576) (s : State) : (actReplay d mask s).lead = s.lead := by simp [actReplay]
@[simp] theorem actReplay_wf (d : DecHdr) (mask : BitVec 576) (s : State) (wf : memsWf s.mems) : memsWf (actReplay d mask s).mems := by simp (maxDischargeDepth := 30) [actReplay, *]
@[simp] theorem endExecution_lead (s : State) : (endExecution s).lead = s.lead := by
  rw [endExecution, dropScratch_lead, dropShadows_lead, renewHanks_lead]; rfl
@[simp] theorem endExecution_mems (s : State) : (endExecution s).mems = s.mems := by
  rw [endExecution, dropScratch_mems, dropShadows_mems, renewHanks_mems]; rfl
@[simp] theorem dropExecution_lead (s : State) : (dropExecution s).lead = s.lead := by simp [dropExecution]
@[simp] theorem dropExecution_mems (s : State) : (dropExecution s).mems = s.mems := by simp [dropExecution]
@[simp] theorem actHalt_lead (d : DecHdr) (s : State) : (actHalt d s).lead = s.lead := by simp [actHalt]
@[simp] theorem actHalt_mems (d : DecHdr) (s : State) : (actHalt d s).mems = s.mems := by simp [actHalt]
@[simp] theorem actStart_lead (d : DecHdr) (batch : Nat) (s : State) : (actStart d batch s).lead = s.lead := by simp [actStart]
@[simp] theorem actStart_wf (d : DecHdr) (batch : Nat) (s : State) (wf : memsWf s.mems) : memsWf (actStart d batch s).mems := by unfold actStart; (try dsimp only); (repeat' split) <;> (first | assumption | (simp (maxDischargeDepth := 30) [*]; done))
theorem foldl_snd_mems {α β : Type} (f : β × State → α → β × State) (h : ∀ x a, (f x a).2.mems = x.2.mems) (l : List α) (x : β × State) :
    (l.foldl f x).2.mems = x.2.mems := by
  induction l generalizing x with
  | nil => rfl
  | cons a l ih => rw [List.foldl_cons, ih, h]
theorem foldl_snd_lead {α β : Type} (f : β × State → α → β × State) (h : ∀ x a, (f x a).2.lead = x.2.lead) (l : List α) (x : β × State) :
    (l.foldl f x).2.lead = x.2.lead := by
  induction l generalizing x with
  | nil => rfl
  | cons a l ih => rw [List.foldl_cons, ih, h]
theorem workerMode_mems (old : LayerNum) (m : NMode) (s : State) : (workerMode old m s).2.mems = s.mems := by
  unfold workerMode; dsimp only; (repeat' split) <;> rfl
theorem workerMode_lead (old : LayerNum) (m : NMode) (s : State) : (workerMode old m s).2.lead = s.lead := by
  unfold workerMode; dsimp only; (repeat' split) <;> rfl
@[simp] theorem decisionNumeric_mems (d : DecHdr) (body : List Word) (s : State) : (decisionNumeric d body s).2.mems = s.mems := by
  unfold decisionNumeric
  refine foldl_snd_mems _ (fun x a => ?_) _ _
  exact workerMode_mems _ _ x.2
@[simp] theorem decisionNumeric_lead (d : DecHdr) (body : List Word) (s : State) : (decisionNumeric d body s).2.lead = s.lead := by
  unfold decisionNumeric
  refine foldl_snd_lead _ (fun x a => ?_) _ _
  exact workerMode_lead _ _ x.2
@[simp] theorem carryOut_lead (num : Option NumNext) (batch : Nat) (payload : List Word) (s : State) : (carryOut num batch payload s).lead = s.lead := by
  unfold carryOut; dsimp only; (repeat' split) <;> simp
@[simp] theorem carryOut_wf (num : Option NumNext) (batch : Nat) (payload : List Word) (s : State) (wf : memsWf s.mems) : memsWf (carryOut num batch payload s).mems := by unfold carryOut; (try dsimp only); (repeat' split) <;> (first | assumption | (simp (maxDischargeDepth := 30) [*]; done))
@[simp] theorem sendDecision_lead (kind exec batch : Nat) (payload : List Word) (s : State) : (sendDecision kind exec batch payload s).lead = s.lead := by simp [sendDecision]
@[simp] theorem sendDecision_mems (kind exec batch : Nat) (payload : List Word) (s : State) : (sendDecision kind exec batch payload s).mems = s.mems := by simp [sendDecision]
@[simp] theorem keepDecision_lead (x : Decision) (s : State) : (keepDecision x s).lead = s.lead := (rfl)
@[simp] theorem keepDecision_mems (x : Decision) (s : State) : (keepDecision x s).mems = s.mems := (rfl)
@[simp] theorem haltJob_lead (reason : Nat) (s : State) : (haltJob reason s).lead = s.lead := (rfl)
@[simp] theorem haltJob_mems (reason : Nat) (s : State) : (haltJob reason s).mems = s.mems := (rfl)
@[simp] theorem issue_lead (d : DecHdr) (body : List Word) (num : Option NumNext) (s : State) : (issue d body num s).lead = s.lead := by simp [issue]
@[simp] theorem issue_wf (d : DecHdr) (body : List Word) (num : Option NumNext) (s : State) (wf : memsWf s.mems) : memsWf (issue d body num s).mems := by simp (maxDischargeDepth := 30) [issue, *]
@[simp] theorem noteJobCounts_lead (s : State) : (noteJobCounts s).lead = s.lead := (rfl)
@[simp] theorem noteJobCounts_mems (s : State) : (noteJobCounts s).mems = s.mems := (rfl)
@[simp] theorem decideOnce_lead (s : State) : (decideOnce s).lead = s.lead := by unfold decideOnce; (try dsimp only); (repeat' split) <;> (first | rfl | (simp [*]; done))
@[simp] theorem decideOnce_wf (s : State) (wf : memsWf s.mems) : memsWf (decideOnce s).mems := by unfold decideOnce; (try dsimp only); (repeat' split) <;> (first | assumption | (simp (maxDischargeDepth := 30) [*]; done))
@[simp] theorem tryDecide_lead (s : State) : (tryDecide s).lead = s.lead := by simp [tryDecide]
@[simp] theorem tryDecide_wf (s : State) (wf : memsWf s.mems) : memsWf (tryDecide s).mems := by unfold tryDecide; (try dsimp only); (repeat' split) <;> (first | assumption | (simp (maxDischargeDepth := 30) [*]; done))
@[simp] theorem beginC_lead (s : State) : (beginC s).lead = s.lead := (rfl)
@[simp] theorem beginC_mems (s : State) : (beginC s).mems = s.mems := (rfl)
@[simp] theorem deliverSet_lead (v : VerdictSet) (s : State) : (deliverSet v s).lead = s.lead := by simp [deliverSet]
@[simp] theorem deliverSet_wf (v : VerdictSet) (s : State) (wf : memsWf s.mems) : memsWf (deliverSet v s).mems := by unfold deliverSet; (try dsimp only); (repeat' split) <;> (first | assumption | (simp (maxDischargeDepth := 30) [*]; done))
@[simp] theorem quarantineStop_lead (s : State) : (quarantineStop s).lead = s.lead := by simp [quarantineStop]
@[simp] theorem quarantineStop_wf (s : State) (wf : memsWf s.mems) : memsWf (quarantineStop s).mems := by unfold quarantineStop; (try dsimp only); (repeat' split) <;> (first | assumption | (simp (maxDischargeDepth := 30) [*]; done))
@[simp] theorem stopIfPlaced_lead (s : State) : (stopIfPlaced s).lead = s.lead := by simp [stopIfPlaced]
@[simp] theorem stopIfPlaced_wf (s : State) (wf : memsWf s.mems) : memsWf (stopIfPlaced s).mems := by unfold stopIfPlaced; (try dsimp only); (repeat' split) <;> (first | assumption | (simp (maxDischargeDepth := 30) [*]; done))
@[simp] theorem onVerdict_lead (r : Rx) (s : State) : (onVerdict r s).lead = s.lead := by simp [onVerdict]
@[simp] theorem onVerdict_wf (r : Rx) (s : State) (wf : memsWf s.mems) : memsWf (onVerdict r s).mems := by unfold onVerdict; (try dsimp only); (repeat' split) <;> (first | assumption | (simp (maxDischargeDepth := 30) [*]; done))
@[simp] theorem onSet_lead (rank : Nat) (g : VerdictSet → VerdictSet) (s : State) : (onSet rank g s).lead = s.lead := (rfl)
@[simp] theorem onSet_mems (rank : Nat) (g : VerdictSet → VerdictSet) (s : State) : (onSet rank g s).mems = s.mems := (rfl)
@[simp] theorem onCounts_lead (r : Rx) (s : State) : (onCounts r s).lead = s.lead := by simp [onCounts]
@[simp] theorem onCounts_wf (r : Rx) (s : State) (wf : memsWf s.mems) : memsWf (onCounts r s).mems := by unfold onCounts; (try dsimp only); (repeat' split) <;> (first | assumption | (simp (maxDischargeDepth := 30) [*]; done))
@[simp] theorem onRatios_lead (r : Rx) (s : State) : (onRatios r s).lead = s.lead := by simp [onRatios]
@[simp] theorem onRatios_wf (r : Rx) (s : State) (wf : memsWf s.mems) : memsWf (onRatios r s).mems := by unfold onRatios; (try dsimp only); (repeat' split) <;> (first | assumption | (simp (maxDischargeDepth := 30) [*]; done))
@[simp] theorem onNotice_lead (r : Rx) (s : State) : (onNotice r s).lead = s.lead := by simp [onNotice]
@[simp] theorem onNotice_mems (r : Rx) (s : State) : (onNotice r s).mems = s.mems := by simp [onNotice]
@[simp] theorem onSkipNotice_lead (r : Rx) (s : State) : (onSkipNotice r s).lead = s.lead := by simp [onSkipNotice]
@[simp] theorem onSkipNotice_mems (r : Rx) (s : State) : (onSkipNotice r s).mems = s.mems := by simp [onSkipNotice]
@[simp] theorem onDecision_lead (r : Rx) (s : State) : (onDecision r s).lead = s.lead := by unfold onDecision; (try dsimp only); (repeat' split) <;> (first | rfl | (simp [*]; done))
@[simp] theorem onDecision_wf (r : Rx) (s : State) (wf : memsWf s.mems) : memsWf (onDecision r s).mems := by unfold onDecision; (try dsimp only); (repeat' split) <;> (first | assumption | (simp (maxDischargeDepth := 30) [*]; done))
@[simp] theorem onQuery_lead (r : Rx) (s : State) : (onQuery r s).lead = s.lead := by unfold onQuery; (try dsimp only); (repeat' split) <;> (first | rfl | (simp [*]; done))
@[simp] theorem onQuery_mems (r : Rx) (s : State) : (onQuery r s).mems = s.mems := by unfold onQuery; (try dsimp only); (repeat' split) <;> (first | rfl | (simp [*]; done))
@[simp] theorem formJob_lead (s : State) : (formJob s).lead = s.lead := by simp [formJob]
@[simp] theorem formJob_wf (s : State) (wf : memsWf s.mems) : memsWf (formJob s).mems := by unfold formJob; (try dsimp only); (repeat' split) <;> (first | assumption | (simp (maxDischargeDepth := 30) [*]; done))
@[simp] theorem admitRank_lead (rank serial : Nat) (s : State) : (admitRank rank serial s).lead = s.lead := (rfl)
@[simp] theorem admitRank_mems (rank serial : Nat) (s : State) : (admitRank rank serial s).mems = s.mems := (rfl)
@[simp] theorem onAdmitRequest_lead (r : Rx) (s : State) : (onAdmitRequest r s).lead = s.lead := by simp [onAdmitRequest]
@[simp] theorem onAdmitRequest_wf (r : Rx) (s : State) (wf : memsWf s.mems) : memsWf (onAdmitRequest r s).mems := by simp (maxDischargeDepth := 30) [onAdmitRequest, *]
@[simp] theorem onAdmitReply_lead (r : Rx) (s : State) : (onAdmitReply r s).lead = s.lead := by simp [onAdmitReply]
@[simp] theorem onAdmitReply_mems (r : Rx) (s : State) : (onAdmitReply r s).mems = s.mems := by simp [onAdmitReply]
@[simp] theorem askAdmission_lead (s : State) : (askAdmission s).lead = s.lead := by simp [askAdmission]
@[simp] theorem askAdmission_wf (s : State) (wf : memsWf s.mems) : memsWf (askAdmission s).mems := by unfold askAdmission; (try dsimp only); (repeat' split) <;> (first | assumption | (simp (maxDischargeDepth := 30) [*]; done))

end Sys2Proof.Machine
end

