-- ==== Sys2Proof/Laws/FrameRoving.lean ====
section
/-! SUPPORT. What the operations of `Sys2Proof.Machine.Roving` leave of the queue, module flash and the memories. -/

namespace Sys2Proof.Machine

@[simp] theorem takeLinkCtrl_lead (r : Rx) (s : State) : (takeLinkCtrl r s).lead = s.lead := by simp [takeLinkCtrl]
@[simp] theorem takeLinkCtrl_mems (r : Rx) (s : State) : (takeLinkCtrl r s).mems = s.mems := by simp [takeLinkCtrl]
@[simp] theorem takeNotReady_lead (r : Rx) (s : State) : (takeNotReady r s).lead = s.lead := (rfl)
@[simp] theorem takeNotReady_mems (r : Rx) (s : State) : (takeNotReady r s).mems = s.mems := (rfl)
@[simp] theorem disablePort_lead (mask : BitVec 9) (s : State) (p : PortIx) : (disablePort mask s p).lead = s.lead := by simp [disablePort]
@[simp] theorem disablePort_mems (mask : BitVec 9) (s : State) (p : PortIx) : (disablePort mask s p).mems = s.mems := by simp [disablePort]
@[simp] theorem writePortDisable_lead (mask : BitVec 9) (s : State) : (writePortDisable mask s).lead = s.lead := by simp [writePortDisable]
@[simp] theorem writePortDisable_mems (mask : BitVec 9) (s : State) : (writePortDisable mask s).mems = s.mems := by simp [writePortDisable]
@[simp] theorem writeRetrain_lead (port : PortIx) (val : Word) (s : State) : (writeRetrain port val s).lead = s.lead := by simp [writeRetrain]
@[simp] theorem writeRetrain_mems (port : PortIx) (val : Word) (s : State) : (writeRetrain port val s).mems = s.mems := by simp [writeRetrain]
@[simp] theorem portReady_lead (s : State) (p : PortIx) : (portReady s p).lead = s.lead := by simp [portReady]
@[simp] theorem portReady_mems (s : State) (p : PortIx) : (portReady s p).mems = s.mems := by simp [portReady]
@[simp] theorem portsReady_lead (s : State) : (portsReady s).lead = s.lead := by simp [portsReady]
@[simp] theorem portsReady_mems (s : State) : (portsReady s).mems = s.mems := by simp [portsReady]
@[simp] theorem portsOff_lead (s : State) : (portsOff s).lead = s.lead := by simp [portsOff]
@[simp] theorem portsOff_mems (s : State) : (portsOff s).mems = s.mems := by simp [portsOff]

end Sys2Proof.Machine
end

