-- ==== Sys2Proof/Laws/FrameWeft.lean ====
section
/-! SUPPORT. What the operations of `Sys2Proof.Machine.Weft` leave of the queue, module flash and the memories. -/

namespace Sys2Proof.Machine

@[simp] theorem attachReset_lead (kind : AttachKind) (s : State) : (attachReset kind s).lead = s.lead := by unfold attachReset; simp; (repeat' split) <;> (first | rfl | (simp [*]; done))
@[simp] theorem attachReset_mems (kind : AttachKind) (s : State) : (attachReset kind s).mems = s.mems := by unfold attachReset; simp; (repeat' split) <;> (first | rfl | (simp [*]; done))
@[simp] theorem writeTail_lead (q : QueueIx) (val : Word) (s : State) : (writeTail q val s).lead = s.lead := by simp [writeTail]
@[simp] theorem writeTail_mems (q : QueueIx) (val : Word) (s : State) : (writeTail q val s).mems = s.mems := by simp [writeTail]
@[simp] theorem writeComplHead_lead (q : QueueIx) (val : Word) (s : State) : (writeComplHead q val s).lead = s.lead := by simp [writeComplHead]
@[simp] theorem writeComplHead_mems (q : QueueIx) (val : Word) (s : State) : (writeComplHead q val s).mems = s.mems := by simp [writeComplHead]
@[simp] theorem writeQueueCtrl_lead (q : QueueIx) (val : Word) (s : State) : (writeQueueCtrl q val s).lead = s.lead := by simp [writeQueueCtrl]
@[simp] theorem writeQueueCtrl_mems (q : QueueIx) (val : Word) (s : State) : (writeQueueCtrl q val s).mems = s.mems := by simp [writeQueueCtrl]
@[simp] theorem writeEventCtrl_lead (val : Word) (s : State) : (writeEventCtrl val s).lead = s.lead := by unfold writeEventCtrl; split <;> rfl
@[simp] theorem writeEventCtrl_mems (val : Word) (s : State) : (writeEventCtrl val s).mems = s.mems := by unfold writeEventCtrl; split <;> rfl
@[simp] theorem writeEventHead_lead (val : Word) (s : State) : (writeEventHead val s).lead = s.lead := by simp [writeEventHead]
@[simp] theorem writeEventHead_mems (val : Word) (s : State) : (writeEventHead val s).mems = s.mems := by simp [writeEventHead]

end Sys2Proof.Machine
end

