-- ==== Sys2Proof/Laws/FrameTreadle.lean ====
section
/-! SUPPORT. What the operations of `Sys2Proof.Machine.Treadle` leave of the queue, module flash and the memories. -/

namespace Sys2Proof.Machine

@[simp] theorem refuseCap_lead (value writer cause : Nat) (s : State) : (refuseCap value writer cause s).lead = s.lead := (rfl)
@[simp] theorem refuseCap_mems (value writer cause : Nat) (s : State) : (refuseCap value writer cause s).mems = s.mems := (rfl)
@[simp] theorem voidCheck_lead (s : State) : (voidCheck s).lead = s.lead := by simp [voidCheck]
@[simp] theorem voidCheck_mems (s : State) : (voidCheck s).mems = s.mems := by simp [voidCheck]
@[simp] theorem applyCaps_lead (s : State) : (applyCaps s).lead = s.lead := by simp [applyCaps]
@[simp] theorem applyCaps_mems (s : State) : (applyCaps s).mems = s.mems := by simp [applyCaps]
@[simp] theorem setCap_lead (writer watts : Nat) (put : TrdBlk → TrdBlk) (s : State) : (setCap writer watts put s).lead = s.lead := by unfold setCap; split <;> rfl
@[simp] theorem setCap_mems (writer watts : Nat) (put : TrdBlk → TrdBlk) (s : State) : (setCap writer watts put s).mems = s.mems := by unfold setCap; split <;> rfl
@[simp] theorem writeCap_lead (val : Word) (s : State) : (writeCap val s).lead = s.lead := by simp [writeCap]
@[simp] theorem writeCap_mems (val : Word) (s : State) : (writeCap val s).mems = s.mems := by simp [writeCap]
@[simp] theorem managed_lead (f : State → State) (s : State) (hf : ∀ x, (f x).lead = x.lead) : (managed f s).lead = s.lead := by unfold managed; (try dsimp only); (repeat' split) <;> (first | rfl | (simp [*]; done))
@[simp] theorem managed_pending (f : State → State) (s : State) (hf : ∀ x, (f x).pending = x.pending) : (managed f s).pending = s.pending := by unfold managed; (try dsimp only); (repeat' split) <;> (first | rfl | (simp [*]; done))
@[simp] theorem managed_mems (f : State → State) (s : State) (hf : ∀ x, (f x).mems = x.mems) : (managed f s).mems = s.mems := by unfold managed; (try dsimp only); (repeat' split) <;> (first | rfl | (simp [*]; done))
@[simp] theorem managed_wf (f : State → State) (s : State) (hf : ∀ x, memsWf x.mems → memsWf (f x).mems) (wf : memsWf s.mems) : memsWf (managed f s).mems := by unfold managed; (try dsimp only); (repeat' split) <;> (first | assumption | (simp (maxDischargeDepth := 30) [*]; done))
@[simp] theorem loseSram_lead (s : State) : (loseSram s).lead = s.lead := (rfl)
@[simp] theorem loseSram_wf (s : State) (wf : memsWf s.mems) : memsWf (loseSram s).mems := ⟨rfl, rfl, rfl, wf.2.2.2⟩
@[simp] theorem loseAll_lead (s : State) : (loseAll s).lead = s.lead := by
  show (if s.hub.linkUp then attachReset .linkDown s else abortLoad s).lead = s.lead
  split <;> simp
@[simp] theorem loseAll_wf (s : State) (_wf : memsWf s.mems) : memsWf (loseAll s).mems := ⟨rfl, rfl, rfl, rfl⟩
@[simp] theorem leaveT3_lead (s : State) : (leaveT3 s).lead = s.lead := by simp [leaveT3]
@[simp] theorem leaveT3_mems (s : State) : (leaveT3 s).mems = s.mems := by simp [leaveT3]
@[simp] theorem arrive_lead (new : Ladder) (s : State) : (arrive new s).lead = s.lead := by
  unfold arrive; split <;> simp
@[simp] theorem arrive_wf (new : Ladder) (s : State) (wf : memsWf s.mems) : memsWf (arrive new s).mems := by
  unfold arrive; split
  · exact wf
  · exact wf
  · rw [portsOff_mems]; exact wf
  · rw [State.onHub_mems]; exact loseSram_wf _ (by rw [portsOff_mems]; exact wf)
  · exact loseAll_wf _ wf
@[simp] theorem enterLadder_lead (new : Ladder) (who : Nat) (s : State) : (enterLadder new who s).lead = s.lead := by simp [enterLadder]
@[simp] theorem enterLadder_wf (new : Ladder) (who : Nat) (s : State) (wf : memsWf s.mems) : memsWf (enterLadder new who s).mems := by unfold enterLadder; (try dsimp only); (repeat' split) <;> (first | assumption | (simp (maxDischargeDepth := 30) [*]; done))
@[simp] theorem writeTrdCtrl_lead (who : Requester) (val : Word) (s : State) : (writeTrdCtrl who val s).lead = s.lead := by simp [writeTrdCtrl]
@[simp] theorem writeTrdCtrl_wf (who : Requester) (val : Word) (s : State) (wf : memsWf s.mems) : memsWf (writeTrdCtrl who val s).mems := by unfold writeTrdCtrl; (try dsimp only); (repeat' split) <;> (first | assumption | (simp (maxDischargeDepth := 30) [*]; done))
@[simp] theorem control_lead (byTrim measurement target : Nat) (hot : Sensor) (hotQuarter : Nat) (s : State) : (control byTrim measurement target hot hotQuarter s).lead = s.lead := by simp [control]
@[simp] theorem control_mems (byTrim measurement target : Nat) (hot : Sensor) (hotQuarter : Nat) (s : State) : (control byTrim measurement target hot hotQuarter s).mems = s.mems := by simp [control]
@[simp] theorem reportEmergency_lead (src : EmSource) (s : State) : (reportEmergency src s).lead = s.lead := by unfold reportEmergency; split <;> rfl
@[simp] theorem reportEmergency_wf (src : EmSource) (s : State) (wf : memsWf s.mems) : memsWf (reportEmergency src s).mems := by simp (maxDischargeDepth := 30) [reportEmergency, *]
@[simp] theorem assertEmergency_lead (src : EmSource) (s : State) : (assertEmergency src s).lead = s.lead := by simp [assertEmergency]
@[simp] theorem assertEmergency_wf (src : EmSource) (s : State) (wf : memsWf s.mems) : memsWf (assertEmergency src s).mems := by unfold assertEmergency; (try dsimp only); (repeat' split) <;> (first | assumption | (simp (maxDischargeDepth := 30) [*]; done))
@[simp] theorem releaseEmergency_lead (src : EmSource) (s : State) : (releaseEmergency src s).lead = s.lead := by simp [releaseEmergency]
@[simp] theorem releaseEmergency_wf (src : EmSource) (s : State) (wf : memsWf s.mems) : memsWf (releaseEmergency src s).mems := by unfold releaseEmergency; (try dsimp only); (repeat' split) <;> (first | assumption | (simp (maxDischargeDepth := 30) [*]; done))
@[simp] theorem loseStep_lead (s : State) : (loseStep s).lead = s.lead := by
  show (endExecution (noteOutcome 5 s)).lead = _
  simp
@[simp] theorem loseStep_mems (s : State) : (loseStep s).mems = s.mems := by
  show (endExecution (noteOutcome 5 s)).mems = _
  simp
@[simp] theorem hardwareTrip_lead (s : State) : (hardwareTrip s).lead = s.lead := by simp [hardwareTrip]

end Sys2Proof.Machine
end

