-- ==== Sys2Proof/Laws/FrameBringup.lean ====
section
/-! SUPPORT. What the operations of `Sys2Proof.Machine.Bringup` leave of the queue, module flash and the memories. -/

namespace Sys2Proof.Machine

@[simp] theorem resetUnits_lead (bring : Bring) (asserted : Bool) (cause : Nat) (s : State) : (resetUnits bring asserted cause s).lead = s.lead := (rfl)
@[simp] theorem resetUnits_wf (b : Bring) (a : Bool) (c : Nat) (s : State) (_wf : memsWf s.mems) : memsWf (resetUnits b a c s).mems :=
  ⟨rfl, rfl, rfl, rfl⟩
@[simp] theorem linkFalls_lead (s : State) : (linkFalls s).lead = s.lead := by simp [linkFalls]
@[simp] theorem linkFalls_mems (s : State) : (linkFalls s).mems = s.mems := by simp [linkFalls]
@[simp] theorem enterRecovery_lead (s : State) : (enterRecovery s).lead = s.lead := (rfl)
@[simp] theorem enterRecovery_mems (s : State) : (enterRecovery s).mems = s.mems := (rfl)
@[simp] theorem raiseEarly_lead (s : State) : (raiseEarly s).lead = s.lead := by simp [raiseEarly]
@[simp] theorem raiseEarly_mems (s : State) : (raiseEarly s).mems = s.mems := by simp [raiseEarly]
@[simp] theorem raiseFloor_pending (idx old new : Nat) (put : SecFlash → SecFlash) (s : State) : (raiseFloor idx old new put s).pending = s.pending := by unfold raiseFloor; split <;> rfl
@[simp] theorem raiseFloor_mems (idx old new : Nat) (put : SecFlash → SecFlash) (s : State) : (raiseFloor idx old new put s).mems = s.mems := by unfold raiseFloor; split <;> rfl
@[simp] theorem quarantineCore_pending (q : QCause) (s : State) (c : CoreIx) : (quarantineCore q s c).pending = s.pending := by
  unfold quarantineCore; split
  · rfl
  · simp
@[simp] theorem quarantineCore_mems (cause : QCause) (s : State) (c : CoreIx) : (quarantineCore cause s c).mems = s.mems := by unfold quarantineCore; split <;> rfl
@[simp] theorem lastingFault_mems (s : State) (u : CardUnit) : (lastingFault s u).mems = s.mems := by
  cases u <;> simp [lastingFault]
@[simp] theorem selfTestFails_mems (units : List CardUnit) (s : State) : (selfTestFails units s).mems = s.mems := by simp [selfTestFails]

end Sys2Proof.Machine
end

