-- ==== Sys2Proof/Laws/FrameIntegrity.lean ====
section
/-! SUPPORT. What the operations of `Sys2Proof.Machine.Integrity` leave of the queue, module flash and the memories. -/

namespace Sys2Proof.Machine

@[simp] theorem intermittent_pending (s : State) (c : CoreIx) : (intermittent s c).pending = s.pending := by simp [intermittent]
@[simp] theorem intermittent_mems (s : State) (c : CoreIx) : (intermittent s c).mems = s.mems := by simp [intermittent]
@[simp] theorem detect_wf (cores : List CoreIx) (replay later : List CardUnit) (s : State) (wf : memsWf s.mems) : memsWf (detect cores replay later s).mems := by simp (maxDischargeDepth := 30) [detect, *]
@[simp] theorem plyMismatch_wf (m : Mismatch) (c : Capture) (original checker : CoreIx) (s : State) (wf : memsWf s.mems) : memsWf (plyMismatch m c original checker s).mems := by simp (maxDischargeDepth := 30) [plyMismatch, *]
@[simp] theorem segmentCheck_wf (w : SegWait) (returned : List Word) (s : State) (wf : memsWf s.mems) : memsWf (segmentCheck w returned s).mems := by unfold segmentCheck; (try dsimp only); (repeat' split) <;> (first | assumption | (simp (maxDischargeDepth := 30) [*]; done))
@[simp] theorem cardingEnds_wf (u : CardUnit) (part : CardPart) (s : State) (wf : memsWf s.mems) : memsWf (cardingEnds u part s).mems := by unfold cardingEnds; (try dsimp only); (repeat' split) <;> (first | assumption | (simp (maxDischargeDepth := 30) [*]; done))
@[simp] theorem writeCardingCtrl_lead (val : Word) (s : State) : (writeCardingCtrl val s).lead = s.lead := by unfold writeCardingCtrl; (try dsimp only); (repeat' split) <;> (first | rfl | (simp [*]; done))
@[simp] theorem writeCardingCtrl_mems (val : Word) (s : State) : (writeCardingCtrl val s).mems = s.mems := by unfold writeCardingCtrl; (try dsimp only); (repeat' split) <;> (first | rfl | (simp [*]; done))
@[simp] theorem sramCorrected_lead (cluster words : Nat) (s : State) : (sramCorrected cluster words s).lead = s.lead := by simp [sramCorrected]
@[simp] theorem sramCorrected_mems (cluster words : Nat) (s : State) : (sramCorrected cluster words s).mems = s.mems := by simp [sramCorrected]

end Sys2Proof.Machine
end

