-- ==== Sys2Proof/Laws/FrameCoreRegs.lean ====
section
/-! SUPPORT. What the operations of `Sys2Proof.Machine.CoreRegs` leave of the queue, module flash and the memories. -/

namespace Sys2Proof.Machine

@[simp] theorem accClear_lead (a : AccRef) (s : State) : (accClear a s).lead = s.lead := by unfold accClear; split <;> rfl
@[simp] theorem accClear_mems (a : AccRef) (s : State) : (accClear a s).mems = s.mems := by unfold accClear; split <;> rfl
@[simp] theorem writePage_lead (core : Nat) (val : Word) (s : State) : (writePage core val s).lead = s.lead := by simp [writePage]
@[simp] theorem writePage_mems (core : Nat) (val : Word) (s : State) : (writePage core val s).mems = s.mems := by simp [writePage]
@[simp] theorem busRead_lead (data : List Byte) (poisoned : Bool) (s : State) : (busRead data poisoned s).lead = s.lead := (rfl)
@[simp] theorem busRead_mems (data : List Byte) (poisoned : Bool) (s : State) : (busRead data poisoned s).mems = s.mems := (rfl)
@[simp] theorem windowAccess_lead (core : CoreIx) (word : Nat) (access : Access) (s : State) : (windowAccess core word access s).lead = s.lead := by unfold windowAccess; split <;> rfl
@[simp] theorem windowRefused_lead (core : CoreIx) (access : Access) (s : State) : (windowRefused core access s).lead = s.lead := by unfold windowRefused; split <;> rfl
@[simp] theorem windowRefused_mems (core : CoreIx) (access : Access) (s : State) : (windowRefused core access s).mems = s.mems := by unfold windowRefused; split <;> rfl
@[simp] theorem spoolWindow_lead (core : CoreIx) (word : Nat) (access : Access) (s : State) : (spoolWindow core word access s).lead = s.lead := by unfold spoolWindow; (try dsimp only); (repeat' split) <;> (first | rfl | (simp [*]; done))
@[simp] theorem clearFirstInvalid_lead (core : Nat) (s : State) : (clearFirstInvalid core s).lead = s.lead := (rfl)
@[simp] theorem clearFirstInvalid_mems (core : Nat) (s : State) : (clearFirstInvalid core s).mems = s.mems := (rfl)
@[simp] theorem writeCoreStatus_lead (core : Nat) (val : Word) (s : State) : (writeCoreStatus core val s).lead = s.lead := (rfl)
@[simp] theorem writeCoreStatus_mems (core : Nat) (val : Word) (s : State) : (writeCoreStatus core val s).mems = s.mems := (rfl)

end Sys2Proof.Machine
end

