-- ==== Sys2Proof/Laws/FrameSkein.lean ====
section
/-! SUPPORT. What the operations of `Sys2Proof.Machine.Skein` leave of the queue, module flash and the memories. -/

namespace Sys2Proof.Machine

@[simp] theorem correctedWord_lead (addr : Nat) (byScrub : Bool) (cls symbol : Nat) (s : State) : (correctedWord addr byScrub cls symbol s).lead = s.lead := by simp [correctedWord]
@[simp] theorem correctedWord_mems (addr : Nat) (byScrub : Bool) (cls symbol : Nat) (s : State) : (correctedWord addr byScrub cls symbol s).mems = s.mems := by simp [correctedWord]
@[simp] theorem stateLost_lead (addr : Nat) (b : Bool) (c : Nat) (s : State) : (stateLost addr b c s).lead = s.lead := by
  unfold stateLost; dsimp only; split <;> simp
@[simp] theorem stateLost_mems (addr : Nat) (b : Bool) (c : Nat) (s : State) : (stateLost addr b c s).mems = s.mems := by
  unfold stateLost; dsimp only; split <;> simp
@[simp] theorem renewParams_lead (layer addr : Nat) (s : State) : (renewParams layer addr s).lead = s.lead := by simp [renewParams]
@[simp] theorem renewParams_wf (layer addr : Nat) (s : State) (wf : memsWf s.mems) : memsWf (renewParams layer addr s).mems := by unfold renewParams; exact foldl_wf _ (fun t x w => by (try dsimp only); (repeat' split) <;> (first | assumption | (simp (maxDischargeDepth := 30) [*]; done))) _ _ (by (first | assumption | (simp (maxDischargeDepth := 30) [*]; done)))
@[simp] theorem pathParity_lead (boundary addr cls : Nat) (s : State) : (pathParity boundary addr cls s).lead = s.lead := by simp [pathParity]
@[simp] theorem pathParity_mems (boundary addr cls : Nat) (s : State) : (pathParity boundary addr cls s).mems = s.mems := by simp [pathParity]
@[simp] theorem noData_lead (s : State) : (noData s).lead = s.lead := (rfl)
@[simp] theorem noData_mems (s : State) : (noData s).mems = s.mems := (rfl)
@[simp] theorem noteReads_lead (addr n : Nat) (s : State) : (noteReads addr n s).lead = s.lead := (rfl)
@[simp] theorem noteReads_mems (addr n : Nat) (s : State) : (noteReads addr n s).mems = s.mems := (rfl)
@[simp] theorem markBad_lead (addr : Nat) (s : State) : (markBad addr s).lead = s.lead := (rfl)
@[simp] theorem markBad_mems (addr : Nat) (s : State) : (markBad addr s).mems = s.mems := (rfl)
@[simp] theorem SkeinReq.fails_lead (q : SkeinReq) (s : State) : (SkeinReq.fails q s).lead = s.lead := by unfold SkeinReq.fails; (try dsimp only); (repeat' split) <;> (first | rfl | (simp [*]; done))
@[simp] theorem SkeinReq.fails_mems (q : SkeinReq) (s : State) : (SkeinReq.fails q s).mems = s.mems := by unfold SkeinReq.fails; (try dsimp only); (repeat' split) <;> (first | rfl | (simp [*]; done))
@[simp] theorem skeinWrite_lead (cls addr : Nat) (data : List Byte) (s : State) : (skeinWrite cls addr data s).lead = s.lead := by unfold skeinWrite; split <;> rfl
@[simp] theorem skeinWrite_wf (cls addr : Nat) (data : List Byte) (s : State) (wf : memsWf s.mems) : memsWf (skeinWrite cls addr data s).mems := by unfold skeinWrite; (try dsimp only); (repeat' split) <;> (first | assumption | (simp (maxDischargeDepth := 30) [*]; done))
@[simp] theorem cxlWrite_lead (off : Nat) (data : List Byte) (parity : Option (Fin 8)) (s : State) : (cxlWrite off data parity s).lead = s.lead := by unfold cxlWrite; (try dsimp only); (repeat' split) <;> (first | rfl | (simp [*]; done))
@[simp] theorem cxlWrite_wf (off : Nat) (data : List Byte) (parity : Option (Fin 8)) (s : State) (wf : memsWf s.mems) : memsWf (cxlWrite off data parity s).mems := by unfold cxlWrite; (try dsimp only); (repeat' split) <;> (first | assumption | (simp (maxDischargeDepth := 30) [*]; done))

end Sys2Proof.Machine
end

