-- ==== Sys2Proof/Laws/FrameBobbin.lean ====
section
/-! SUPPORT. What the operations of `Sys2Proof.Machine.Bobbin` leave of the queue, module flash and the memories. -/

namespace Sys2Proof.Machine

@[simp] theorem onBobbin_lead (stage : Nat) (f : BobStage → BobStage) (s : State) : (onBobbin stage f s).lead = s.lead := (rfl)
@[simp] theorem onBobbin_mems (stage : Nat) (f : BobStage → BobStage) (s : State) : (onBobbin stage f s).mems = s.mems := (rfl)
@[simp] theorem spillOldest_lead (stage : Nat) (s : State) : (spillOldest stage s).lead = s.lead := by unfold spillOldest; (try dsimp only); (repeat' split) <;> (first | rfl | (simp [*]; done))
@[simp] theorem spillOldest_wf (stage : Nat) (s : State) (wf : memsWf s.mems) : memsWf (spillOldest stage s).mems := by unfold spillOldest; (try dsimp only); (repeat' split) <;> (first | assumption | (simp (maxDischargeDepth := 30) [*]; done))
@[simp] theorem addGrain_lead (stage number : Nat) (bs : List Byte) (s : State) : (addGrain stage number bs s).lead = s.lead := by unfold addGrain; (try dsimp only); (repeat' split) <;> (first | rfl | (simp [*]; done))
@[simp] theorem addGrain_wf (stage number : Nat) (bs : List Byte) (s : State) (wf : memsWf s.mems) : memsWf (addGrain stage number bs s).mems := by unfold addGrain; (try dsimp only); (repeat' split) <;> (first | assumption | (simp (maxDischargeDepth := 30) [*]; done))
@[simp] theorem reserveFrame_lead (stage mb : Nat) (s : State) : (reserveFrame stage mb s).lead = s.lead := by unfold reserveFrame; (try dsimp only); (repeat' split) <;> (first | rfl | (simp [*]; done))
@[simp] theorem reserveFrame_mems (stage mb : Nat) (s : State) : (reserveFrame stage mb s).mems = s.mems := by unfold reserveFrame; (try dsimp only); (repeat' split) <;> (first | rfl | (simp [*]; done))
@[simp] theorem notePopped_lead (stage mb layer : Nat) (reduced : Bool) (s : State) : (notePopped stage mb layer reduced s).lead = s.lead := (rfl)
@[simp] theorem notePopped_mems (stage mb layer : Nat) (reduced : Bool) (s : State) : (notePopped stage mb layer reduced s).mems = s.mems := (rfl)
@[simp] theorem noteRecomputed_lead (l : Layer) (mb : Nat) (s : State) : (noteRecomputed l mb s).lead = s.lead := (rfl)
@[simp] theorem noteRecomputed_mems (l : Layer) (mb : Nat) (s : State) : (noteRecomputed l mb s).mems = s.mems := (rfl)

end Sys2Proof.Machine
end

