-- ==== Sys2Proof/Laws/FrameUnpack.lean ====
section
/-! SUPPORT. What the operations of `Sys2Proof.Machine.Unpack` leave of the queue, module flash and the memories. -/

namespace Sys2Proof.Machine

@[simp] theorem readEvents_lead (core layer : Nat) (evs : List (Nat × Nat × Nat)) (s : State) : (readEvents core layer evs s).lead = s.lead := by simp [readEvents]
@[simp] theorem readEvents_mems (core layer : Nat) (evs : List (Nat × Nat × Nat)) (s : State) : (readEvents core layer evs s).mems = s.mems := by simp [readEvents]

end Sys2Proof.Machine
end

