-- ==== Sys2Proof/Laws/FrameWrite.lean ====
section
/-! SUPPORT. What the operations of `Sys2Proof.Machine.Write` leave of the queue, module flash and the memories. -/

namespace Sys2Proof.Machine

@[simp] theorem countFor_lead (p : Phase) (layer : Nat) (c : Counts) (s : State) : (countFor p layer c s).lead = s.lead := by unfold countFor; split <;> rfl
@[simp] theorem countFor_mems (p : Phase) (layer : Nat) (c : Counts) (s : State) : (countFor p layer c s).mems = s.mems := by unfold countFor; split <;> rfl

end Sys2Proof.Machine
end

