-- ==== Sys2Proof/Laws/FrameSched.lean ====
section
/-! SUPPORT. What the operations of `Sys2Proof.Machine.Sched` leave of the queue, module flash and the memories. -/

namespace Sys2Proof.Machine

@[simp] theorem firstF_lead (s : State) : (firstF s).lead = s.lead := by unfold firstF; simp; (repeat' split) <;> (first | rfl | (simp [*]; done))
@[simp] theorem firstF_mems (s : State) : (firstF s).mems = s.mems := by unfold firstF; simp; (repeat' split) <;> (first | rfl | (simp [*]; done))

end Sys2Proof.Machine
end

