-- ==== Sys2Proof/Laws/FrameTiles.lean ====
section
/-! SUPPORT. What the operations of `Sys2Proof.Machine.Tiles` leave of the queue, module flash and the memories. -/

namespace Sys2Proof.Machine

@[simp] theorem putRun_lead (a : AccRef) (r : TileRun) (s : State) : (putRun a r s).lead = s.lead := by unfold putRun; simp; (repeat' split) <;> (first | rfl | (simp [*]; done))
@[simp] theorem faultTile_wf (on : Bool) (a : AccRef) (s : State) (wf : memsWf s.mems) : memsWf (faultTile on a s).mems := by simp (maxDischargeDepth := 30) [faultTile, *]
@[simp] theorem beginB_lead (p : Phase) (s : State) : (beginB p s).lead = s.lead := by unfold beginB; (try dsimp only); (repeat' split) <;> (first | rfl | (simp [*]; done))
@[simp] theorem beginB_mems (p : Phase) (s : State) : (beginB p s).mems = s.mems := by unfold beginB; (try dsimp only); (repeat' split) <;> (first | rfl | (simp [*]; done))
@[simp] theorem parkTile_lead (p : Option SlotRef) (a : AccRef) (s : State) : (parkTile p a s).lead = s.lead := by unfold parkTile; split <;> rfl
@[simp] theorem noteIssued_lead (t : TileWork) (s : State) : (noteIssued t s).lead = s.lead := (rfl)
@[simp] theorem noteIssued_mems (t : TileWork) (s : State) : (noteIssued t s).mems = s.mems := (rfl)
@[simp] theorem layerTiles_lead (layer : Nat) (t : TileFlags) (s : State) : (layerTiles layer t s).lead = s.lead := by simp [layerTiles]
@[simp] theorem layerTiles_mems (layer : Nat) (t : TileFlags) (s : State) : (layerTiles layer t s).mems = s.mems := by simp [layerTiles]
@[simp] theorem noteLast_lead (last : Bool) (p : Phase) (l : Layer) (mb : Nat) (s : State) : (noteLast last p l mb s).lead = s.lead := by unfold noteLast; (try dsimp only); (repeat' split) <;> (first | rfl | (simp [*]; done))
@[simp] theorem noteLast_mems (last : Bool) (p : Phase) (l : Layer) (mb : Nat) (s : State) : (noteLast last p l mb s).mems = s.mems := by unfold noteLast; (try dsimp only); (repeat' split) <;> (first | rfl | (simp [*]; done))

end Sys2Proof.Machine
end

