-- ==== Sys2Proof/Laws/FrameWhorl.lean ====
section
/-! SUPPORT. What the operations of `Sys2Proof.Machine.Whorl` leave of the queue, module flash and the memories. -/

namespace Sys2Proof.Machine

@[simp] theorem putAttn_lead (w : WhorlWork) (x : Option AttnRow) (s : State) : (putAttn w x s).lead = s.lead := (rfl)
@[simp] theorem putAttn_mems (w : WhorlWork) (x : Option AttnRow) (s : State) : (putAttn w x s).mems = s.mems := (rfl)
@[simp] theorem whorlEffect_lead (w : WhorlWork) (l : Layer) (vals : List Word) (s : State) : (whorlEffect w l vals s).lead = s.lead := by unfold whorlEffect; (try dsimp only); (repeat' split) <;> (first | rfl | (simp [*]; done))
@[simp] theorem whorlEffect_wf (w : WhorlWork) (l : Layer) (vals : List Word) (s : State) (wf : memsWf s.mems) : memsWf (whorlEffect w l vals s).mems := by unfold whorlEffect; (try dsimp only); (repeat' split) <;> (first | assumption | (simp (maxDischargeDepth := 30) [*]; done))

end Sys2Proof.Machine
end

