-- ==== Sys2Proof/Laws/FrameDescriptors.lean ====
section
/-! SUPPORT. What the operations of `Sys2Proof.Machine.Descriptors` leave of the queue, module flash and the memories. -/

namespace Sys2Proof.Machine

@[simp] theorem atHead_lead (q : QueueIx) (type : Nat) (k : Desc → State → State) (s : State) (hk : ∀ x y, (k x y).lead = y.lead) : (atHead q type k s).lead = s.lead := by unfold atHead; (try dsimp only); (repeat' split) <;> (first | rfl | (simp [*]; done))
@[simp] theorem atHead_mems (q : QueueIx) (type : Nat) (k : Desc → State → State) (s : State) (hk : ∀ x y, (k x y).mems = y.mems) : (atHead q type k s).mems = s.mems := by unfold atHead; (try dsimp only); (repeat' split) <;> (first | rfl | (simp [*]; done))
@[simp] theorem atHead_wf (q : QueueIx) (type : Nat) (k : Desc → State → State) (s : State) (hk : ∀ x y, memsWf y.mems → memsWf (k x y).mems) (wf : memsWf s.mems) : memsWf (atHead q type k s).mems := by unfold atHead; (try dsimp only); (repeat' split) <;> (first | assumption | (simp (maxDischargeDepth := 30) [*]; done))
@[simp] theorem checkedHead_lead (q : QueueIx) (cs : List (Nat × Option Nat)) (k : State → State) (s : State) (hk : ∀ x, (k x).lead = x.lead) : (checkedHead q cs k s).lead = s.lead := by unfold checkedHead; (try dsimp only); (repeat' split) <;> (first | rfl | (simp [*]; done))
@[simp] theorem checkedHead_mems (q : QueueIx) (cs : List (Nat × Option Nat)) (k : State → State) (s : State) (hk : ∀ x, (k x).mems = x.mems) : (checkedHead q cs k s).mems = s.mems := by unfold checkedHead; (try dsimp only); (repeat' split) <;> (first | rfl | (simp [*]; done))
@[simp] theorem checkedHead_wf (q : QueueIx) (cs : List (Nat × Option Nat)) (k : State → State) (s : State) (hk : ∀ x, memsWf x.mems → memsWf (k x).mems) (wf : memsWf s.mems) : memsWf (checkedHead q cs k s).mems := by unfold checkedHead; (try dsimp only); (repeat' split) <;> (first | assumption | (simp (maxDischargeDepth := 30) [*]; done))
@[simp] theorem acceptStep_lead (d : Desc) (b : BatchIn) (s : State) : (acceptStep d b s).lead = s.lead := by unfold acceptStep; split <;> rfl
@[simp] theorem acceptStep_wf (d : Desc) (b : BatchIn) (s : State) (wf : memsWf s.mems) : memsWf (acceptStep d b s).mems := by simp (maxDischargeDepth := 30) [acceptStep, *]
@[simp] theorem stepHead_lead (table tokens : List Word) (poison : Option Nat) (d : Desc) (s : State) : (stepHead table tokens poison d s).lead = s.lead := by simp [stepHead]
@[simp] theorem seedHead_lead (d : Desc) (s : State) : (seedHead d s).lead = s.lead := by simp [seedHead]
@[simp] theorem seedHead_mems (d : Desc) (s : State) : (seedHead d s).mems = s.mems := by simp [seedHead]
@[simp] theorem windowWrite_lead (off : Nat) (data : List Byte) (s : State) : (windowWrite off data s).lead = s.lead := (rfl)
@[simp] theorem windowWrite_wf (off : Nat) (data : List Byte) (s : State) (wf : memsWf s.mems) : memsWf (windowWrite off data s).mems := by simp (maxDischargeDepth := 30) [windowWrite, *]
@[simp] theorem copyRun_lead (isIn : Bool) (poison : Bool) (k : Desc → Nat → State → State) (s : State) (hk : ∀ x y z, (k x y z).lead = z.lead) : (copyRun isIn poison k s).lead = s.lead := by unfold copyRun; (try dsimp only); (repeat' split) <;> (first | rfl | (simp [*]; done))
@[simp] theorem copyRun_mems (isIn : Bool) (poison : Bool) (k : Desc → Nat → State → State) (s : State) (hk : ∀ x y z, (k x y z).mems = z.mems) : (copyRun isIn poison k s).mems = s.mems := by unfold copyRun; (try dsimp only); (repeat' split) <;> (first | rfl | (simp [*]; done))
@[simp] theorem endCopy_lead (d : Desc) (c : Compl) (s : State) : (endCopy d c s).lead = s.lead := by simp [endCopy]
@[simp] theorem endCopy_mems (d : Desc) (c : Compl) (s : State) : (endCopy d c s).mems = s.mems := by simp [endCopy]
@[simp] theorem copyMoved_lead (d : Desc) (n : Nat) (s : State) : (copyMoved d n s).lead = s.lead := by simp [copyMoved]
@[simp] theorem copyMoved_mems (d : Desc) (n : Nat) (s : State) : (copyMoved d n s).mems = s.mems := by simp [copyMoved]

end Sys2Proof.Machine
end

