-- ==== Sys2Proof/Laws/FrameIdentity.lean ====
section
/-! SUPPORT. What the operations of `Sys2Proof.Machine.Identity` leave of the queue, module flash and the memories. -/

namespace Sys2Proof.Machine

@[simp] theorem ownerCommand_mems (opcode : Nat) (e : OwnerEnv) (operands : List (List Byte)) (cause opFails : Nat) (act : State → State) (s : State) (hact : ∀ x, (act x).mems = x.mems) : (ownerCommand opcode e operands cause opFails act s).mems = s.mems := by unfold ownerCommand; (try dsimp only); (repeat' split) <;> (first | rfl | (simp [*]; done))
@[simp] theorem ownerCommand_wf (opcode : Nat) (e : OwnerEnv) (operands : List (List Byte)) (cause opFails : Nat) (act : State → State) (s : State) (hact : ∀ x, memsWf x.mems → memsWf (act x).mems) (wf : memsWf s.mems) : memsWf (ownerCommand opcode e operands cause opFails act s).mems := by unfold ownerCommand; (try dsimp only); (repeat' split) <;> (first | assumption | (simp (maxDischargeDepth := 30) [*]; done))
@[simp] theorem putStore_pending (f : SecFlash → SecFlash) (s : State) : (putStore f s).pending = s.pending := (rfl)
@[simp] theorem putStore_mems (f : SecFlash → SecFlash) (s : State) : (putStore f s).mems = s.mems := (rfl)

end Sys2Proof.Machine
end

