-- ==== Sys2Proof/Laws/FrameSpdm.lean ====
section
/-! SUPPORT. What the operations of `Sys2Proof.Machine.Spdm` leave of the queue, module flash and the memories. -/

namespace Sys2Proof.Machine

@[simp] theorem issueReport_lead (path : Nat) (s : State) : (issueReport path s).lead = s.lead := by simp [issueReport]
@[simp] theorem issueReport_mems (path : Nat) (s : State) : (issueReport path s).mems = s.mems := by simp [issueReport]
@[simp] theorem answer_lead (f : State → State) (s : State) (hf : ∀ x, (f x).lead = x.lead) : (answer f s).lead = s.lead := by unfold answer; (try dsimp only); (repeat' split) <;> (first | rfl | (simp [*]; done))
@[simp] theorem answer_pending (f : State → State) (s : State) (hf : ∀ x, (f x).pending = x.pending) : (answer f s).pending = s.pending := by unfold answer; (try dsimp only); (repeat' split) <;> (first | rfl | (simp [*]; done))
@[simp] theorem answer_mems (f : State → State) (s : State) (hf : ∀ x, (f x).mems = x.mems) : (answer f s).mems = s.mems := by unfold answer; (try dsimp only); (repeat' split) <;> (first | rfl | (simp [*]; done))
@[simp] theorem answer_wf (f : State → State) (s : State) (hf : ∀ x, memsWf x.mems → memsWf (f x).mems) (wf : memsWf s.mems) : memsWf (answer f s).mems := by unfold answer; (try dsimp only); (repeat' split) <;> (first | assumption | (simp (maxDischargeDepth := 30) [*]; done))
@[simp] theorem whenReady_lead (f : State → State) (s : State) (hf : ∀ x, (f x).lead = x.lead) : (whenReady f s).lead = s.lead := by unfold whenReady; (try dsimp only); (repeat' split) <;> (first | rfl | (simp [*]; done))
@[simp] theorem whenReady_pending (f : State → State) (s : State) (hf : ∀ x, (f x).pending = x.pending) : (whenReady f s).pending = s.pending := by unfold whenReady; (try dsimp only); (repeat' split) <;> (first | rfl | (simp [*]; done))
@[simp] theorem whenReady_mems (f : State → State) (s : State) (hf : ∀ x, (f x).mems = x.mems) : (whenReady f s).mems = s.mems := by unfold whenReady; (try dsimp only); (repeat' split) <;> (first | rfl | (simp [*]; done))
@[simp] theorem writeReportCtrl_lead (val : Word) (s : State) : (writeReportCtrl val s).lead = s.lead := by simp [writeReportCtrl]
@[simp] theorem writeReportCtrl_mems (val : Word) (s : State) : (writeReportCtrl val s).mems = s.mems := by simp [writeReportCtrl]
@[simp] theorem reportTick_lead (s : State) : (reportTick s).lead = s.lead := by unfold reportTick; split <;> rfl
@[simp] theorem reportTick_mems (s : State) : (reportTick s).mems = s.mems := by unfold reportTick; split <;> rfl

end Sys2Proof.Machine
end

