-- ==== Sys2Proof/Laws/FrameCheckpoint.lean ====
section
/-! SUPPORT. What the operations of `Sys2Proof.Machine.Checkpoint` leave of the queue, module flash and the memories. -/

namespace Sys2Proof.Machine

@[simp] theorem writeCheckpoint_lead (d : Desc) (bs : List Byte) (s : State) : (writeCheckpoint d bs s).lead = s.lead := by simp [writeCheckpoint]
@[simp] theorem writeCheckpoint_mems (d : Desc) (bs : List Byte) (s : State) : (writeCheckpoint d bs s).mems = s.mems := by simp [writeCheckpoint]
@[simp] theorem restoreShards_lead (im : Image) (b : Bundle) (s : State) : (restoreShards im b s).lead = s.lead := by unfold restoreShards; exact foldl_lead _ (fun t x => by (try dsimp only); (repeat' split) <;> (first | rfl | (simp [*]; done))) _ _
@[simp] theorem restoreShards_wf (im : Image) (b : Bundle) (s : State) (wf : memsWf s.mems) : memsWf (restoreShards im b s).mems := by unfold restoreShards; exact foldl_wf _ (fun t x w => by (try dsimp only); (repeat' split) <;> (first | assumption | (simp (maxDischargeDepth := 30) [*]; done))) _ _ (by (first | assumption | (simp (maxDischargeDepth := 30) [*]; done)))
@[simp] theorem refuseRestore_lead (cause : Nat) (s : State) : (refuseRestore cause s).lead = s.lead := by simp [refuseRestore]
@[simp] theorem refuseRestore_mems (cause : Nat) (s : State) : (refuseRestore cause s).mems = s.mems := by simp [refuseRestore]

end Sys2Proof.Machine
end

