-- ==== Sys2Proof/Laws/FrameLoader.lean ====
section
/-! SUPPORT. What the operations of `Sys2Proof.Machine.Loader` leave of the queue, module flash and the memories. -/

namespace Sys2Proof.Machine

@[simp] theorem busyReject_lead (s : State) : (busyReject s).lead = s.lead := (rfl)
@[simp] theorem busyReject_mems (s : State) : (busyReject s).mems = s.mems := (rfl)
@[simp] theorem refuseLoad_lead (code sect ent : Nat) (s : State) : (refuseLoad code sect ent s).lead = s.lead := by simp [refuseLoad]
@[simp] theorem refuseLoad_mems (code sect ent : Nat) (s : State) : (refuseLoad code sect ent s).mems = s.mems := by simp [refuseLoad]
@[simp] theorem refuseAt_lead (p : RulePlace) (s : State) : (refuseAt p s).lead = s.lead := by unfold refuseAt; (try dsimp only); (repeat' split) <;> (first | rfl | (simp [*]; done))
@[simp] theorem refuseAt_mems (p : RulePlace) (s : State) : (refuseAt p s).mems = s.mems := by unfold refuseAt; (try dsimp only); (repeat' split) <;> (first | rfl | (simp [*]; done))
@[simp] theorem checkPlaces_lead (ps : List RulePlace) (k : State → State) (s : State) (hk : ∀ x, (k x).lead = x.lead) : (checkPlaces ps k s).lead = s.lead := by unfold checkPlaces; (try dsimp only); (repeat' split) <;> (first | rfl | (simp [*]; done))
@[simp] theorem checkPlaces_mems (ps : List RulePlace) (k : State → State) (s : State) (hk : ∀ x, (k x).mems = x.mems) : (checkPlaces ps k s).mems = s.mems := by unfold checkPlaces; (try dsimp only); (repeat' split) <;> (first | rfl | (simp [*]; done))
@[simp] theorem checkPlaces_wf (ps : List RulePlace) (k : State → State) (s : State) (hk : ∀ x, memsWf x.mems → memsWf (k x).mems) (wf : memsWf s.mems) : memsWf (checkPlaces ps k s).mems := by unfold checkPlaces; (try dsimp only); (repeat' split) <;> (first | assumption | (simp (maxDischargeDepth := 30) [*]; done))
@[simp] theorem startLoad_lead (cont : Bool) (s : State) : (startLoad cont s).lead = s.lead := by simp [startLoad]
@[simp] theorem startLoad_mems (cont : Bool) (s : State) : (startLoad cont s).mems = s.mems := by simp [startLoad]
@[simp] theorem writeLoad_lead (cont : Bool) (s : State) : (writeLoad cont s).lead = s.lead := by simp [writeLoad]
@[simp] theorem writeLoad_mems (cont : Bool) (s : State) : (writeLoad cont s).mems = s.mems := by simp [writeLoad]
@[simp] theorem verifyStage_lead (s : State) : (verifyStage s).lead = s.lead := by simp [verifyStage]
@[simp] theorem verifyStage_mems (s : State) : (verifyStage s).mems = s.mems := by simp [verifyStage]
@[simp] theorem validateStage_lead (s : State) : (validateStage s).lead = s.lead := by simp [validateStage]
@[simp] theorem validateStage_mems (s : State) : (validateStage s).mems = s.mems := by simp [validateStage]
@[simp] theorem beginDistribute_lead (s : State) : (beginDistribute s).lead = s.lead := by unfold beginDistribute; (try dsimp only); (repeat' split) <;> (first | rfl | (simp [*]; done))
@[simp] theorem beginDistribute_wf (s : State) (wf : memsWf s.mems) : memsWf (beginDistribute s).mems := by unfold beginDistribute; (try dsimp only); (repeat' split) <;> (first | assumption | (simp (maxDischargeDepth := 30) [*]; done))
@[simp] theorem deadlineStage_lead (im : Image) (s : State) : (deadlineStage im s).lead = s.lead := by simp [deadlineStage]
@[simp] theorem deadlineStage_wf (im : Image) (s : State) (wf : memsWf s.mems) : memsWf (deadlineStage im s).mems := by unfold deadlineStage; (try dsimp only); (repeat' split) <;> (first | assumption | (simp (maxDischargeDepth := 30) [*]; done))
@[simp] theorem feasibilityStage_lead (s : State) : (feasibilityStage s).lead = s.lead := by unfold feasibilityStage; (try dsimp only); (repeat' split) <;> (first | rfl | (simp [*]; done))
@[simp] theorem clearSinceLoad_lead (s : State) : (clearSinceLoad s).lead = s.lead := (rfl)
@[simp] theorem clearSinceLoad_mems (s : State) : (clearSinceLoad s).mems = s.mems := (rfl)
@[simp] theorem newJob_lead (im : Image) (s : State) : (newJob im s).lead = s.lead := (rfl)
@[simp] theorem newJob_mems (im : Image) (s : State) : (newJob im s).mems = s.mems := (rfl)
@[simp] theorem continueJob_lead (im : Image) (s : State) : (continueJob im s).lead = s.lead := (rfl)
@[simp] theorem continueJob_mems (im : Image) (s : State) : (continueJob im s).mems = s.mems := (rfl)
@[simp] theorem acceptLoad_lead (im : Image) (s : State) : (acceptLoad im s).lead = s.lead := by simp [acceptLoad]
@[simp] theorem acceptLoad_wf (im : Image) (s : State) (wf : memsWf s.mems) : memsWf (acceptLoad im s).mems := by simp (maxDischargeDepth := 30) [acceptLoad, *]

end Sys2Proof.Machine
end

