-- ==== Sys2Proof/Laws/FrameNepTest.lean ====
section
/-! SUPPORT. What the operations of `Sys2Proof.Machine.NepTest` leave of the queue, module flash and the memories. -/

namespace Sys2Proof.Machine

@[simp] theorem writeNepCtrl_lead (val : Word) (s : State) : (writeNepCtrl val s).lead = s.lead := by unfold writeNepCtrl; split <;> rfl
@[simp] theorem writeNepCtrl_mems (val : Word) (s : State) : (writeNepCtrl val s).mems = s.mems := by unfold writeNepCtrl; split <;> rfl

end Sys2Proof.Machine
end

