-- ==== Sys2Proof/Laws/FrameHostRegs.lean ====
section
/-! SUPPORT. What the operations of `Sys2Proof.Machine.HostRegs` leave of the queue, module flash and the memories. -/

namespace Sys2Proof.Machine

@[simp] theorem writeSnap_lead (reg : SnapReg) (val : Word) (s : State) : (writeSnap reg val s).lead = s.lead := by unfold writeSnap; split <;> rfl
@[simp] theorem writeSnap_mems (reg : SnapReg) (val : Word) (s : State) : (writeSnap reg val s).mems = s.mems := by unfold writeSnap; split <;> rfl
@[simp] theorem writeMsix_lead (i : Nat) (val : Word) (s : State) : (writeMsix i val s).lead = s.lead := by simp [writeMsix]
@[simp] theorem writeMsix_mems (i : Nat) (val : Word) (s : State) : (writeMsix i val s).mems = s.mems := by simp [writeMsix]
@[simp] theorem writeQueueBase_lead (q : QueueIx) (f : Queue → Queue) (s : State) : (writeQueueBase q f s).lead = s.lead := by unfold writeQueueBase; split <;> rfl
@[simp] theorem writeQueueBase_mems (q : QueueIx) (f : Queue → Queue) (s : State) : (writeQueueBase q f s).mems = s.mems := by unfold writeQueueBase; split <;> rfl
@[simp] theorem writeQueueReg_lead (q : QueueIx) (r : Nat) (val : Word) (s : State) : (writeQueueReg q r val s).lead = s.lead := by simp [writeQueueReg]
@[simp] theorem writeQueueReg_mems (q : QueueIx) (r : Nat) (val : Word) (s : State) : (writeQueueReg q r val s).mems = s.mems := by simp [writeQueueReg]
@[simp] theorem writeWeft_lead (off : Nat) (val : Word) (s : State) : (writeWeft off val s).lead = s.lead := by simp [writeWeft]
@[simp] theorem writeWeft_mems (off : Nat) (val : Word) (s : State) : (writeWeft off val s).mems = s.mems := by simp [writeWeft]
@[simp] theorem writeTrd_lead (off : Nat) (val : Word) (s : State) : (writeTrd off val s).lead = s.lead := by simp [writeTrd]
@[simp] theorem writeTrd_wf (off : Nat) (val : Word) (s : State) (wf : memsWf s.mems) : memsWf (writeTrd off val s).mems := by unfold writeTrd; (try dsimp only); (repeat' split) <;> (first | assumption | (simp (maxDischargeDepth := 30) [*]; done))
@[simp] theorem writePly_lead (off : Nat) (val : Word) (s : State) : (writePly off val s).lead = s.lead := by simp [writePly]
@[simp] theorem writePly_mems (off : Nat) (val : Word) (s : State) : (writePly off val s).mems = s.mems := by simp [writePly]
@[simp] theorem writeReel_lead (off : Nat) (val : Word) (s : State) : (writeReel off val s).lead = s.lead := by simp [writeReel]
@[simp] theorem writeReel_mems (off : Nat) (val : Word) (s : State) : (writeReel off val s).mems = s.mems := by simp [writeReel]
@[simp] theorem writeRov_lead (off : Nat) (val : Word) (s : State) : (writeRov off val s).lead = s.lead := by simp [writeRov]
@[simp] theorem writeRov_mems (off : Nat) (val : Word) (s : State) : (writeRov off val s).mems = s.mems := by simp [writeRov]
@[simp] theorem writeSec_lead (off : Nat) (val : Word) (s : State) : (writeSec off val s).lead = s.lead := by simp [writeSec]
@[simp] theorem writeSec_mems (off : Nat) (val : Word) (s : State) : (writeSec off val s).mems = s.mems := by simp [writeSec]
@[simp] theorem writeSpd_lead (c : CoreIx) (r : Nat) (val : Word) (s : State) : (writeSpd c r val s).lead = s.lead := by simp [writeSpd]
@[simp] theorem writeSkn_lead (k : StackIx) (r : Nat) (val : Word) (s : State) : (writeSkn k r val s).lead = s.lead := by simp [writeSkn]
@[simp] theorem writeSkn_mems (k : StackIx) (r : Nat) (val : Word) (s : State) : (writeSkn k r val s).mems = s.mems := by simp [writeSkn]
@[simp] theorem writeBoot_lead (off : Nat) (val : Word) (s : State) : (writeBoot off val s).lead = s.lead := by simp [writeBoot]
@[simp] theorem writeBoot_mems (off : Nat) (val : Word) (s : State) : (writeBoot off val s).mems = s.mems := by simp [writeBoot]
@[simp] theorem badAccess_lead (s : State) : (badAccess s).lead = s.lead := (rfl)
@[simp] theorem badAccess_mems (s : State) : (badAccess s).mems = s.mems := (rfl)
@[simp] theorem badBarAccess_lead (isWrite : Bool) (off size : Nat) (s : State) : (badBarAccess isWrite off size s).lead = s.lead := by simp [badBarAccess]
@[simp] theorem badBarAccess_mems (isWrite : Bool) (off size : Nat) (s : State) : (badBarAccess isWrite off size s).mems = s.mems := by simp [badBarAccess]

end Sys2Proof.Machine
end

