-- ==== Sys2Proof/Laws/FrameIssue.lean ====
section
/-! SUPPORT. What the operations of `Sys2Proof.Machine.Issue` leave of the queue, module flash and the memories. -/

namespace Sys2Proof.Machine

@[simp] theorem loseCluster_lead (cl : ClusterIx) (unissued : List Work) (s : State) : (loseCluster cl unissued s).lead = s.lead := by simp [loseCluster]
@[simp] theorem loseCluster_mems (cl : ClusterIx) (unissued : List Work) (s : State) : (loseCluster cl unissued s).mems = s.mems := by simp [loseCluster]

end Sys2Proof.Machine
end

