-- ==== Sys2Proof/Laws/FrameJtag.lean ====
section
/-! SUPPORT. What the operations of `Sys2Proof.Machine.Jtag` leave of the queue, module flash and the memories. -/

namespace Sys2Proof.Machine

@[simp] theorem selectTap_lead (i : TapInstr) (out : List Bool) (s : State) : (selectTap i out s).lead = s.lead := (rfl)
@[simp] theorem selectTap_mems (i : TapInstr) (out : List Bool) (s : State) : (selectTap i out s).mems = s.mems := (rfl)
@[simp] theorem selectInReset_lead (i : TapInstr) (s : State) : (selectInReset i s).lead = s.lead := by unfold selectInReset; split <;> rfl
@[simp] theorem selectInReset_mems (i : TapInstr) (s : State) : (selectInReset i s).mems = s.mems := by unfold selectInReset; split <;> rfl

end Sys2Proof.Machine
end

