-- ==== Sys2Proof/Laws/Keyed.lean ====
section
/-! SUPPORT. Keyed lists and the cores kept in one: what a read gives after a write, and what the sort keeps. -/

namespace Sys2Proof.Machine

/-- Reading a key after putting one: the new value under the key put, the old one elsewhere. -/
@[simp] theorem assocGet_assocPut {α : Type} (d : α) (k j : Nat) (v : α) (l : List (Nat × α)) :
    assocGet d k (assocPut j v l) = if j = k then v else assocGet d k l := by
  induction l with
  | nil => simp [assocPut, assocGet]
  | cons c cs ih =>
    unfold assocPut
    by_cases hj : c.1 = j
    · subst hj; simp only [if_true, assocGet]; split <;> rfl
    · simp only [hj, if_false, assocGet, ih]
      by_cases hc : c.1 = k
      · have hn : ¬ j = k := fun e => hj (hc.trans e.symm)
        rw [if_pos hc, if_neg hn, if_pos hc]
      · rw [if_neg hc, if_neg hc]

/-- Reading a key after a change of every value that keeps the default. -/
theorem assocGet_map {α : Type} (d : α) (k : Nat) (f : α → α) (h : f d = d) (l : List (Nat × α)) :
    assocGet d k (l.map fun c => (c.1, f c.2)) = f (assocGet d k l) := by
  induction l with
  | nil => simp [assocGet, h]
  | cons c cs ih =>
    simp only [List.map_cons, assocGet, ih]
    split <;> rfl

/-- The record a search finds after the records it is for have changed. -/
theorem find?_updWhere {α : Type} (p : α → Bool) (f : α → α) (h : ∀ x, p x = true → p (f x) = true) (l : List α) :
    (updWhere p f l).find? p = (l.find? p).map f := by
  induction l with
  | nil => rfl
  | cons x xs ih =>
    unfold updWhere at *
    by_cases hp : p x = true
    · simp [hp, h x hp]
    · simp only [List.map_cons, hp, if_false, List.find?_cons, Bool.false_eq_true]; exact ih

/-- A search that a change of other records does not reach. -/
theorem find?_updWhere_ne {α : Type} (p q : α → Bool) (f : α → α) (h : ∀ x, p x = true → q x = false ∧ q (f x) = false) (l : List α) :
    (updWhere p f l).find? q = l.find? q := by
  induction l with
  | nil => rfl
  | cons x xs ih =>
    unfold updWhere at *
    by_cases hp : p x = true
    · simp only [List.map_cons, hp, if_true, List.find?_cons, (h x hp).1, (h x hp).2]; exact ih
    · simp only [List.map_cons, hp, if_false, List.find?_cons, Bool.false_eq_true]; rw [ih]

@[simp] theorem State.core_onCore (s : State) (c : Nat) (f : CoreState → CoreState) : (s.onCore c f).core c = f (s.core c) := by
  simp [State.onCore, State.core]

theorem State.core_onCore_ne (s : State) (c d : Nat) (h : d ≠ c) (f : CoreState → CoreState) : (s.onCore c f).core d = s.core d := by
  simp [State.onCore, State.core, Ne.symm h]

@[simp] theorem mem_insertBy {α : Type} (le : α → α → Bool) (x y : α) (l : List α) : y ∈ insertBy le x l ↔ y = x ∨ y ∈ l := by
  induction l with
  | nil => simp [insertBy]
  | cons z zs ih =>
    unfold insertBy
    split
    · simp
    · rw [List.mem_cons, ih, List.mem_cons]
      constructor
      · rintro (h | h | h)
        · exact .inr (.inl h)
        · exact .inl h
        · exact .inr (.inr h)
      · rintro (h | h | h)
        · exact .inr (.inl h)
        · exact .inl h
        · exact .inr (.inr h)

/-- Sorting keeps the elements. -/
@[simp] theorem mem_sortBy {α : Type} (le : α → α → Bool) (y : α) (l : List α) : y ∈ sortBy le l ↔ y ∈ l := by
  induction l with
  | nil => rfl
  | cons x xs ih => rw [sortBy, mem_insertBy, ih, List.mem_cons]

@[simp] theorem length_insertBy {α : Type} (le : α → α → Bool) (x : α) (l : List α) : (insertBy le x l).length = l.length + 1 := by
  induction l with
  | nil => rfl
  | cons z zs ih => unfold insertBy; split <;> simp [ih]

/-- Sorting keeps the number of elements. -/
@[simp] theorem length_sortBy {α : Type} (le : α → α → Bool) (l : List α) : (sortBy le l).length = l.length := by
  induction l with
  | nil => rfl
  | cons x xs ih => rw [sortBy, length_insertBy, ih, List.length_cons]

end Sys2Proof.Machine
end

