-- ==== Sys2Proof/Laws/Receive.lean ====
section
/-! SUPPORT. Reception of a sequenced frame: a frame that arrives in order for this device acts on `arrived`, which differs from the
state before in the ports and the telemetry only. -/

namespace Sys2Proof.Machine

theorem State.onPort_rest (s : State) (p : PortIx) (f : Port → Port) : s.onPort p f = { s with rov := (s.onPort p f).rov } := rfl

/-- A state with its ports taken out. -/
def State.noRov (s : State) : State := { s with rov := RovBlk.reset }

theorem State.rov_rest {s t : State} (h : t.noRov = s.noRov) : t = { s with rov := t.rov } :=
  congrArg (fun x : State => { x with rov := t.rov }) h

theorem foldl_noRov {α : Type} (f : State → α → State) (h : ∀ s x, (f s x).noRov = s.noRov) (l : List α) (s : State) :
    (l.foldl f s).noRov = s.noRov := by
  induction l generalizing s with
  | nil => rfl
  | cons x xs ih => rw [List.foldl_cons, ih, h]

theorem giveBack_noRov (p : PortIx) (v n : Nat) (s : State) : (giveBack p v n s).noRov = s.noRov := (rfl)

theorem Queued.done_noRov (x : Queued) (s : State) : (x.done s).noRov = s.noRov := by
  unfold Queued.done; cases x.via <;> rfl

theorem dropFrames_noRov (d : Frame → Bool) (s : State) : (dropFrames d s).noRov = s.noRov := by
  unfold dropFrames
  exact (foldl_noRov _ (fun t r => giveBack_noRov _ _ _ t) _ _).trans (foldl_noRov _ (fun t x => x.done_noRov t) _ _)

theorem dropRevoked_rest (b e : Nat) (s : State) : dropRevoked b e s = { s with rov := (dropRevoked b e s).rov } :=
  State.rov_rest (dropFrames_noRov _ s)

theorem arrived_rest (r : Rx) (s : State) : arrived r s = { s with rov := (arrived r s).rov, tel := (arrived r s).tel } := by
  have h : (arrived r s).noRov = (taken r s).noRov := by
    unfold arrived
    rw [giveBack_noRov]
    split
    · exact dropFrames_noRov _ _
    · rfl
  have e := State.rov_rest h
  have et : (arrived r s).tel = (taken r s).tel := (congrArg State.tel e).trans rfl
  rw [et]
  exact e

@[simp] theorem arrived_pending (r : Rx) (s : State) : (arrived r s).pending = s.pending := by rw [arrived_rest]
@[simp] theorem arrived_flash (r : Rx) (s : State) : (arrived r s).flash = s.flash := by rw [arrived_rest]
@[simp] theorem arrived_mems (r : Rx) (s : State) : (arrived r s).mems = s.mems := by rw [arrived_rest]; rfl
@[simp] theorem arrived_warp (r : Rx) (s : State) : (arrived r s).warp = s.warp := by rw [arrived_rest]
@[simp] theorem arrived_stp (r : Rx) (s : State) : (arrived r s).stp = s.stp := by rw [arrived_rest]
@[simp] theorem arrived_job (r : Rx) (s : State) : (arrived r s).job = s.job := by rw [arrived_rest]
@[simp] theorem arrived_reel (r : Rx) (s : State) : (arrived r s).reel = s.reel := by rw [arrived_rest]
@[simp] theorem arrived_num (r : Rx) (s : State) : (arrived r s).num = s.num := by rw [arrived_rest]

/-- What a frame's fate depends on: the step and the blocks of key and value data. -/
theorem fate_congr {s t : State} (f : Frame) (h1 : t.stp = s.stp) (h2 : t.reel = s.reel) : fate t f = fate s f := by
  cases s; cases t; cases h1; cases h2; rfl

/-- A frame that acts on this device once it is accepted. -/
theorem accepted_delivered (k : Rx → State → State) (r : Rx) (s : State) (hm : malformed s r = false)
    (hh : r.frame.hops.toNat ≠ deviceCount s) (hd : r.frame.dest.toNat = rankOf s) (hb : r.frame.dest ≠ 0xFFFF)
    (hf : fate s r.frame = .deliver) (hp : r.parity = none) :
    accepted k r s = k r (giveBack r.port r.frame.vc.toNat r.blocks
      (if r.frame.marker == 4 then dropRevoked r.frame.batch.toNat r.frame.exec.toNat s else s)) := by
  have e : ∀ t : State, fate t r.frame = .deliver → endpoint true k r t = k r (giveBack r.port r.frame.vc.toNat r.blocks t) := by
    intro t h; simp only [endpoint, h, hp]
  have e1 : (r.frame.hops.toNat == deviceCount s) = false := by simpa using hh
  have e2 : (r.frame.dest == 0xFFFF) = false := by simpa using hb
  have e3 : (r.frame.dest.toNat == rankOf s) = true := by simpa using hd
  unfold accepted
  simp only [hm, e1, e2, e3, Bool.or_self, Bool.false_eq_true, if_false, if_true]
  refine e _ ?_
  rw [← hf]
  split
  · rw [dropRevoked_rest]; exact fate_congr _ rfl rfl
  · rfl

theorem receive_arrives (k : Rx → State → State) (r : Rx) (s : State) (h : Arrives r s) : receive k r s = k r (arrived r s) := by
  obtain ⟨hj, hc, hq, hm, hh, hd, hb, hf, hp⟩ := h
  unfold receive
  simp only [hj, hc, hq, beq_self_eq_true, Bool.not_true, Bool.false_eq_true, if_false, if_true]
  exact accepted_delivered k r (taken r s) hm hh hd hb hf hp

end Sys2Proof.Machine
end

