-- ==== Sys2Proof/Laws/Send.lean ====
section
/-! SUPPORT. Sending a frame changes the ports and the telemetry only. -/

namespace Sys2Proof.Machine

/-- What a state holds outside the ports and the telemetry, as the state itself with those two taken out. -/
def State.quiet (s : State) : State := { s with rov := RovBlk.reset, tel := TelBlk.reset }

theorem State.rest_of {s t : State} (h : t.quiet = s.quiet) : t = { s with rov := t.rov, tel := t.tel } :=
  congrArg (fun x : State => { x with rov := t.rov, tel := t.tel }) h

@[simp] theorem State.onTel_quiet (s : State) (f : TelBlk → TelBlk) : (s.onTel f).quiet = s.quiet := (rfl)
@[simp] theorem State.onRov_quiet (s : State) (f : RovBlk → RovBlk) : (s.onRov f).quiet = s.quiet := (rfl)
@[simp] theorem State.onPort_quiet (s : State) (p : PortIx) (f : Port → Port) : (s.onPort p f).quiet = s.quiet := (rfl)
@[simp] theorem raise_quiet (c : Half) (p : List Nat) (s : State) : (raise c p s).quiet = s.quiet := (rfl)
@[simp] theorem raiseIf_quiet (b : Bool) (c : Half) (p : List Nat) (s : State) : (raiseIf b c p s).quiet = s.quiet := by
  cases b <;> rfl
@[simp] theorem count_quiet (b k n : Nat) (s : State) : (count b k n s).quiet = s.quiet := (rfl)
@[simp] theorem countEvt_quiet (k : Nat) (s : State) : (countEvt k s).quiet = s.quiet := (rfl)
@[simp] theorem countErr_quiet (k : Nat) (s : State) : (countErr k s).quiet = s.quiet := (rfl)
@[simp] theorem signal_quiet (v : Nat) (s : State) : (signal v s).quiet = s.quiet := (rfl)
@[simp] theorem putWire_quiet (p : PortIx) (f : Frame) (s : State) : (putWire p f s).quiet = s.quiet := (rfl)
@[simp] theorem giveBack_quiet (p : PortIx) (v n : Nat) (s : State) : (giveBack p v n s).quiet = s.quiet := (rfl)

@[simp] theorem foldl_quiet {α : Type} (f : State → α → State) (h : ∀ s x, (f s x).quiet = s.quiet) (l : List α) (s : State) :
    (l.foldl f s).quiet = s.quiet := by
  induction l generalizing s with
  | nil => rfl
  | cons x xs ih => rw [List.foldl_cons, ih, h]

@[simp] theorem putWires_quiet (p : PortIx) (l : List Frame) (s : State) : (putWires p l s).quiet = s.quiet := by
  induction l generalizing s with
  | nil => rfl
  | cons f fs ih => simp [putWires, ih]

@[simp] theorem Queued.done_quiet (x : Queued) (s : State) : (x.done s).quiet = s.quiet := by
  unfold Queued.done; cases x.via <;> rfl

@[simp] theorem pumpN_quiet (p : PortIx) (n : Nat) (s : State) : (pumpN p n s).quiet = s.quiet := by
  induction n generalizing s with
  | zero => rfl
  | succ n ih => unfold pumpN; (repeat' split) <;> simp [ih]

@[simp] theorem pump_quiet (p : PortIx) (s : State) : (pump p s).quiet = s.quiet := by simp [pump]
@[simp] theorem queueVia_quiet (v : Option PortIx) (p : PortIx) (f : Frame) (s : State) : (queueVia v p f s).quiet = s.quiet := by
  simp [queueVia]
@[simp] theorem queueFrame_quiet (p : PortIx) (f : Frame) (s : State) : (queueFrame p f s).quiet = s.quiet := by simp [queueFrame]
@[simp] theorem sendOn_quiet (p : Option PortIx) (f : Frame) (s : State) : (sendOn p f s).quiet = s.quiet := by
  cases p <;> simp [sendOn]
@[simp] theorem sendUnicast_quiet (f : Frame) (s : State) : (sendUnicast f s).quiet = s.quiet := by simp [sendUnicast]

@[simp] theorem spread_quiet (a b n o c : Nat) (only : Option Bool) (f : Frame) (s : State) :
    (spread a b n o c only f s).quiet = s.quiet := by
  unfold spread; dsimp only; (repeat' split) <;> simp

@[simp] theorem passBroadcast_quiet (arrival : Option Nat) (f : Frame) (s : State) : (passBroadcast arrival f s).quiet = s.quiet := by
  unfold passBroadcast; dsimp only; (repeat' split) <;> simp

@[simp] theorem broadcast_quiet (f : Frame) (s : State) : (broadcast f s).quiet = s.quiet := by simp [broadcast]
@[simp] theorem sendLinkCtrl_quiet (p : PortIx) (nak : Bool) (s : State) : (sendLinkCtrl p nak s).quiet = s.quiet := (rfl)
@[simp] theorem sendHello_quiet (p : PortIx) (s : State) : (sendHello p s).quiet = s.quiet := (rfl)
@[simp] theorem dropRevoked_quiet (b e : Nat) (s : State) : (dropRevoked b e s).quiet = s.quiet := by rw [dropRevoked_rest]; rfl
@[simp] theorem arrived_quiet (r : Rx) (s : State) : (arrived r s).quiet = s.quiet := by rw [arrived_rest]; rfl
@[simp] theorem retrainPort_quiet (p : PortIx) (c : Nat) (s : State) : (retrainPort p c s).quiet = s.quiet := by
  unfold retrainPort; split <;> simp; split <;> simp
@[simp] theorem retryLimit_quiet (p : PortIx) (c : RetrainCause) (s : State) : (retryLimit p c s).quiet = s.quiet := by simp [retryLimit]
@[simp] theorem resendAll_quiet (p : PortIx) (s : State) : (resendAll p s).quiet = s.quiet := by
  unfold resendAll; dsimp only; (repeat' split) <;> simp
@[simp] theorem nakNow_quiet (p : PortIx) (s : State) : (nakNow p s).quiet = s.quiet := by simp [nakNow]
@[simp] theorem sendNak_quiet (p : PortIx) (s : State) : (sendNak p s).quiet = s.quiet := by unfold sendNak; split <;> simp
@[simp] theorem joinPort_quiet (p : PortIx) (h : HelloInfo) (s : State) : (joinPort p h s).quiet = s.quiet := by
  unfold joinPort; dsimp only; split <;> simp
@[simp] theorem takeHello_quiet (p : PortIx) (h : HelloInfo) (s : State) : (takeHello p h s).quiet = s.quiet := by
  unfold takeHello; dsimp only; (repeat' split) <;> simp
@[simp] theorem helloAgain_quiet (s : State) (p : PortIx) : (helloAgain s p).quiet = s.quiet := by
  unfold helloAgain; dsimp only; (repeat' split) <;> simp
@[simp] theorem helloAll_quiet (s : State) : (helloAll s).quiet = s.quiet := foldl_quiet _ helloAgain_quiet _ s
@[simp] theorem portUp_quiet (p : PortIx) (s : State) : (portUp p s).quiet = s.quiet := by simp [portUp]

end Sys2Proof.Machine
end

