-- ==== Sys2Proof/Laws/Messages.lean ====
section
/-! SUPPORT. A reel message that arrives and passes the checks of R253: which handler it meets, and what comes after it. -/

namespace Sys2Proof.Machine

@[simp] theorem rankOf_arrived (rx : Rx) (s : State) : rankOf (arrived rx s) = rankOf s := by unfold rankOf; simp
@[simp] theorem hankPlan_arrived (rx : Rx) (s : State) : hankPlan (arrived rx s) = hankPlan s := by unfold hankPlan; simp
@[simp] theorem findHank_arrived (rx : Rx) (s : State) (g : Nat) : findHank (arrived rx s) g = findHank s g := by unfold findHank; simp
@[simp] theorem ownerOf_arrived (rx : Rx) (s : State) (g : Nat) : ownerOf (arrived rx s) g = ownerOf s g := by unfold ownerOf; simp
@[simp] theorem hank_arrived (rx : Rx) (s : State) (g : Nat) : (arrived rx s).hank g = s.hank g := by unfold State.hank; simp
@[simp] theorem param_arrived (rx : Rx) (s : State) (g : Nat) : (arrived rx s).param g = s.param g := by unfold State.param; simp
@[simp] theorem lowRank_arrived (rx : Rx) (s : State) (l : Nat) : (arrived rx s).lowRank l = s.lowRank l := by unfold State.lowRank; simp
@[simp] theorem decidedBatch_arrived (rx : Rx) (s : State) : decidedBatch (arrived rx s) = decidedBatch s := by
  unfold decidedBatch; rw [arrived_stp]
@[simp] theorem reelValid_arrived (rx : Rx) (s : State) (ws : List Word) : reelValid (arrived rx s) ws = reelValid s ws := by
  unfold reelValid; simp only [findHank_arrived, decidedBatch_arrived, arrived_stp]

/-- The work of a valid message on the device, by its type. -/
def reelWork (r : Rx) (s : State) : State :=
  match (readRHdr r.frame.payload).type with
  | 1 => onSegment r s
  | 2 => onRescale r s
  | 3 => onProposal r s
  | 4 => onAgreed r s
  | 5 => onFactor r s
  | 6 => onParamSegment r s
  | 7 => onParamEnd r s
  | 8 => onParamResend r s
  | 9 => onLeaf r s
  | _ => onLeafQuery r s

theorem reelRow_valid (ok : Bool) (rx : Rx) (s : State) (ha : Arrives rx s) (hok : ok = true) (ht : rx.frame.ftype = ftReel)
    (hv : reelValid s rx.frame.payload = true) :
    reelRow ok rx s = .next (noteP (noteEnds (sendNewFactors (arrived rx s) (reelWork rx (arrived rx s))))) := by
  subst hok
  unfold reelRow checked
  rw [if_pos rfl, receive_arrives _ _ _ ha]
  unfold onReelFrame
  have h1 : (rx.frame.ftype == ftKv) = false := by rw [ht]; rfl
  have h2 : reelValid (arrived rx s) rx.frame.payload = true := by rw [reelValid_arrived]; exact hv
  simp only [h1, h2, Bool.not_true, Bool.false_eq_true, if_false]
  rfl

theorem reelRow_invalid (ok : Bool) (rx : Rx) (s : State) (ha : Arrives rx s) (hok : ok = true) (ht : rx.frame.ftype = ftReel)
    (hv : reelValid s rx.frame.payload = false) : reelRow ok rx s = .next (reelInvalid rx (arrived rx s)) := by
  subst hok
  unfold reelRow checked
  rw [if_pos rfl, receive_arrives _ _ _ ha]
  unfold onReelFrame
  have h1 : (rx.frame.ftype == ftKv) = false := by rw [ht]; rfl
  have h2 : reelValid (arrived rx s) rx.frame.payload = false := by rw [reelValid_arrived]; exact hv
  simp only [h1, h2, Bool.not_false, Bool.false_eq_true, if_false, if_true]

end Sys2Proof.Machine
end

