-- ==== Sys2Proof/Laws/PerInstr.lean ====
section
/-! SUPPORT. What holds of every command as syntax, one lemma per row: a well-formed frame row carries as many payload words as its
header says (R325). -/

namespace Sys2Proof.Laws.Shape

open Sys2Proof Sys2Proof.Machine Sys2Proof.WellFormed

/-- The payload of the command's frame, where it carries one, has LENGTH words. -/
def Statement (i : Instr) : Prop :=
  ∀ r, Instr.rx? i = some r → Instr.wf i = true → r.frame.payload.length = r.frame.len.toNat

theorem of_shaped {i : Instr} {r : Rx} (hi : Instr.rx? i = some r) (hs : Instr.wf i = true → rxShaped r = true) : Statement i := by
  intro r' h w
  obtain rfl : r = r' := Option.some.inj (hi.symm.trans h)
  simpa [rxShaped] using hs w

theorem of_none {i : Instr} (hi : Instr.rx? i = none) : Statement i := by
  intro r h _
  rw [hi] at h
  cases h

theorem frameOf_shaped {t : BitVec 8} {r : Rx} (h : frameOf t r = true) : rxShaped r = true := by
  simp only [frameOf, Bool.and_eq_true] at h
  exact h.1

theorem registerWrite (off : BitVec 28) (val : Word) : Statement (.registerWrite off val) := of_none rfl
theorem badAccess (isWrite : Bool) (off : BitVec 28) (size : Nat) : Statement (.badAccess isWrite off size) := of_none rfl
theorem snap (reg : SnapReg) (val : Word) : Statement (.snap reg val) := of_none rfl
theorem load (cont : Bool) : Statement (.load cont) := of_none rfl
theorem unload (cont : Bool) : Statement (.unload cont) := of_none rfl
theorem verify : Statement .verify := of_none rfl
theorem validate : Statement .validate := of_none rfl
theorem feasibility : Statement .feasibility := of_none rfl
theorem distribute : Statement .distribute := of_none rfl
theorem loaderTimeout : Statement .loaderTimeout := of_none rfl
theorem accClear (acc : AccRef) : Statement (.accClear acc) := of_none rfl
theorem windowPageWrite (core : CoreIx) (val : Word) : Statement (.windowPageWrite core val) := of_none rfl
theorem spoolWindowAccess (core : CoreIx) (word : Fin 8192) (access : Access) : Statement (.spoolWindowAccess core word access) := of_none rfl
theorem firstInvalidClear (core : CoreIx) : Statement (.firstInvalidClear core) := of_none rfl
theorem firstFIssue : Statement .firstFIssue := of_none rfl
theorem frameReserve (stage : Nat) (microBatch : Nat) : Statement (.frameReserve stage microBatch) := of_none rfl
theorem tileIssue (cluster : ClusterIx) (ready : List Work) (err : Option UnitError) : Statement (.tileIssue cluster ready err) := of_none rfl
theorem agedTilePriority (cluster : ClusterIx) (layer : Nat) (tileRow : Nat) (tileCol : Nat) (microBatch : Nat) (phase : Phase) : Statement (.agedTilePriority cluster layer tileRow tileCol microBatch phase) := of_none rfl
theorem slubPass (acc : AccRef) (err : Option UnitError) : Statement (.slubPass acc err) := of_none rfl
theorem tileDrain (d : DrainSpec) : Statement (.tileDrain d) := of_none rfl
theorem whorlOp (w : WhorlWork) : Statement (.whorlOp w) := of_none rfl
theorem bobbinPop (stage : Nat) (microBatch : Nat) (layer : Nat) (dst : Loc) (damage : List Word) (err : Option UnitError) : Statement (.bobbinPop stage microBatch layer dst damage err) := of_none rfl
theorem schedulerWaitTimeout (cluster : ClusterIx) (unissued : List Work) : Statement (.schedulerWaitTimeout cluster unissued) := of_none rfl
theorem updateShard (tag : BitVec 20) (err : Option UnitError) : Statement (.updateShard tag err) := of_none rfl
theorem updateSegmentCheck (tag : BitVec 20) (segment : Nat) (faulty : Option (List Word)) : Statement (.updateSegmentCheck tag segment faulty) := of_none rfl
theorem sendVerdictSet : Statement .sendVerdictSet := of_none rfl
theorem admitRequest (rx : Rx) : Statement (.admitRequest rx) := of_shaped rfl frameOf_shaped
theorem admitReply (rx : Rx) : Statement (.admitReply rx) := of_shaped rfl frameOf_shaped
theorem admitRetry : Statement .admitRetry := of_none rfl
theorem nonfiniteNotice (rx : Rx) : Statement (.nonfiniteNotice rx) := of_shaped rfl frameOf_shaped
theorem verdict (rx : Rx) : Statement (.verdict rx) := of_shaped rfl (fun h => by simp only [Instr.wf, verdictFrame, Bool.and_eq_true] at h; exact h.1)
theorem layerCounts (rx : Rx) : Statement (.layerCounts rx) := of_shaped rfl frameOf_shaped
theorem shardRatios (rx : Rx) : Statement (.shardRatios rx) := of_shaped rfl frameOf_shaped
theorem skipNotice (rx : Rx) : Statement (.skipNotice rx) := of_shaped rfl frameOf_shaped
theorem commit (rx : Rx) : Statement (.commit rx) := of_shaped rfl (fun h => by simp only [Instr.wf, commitFrame, Bool.and_eq_true] at h; exact frameOf_shaped h.1)
theorem skip (rx : Rx) : Statement (.skip rx) := of_shaped rfl (fun h => by simp only [Instr.wf, decisionOf, Bool.and_eq_true] at h; exact frameOf_shaped h.1)
theorem replay (rx : Rx) : Statement (.replay rx) := of_shaped rfl (fun h => by simp only [Instr.wf, decisionOf, Bool.and_eq_true] at h; exact frameOf_shaped h.1)
theorem halt (rx : Rx) : Statement (.halt rx) := of_shaped rfl (fun h => by simp only [Instr.wf, decisionOf, Bool.and_eq_true] at h; exact frameOf_shaped h.1)
theorem start (rx : Rx) : Statement (.start rx) := of_shaped rfl (fun h => by simp only [Instr.wf, decisionOf, Bool.and_eq_true] at h; exact frameOf_shaped h.1)
theorem decisionQuery (rx : Rx) : Statement (.decisionQuery rx) := of_shaped rfl frameOf_shaped
theorem decisionQueryTimer : Statement .decisionQueryTimer := of_none rfl
theorem decisionTimeout : Statement .decisionTimeout := of_none rfl
theorem verdictTimeout : Statement .verdictTimeout := of_none rfl
theorem hankSegment (rx : Rx) : Statement (.hankSegment rx) := of_shaped rfl (fun h => by simp only [Instr.wf, segmentFrame, Bool.and_eq_true] at h; exact frameOf_shaped h.1)
theorem rescale (rx : Rx) : Statement (.rescale rx) := of_shaped rfl (fun h => by simp only [Instr.wf, reelOf, Bool.and_eq_true] at h; exact frameOf_shaped h.1)
theorem scaleProposal (rx : Rx) : Statement (.scaleProposal rx) := of_shaped rfl (fun h => by simp only [Instr.wf, reelOf, Bool.and_eq_true] at h; exact frameOf_shaped h.1)
theorem scaleAgreed (rx : Rx) : Statement (.scaleAgreed rx) := of_shaped rfl (fun h => by simp only [Instr.wf, reelOf, Bool.and_eq_true] at h; exact frameOf_shaped h.1)
theorem factorResult (rx : Rx) : Statement (.factorResult rx) := of_shaped rfl (fun h => by simp only [Instr.wf, reelOf, Bool.and_eq_true] at h; exact frameOf_shaped h.1)
theorem paramSegment (rx : Rx) : Statement (.paramSegment rx) := of_shaped rfl (fun h => by simp only [Instr.wf, reelOf, Bool.and_eq_true] at h; exact frameOf_shaped h.1)
theorem paramEnd (rx : Rx) : Statement (.paramEnd rx) := of_shaped rfl (fun h => by simp only [Instr.wf, reelOf, Bool.and_eq_true] at h; exact frameOf_shaped h.1)
theorem paramResend (rx : Rx) : Statement (.paramResend rx) := of_shaped rfl (fun h => by simp only [Instr.wf, reelOf, Bool.and_eq_true] at h; exact frameOf_shaped h.1)
theorem plyLeaf (rx : Rx) : Statement (.plyLeaf rx) := of_shaped rfl (fun h => by simp only [Instr.wf, reelOf, Bool.and_eq_true] at h; exact frameOf_shaped h.1)
theorem plyLeafQuery (rx : Rx) : Statement (.plyLeafQuery rx) := of_shaped rfl (fun h => by simp only [Instr.wf, reelOf, Bool.and_eq_true] at h; exact frameOf_shaped h.1)
theorem plyLeafMissing (tag : BitVec 20) (step : BitVec 48) : Statement (.plyLeafMissing tag step) := of_none rfl
theorem scaleAgreementTimeout (tag : BitVec 20) : Statement (.scaleAgreementTimeout tag) := of_none rfl
theorem hankTimeout (tag : BitVec 20) (rank : BitVec 16) : Statement (.hankTimeout tag rank) := of_none rfl
theorem paramEndTimeout (tag : BitVec 20) : Statement (.paramEndTimeout tag) := of_none rfl
theorem kvBlock (rx : Rx) : Statement (.kvBlock rx) := of_shaped rfl frameOf_shaped
theorem kvBlockTimeout (layer : Nat) (shard : Nat) (block : Nat) : Statement (.kvBlockTimeout layer shard block) := of_none rfl
theorem initialisation (err : Option UnitError) : Statement (.initialisation err) := of_none rfl
theorem nepTestRun (val : Word) : Statement (.nepTestRun val) := of_none rfl
theorem nepTestDone : Statement .nepTestDone := of_none rfl
theorem skeinRequest (cls : ClassIx) (byLoader : Bool) (addr : BitVec 40) (op : SkeinOp) (ecc : List Ecc) (parity : Option (Fin 8)) : Statement (.skeinRequest cls byLoader addr op ecc parity) := of_none rfl
theorem cxlMemRead (addr : BitVec 64) (len : Nat) (ecc : List Ecc) (parity : Option (Fin 8)) : Statement (.cxlMemRead addr len ecc parity) := of_none rfl
theorem cxlMemWrite (addr : BitVec 64) (data : List Byte) (parity : Option (Fin 8)) : Statement (.cxlMemWrite addr data parity) := of_none rfl
theorem refresh (stack : StackIx) (chan : ChanIx) (bank : Fin 48) : Statement (.refresh stack chan bank) := of_none rfl
theorem scrub (stack : StackIx) (off : BitVec 37) (kind : ScrubKind) : Statement (.scrub stack off kind) := of_none rfl
theorem windowRefill (stack : StackIx) (chan : ChanIx) (beats : Nat) : Statement (.windowRefill stack chan beats) := of_none rfl
theorem arbitration (stack : StackIx) (chan : ChanIx) (requests : BitVec 5) (beats : Nat) (wait : Nat) : Statement (.arbitration stack chan requests beats wait) := of_none rfl
theorem burstLimit (stack : StackIx) (chan : ChanIx) (requests : BitVec 5) (beats : Nat) (wait : Nat) : Statement (.burstLimit stack chan requests beats wait) := of_none rfl
theorem backoffEnd (stack : StackIx) (chan : ChanIx) (cls : ClassIx) : Statement (.backoffEnd stack chan cls) := of_none rfl
theorem shuttleStarved (stack : StackIx) (chan : ChanIx) (cls : ClassIx) (wait : Nat) : Statement (.shuttleStarved stack chan cls wait) := of_none rfl
theorem clearWaitMax (stack : StackIx) (val : Word) : Statement (.clearWaitMax stack val) := of_none rfl
theorem physicalTrainingDone (port : PortIx) (lanes : BitVec 8) (rtt : Word) : Statement (.physicalTrainingDone port lanes rtt) := of_none rfl
theorem trainingAttemptTimeout (port : PortIx) : Statement (.trainingAttemptTimeout port) := of_none rfl
theorem hello (rx : Rx) : Statement (.hello rx) := of_shaped rfl frameOf_shaped
theorem helloTimeout (port : PortIx) : Statement (.helloTimeout port) := of_none rfl
theorem lossOfLock (port : PortIx) (lanes : BitVec 8) : Statement (.lossOfLock port lanes) := of_none rfl
theorem portDown (port : PortIx) : Statement (.portDown port) := of_none rfl
theorem align (port : PortIx) (count : Word) : Statement (.align port count) := of_none rfl
theorem idle (port : PortIx) : Statement (.idle port) := of_none rfl
theorem idleSend (port : PortIx) : Statement (.idleSend port) := of_none rfl
theorem alignSend (port : PortIx) : Statement (.alignSend port) := of_none rfl
theorem uncorrectableCodeword (port : PortIx) (discarded : Nat) : Statement (.uncorrectableCodeword port discarded) := of_none rfl
theorem linkCtrl (rx : Rx) : Statement (.linkCtrl rx) := of_shaped rfl frameOf_shaped
theorem linkCtrlSend (port : PortIx) : Statement (.linkCtrlSend port) := of_none rfl
theorem ackTimeout (port : PortIx) : Statement (.ackTimeout port) := of_none rfl
theorem vc0CreditTimeout (port : PortIx) : Statement (.vc0CreditTimeout port) := of_none rfl
theorem notReady (rx : Rx) : Statement (.notReady rx) := of_shaped rfl frameOf_shaped
theorem notReadyBackoff (port : PortIx) : Statement (.notReadyBackoff port) := of_none rfl
theorem portDisable (mask : BitVec 9) : Statement (.portDisable mask) := of_none rfl
theorem retrain (port : PortIx) (val : Word) : Statement (.retrain port val) := of_none rfl
theorem hostAttachReset (kind : AttachKind) : Statement (.hostAttachReset kind) := of_none rfl
theorem hostLinkRetrain : Statement .hostLinkRetrain := of_none rfl
theorem hostLinkDown : Statement .hostLinkDown := of_none rfl
theorem doorbell (q : QueueIx) (val : Word) : Statement (.doorbell q val) := of_none rfl
theorem descriptorConsume (q : QueueIx) (words : List Word) : Statement (.descriptorConsume q words) := of_none rfl
theorem complHeadWrite (q : QueueIx) (val : Word) : Statement (.complHeadWrite q val) := of_none rfl
theorem queueEnable (q : QueueIx) (val : Word) : Statement (.queueEnable q val) := of_none rfl
theorem queueDisable (q : QueueIx) (val : Word) : Statement (.queueDisable q val) := of_none rfl
theorem eventRingEnable (val : Word) : Statement (.eventRingEnable val) := of_none rfl
theorem eventHeadWrite (val : Word) : Statement (.eventHeadWrite val) := of_none rfl
theorem step (seqTable : List Word) (tokens : List Word) (poisonAt : Option Nat) : Statement (.step seqTable tokens poisonAt) := of_none rfl
theorem infer (seqTable : List Word) (tokens : List Word) (reqTable : List Word) (poisonAt : Option Nat) (err : Option UnitError) : Statement (.infer seqTable tokens reqTable poisonAt err) := of_none rfl
theorem seed : Statement .seed := of_none rfl
theorem ckptSave (err : Option UnitError) : Statement (.ckptSave err) := of_none rfl
theorem ckptRestore (buffer : List Byte) (poisoned : Bool) : Statement (.ckptRestore buffer poisoned) := of_none rfl
theorem copyIn (data : List Byte) (poisoned : Bool) (err : Option UnitError) : Statement (.copyIn data poisoned err) := of_none rfl
theorem copyOut (bytes : Nat) (err : Option UnitError) : Statement (.copyOut bytes err) := of_none rfl
theorem descriptorReadTimeout (q : QueueIx) : Statement (.descriptorReadTimeout q) := of_none rfl
theorem dataReadTimeout (q : QueueIx) (seqTable : List Word) (tokens : List Word) (reqTable : List Word) (word : Nat) : Statement (.dataReadTimeout q seqTable tokens reqTable word) := of_none rfl
theorem hostWriteTimeout (ring : HostRing) : Statement (.hostWriteTimeout ring) := of_none rfl
theorem completionBlocked (q : QueueIx) : Statement (.completionBlocked q) := of_none rfl
theorem cardingStart (val : Word) : Statement (.cardingStart val) := of_none rfl
theorem cardingResult (unit : CardUnit) (part : CardPart) : Statement (.cardingResult unit part) := of_none rfl
theorem cardingTimeout (unit : CardUnit) : Statement (.cardingTimeout unit) := of_none rfl
theorem inputLow : Statement .inputLow := of_none rfl
theorem inputRecovered : Statement .inputRecovered := of_none rfl
theorem inputLoss : Statement .inputLoss := of_none rfl
theorem overvoltage : Statement .overvoltage := of_none rfl
theorem stateRequest (who : Requester) (val : Word) : Statement (.stateRequest who val) := of_none rfl
theorem capWrite (val : Word) : Statement (.capWrite val) := of_none rfl
theorem managementCap (watts : BitVec 16) : Statement (.managementCap watts) := of_none rfl
theorem controlInterval (estimate : Nat) (measurement : Nat) (target : Nat) (hot : Sensor) (hotQuarter : Nat) : Statement (.controlInterval estimate measurement target hot hotQuarter) := of_none rfl
theorem powerDisagreement : Statement .powerDisagreement := of_none rfl
theorem estimatorRecalibrated : Statement .estimatorRecalibrated := of_none rfl
theorem powerSensorSuspect : Statement .powerSensorSuspect := of_none rfl
theorem sensorFaultClear : Statement .sensorFaultClear := of_none rfl
theorem capNotHeld : Statement .capNotHeld := of_none rfl
theorem emergencyAsserted (src : EmSource) : Statement (.emergencyAsserted src) := of_none rfl
theorem lastUnitStopped : Statement .lastUnitStopped := of_none rfl
theorem emergencyReleased (src : EmSource) : Statement (.emergencyReleased src) := of_none rfl
theorem emergencyCommand (on : Bool) : Statement (.emergencyCommand on) := of_none rfl
theorem thermalLimit (sensor : Sensor) (quarterDeg : Nat) : Statement (.thermalLimit sensor quarterDeg) := of_none rfl
theorem thermalRelease : Statement .thermalRelease := of_none rfl
theorem thermalTrip (sensor : Sensor) (quarterDeg : Nat) : Statement (.thermalTrip sensor quarterDeg) := of_none rfl
theorem marginEvaluation (slackOk : Bool) (shortfall : Nat) : Statement (.marginEvaluation slackOk shortfall) := of_none rfl
theorem marginRaised (reserve : Nat) : Statement (.marginRaised reserve) := of_none rfl
theorem refclkHoldover : Statement .refclkHoldover := of_none rfl
theorem refclkRelock : Statement .refclkRelock := of_none rfl
theorem refclkLost : Statement .refclkLost := of_none rfl
theorem refclkRestored : Statement .refclkRestored := of_none rfl
theorem moduleReset : Statement .moduleReset := of_none rfl
theorem watchdogExpiry : Statement .watchdogExpiry := of_none rfl
theorem bringupStart (straps : List (Fin 4)) (slot : BitVec 5) : Statement (.bringupStart straps slot) := of_none rfl
theorem bootStageVerified (stage : BootStage) (stack : StackIx) (pufOk : Bool) : Statement (.bootStageVerified stage stack pufOk) := of_none rfl
theorem attestationReady (edOk : Bool) (mlOk : Bool) : Statement (.attestationReady edOk mlOk) := of_none rfl
theorem railFault : Statement .railFault := of_none rfl
theorem bootStageTimeout : Statement .bootStageTimeout := of_none rfl
theorem skeinTrained : Statement .skeinTrained := of_none rfl
theorem skeinTrainingFailed (stack : StackIx) (channels : BitVec 32) : Statement (.skeinTrainingFailed stack channels) := of_none rfl
theorem hostLinkUp (hdmBase : BitVec 64) : Statement (.hostLinkUp hdmBase) := of_none rfl
theorem hostLinkNotTrained : Statement .hostLinkNotTrained := of_none rfl
theorem bringupComplete (failed : List CardUnit) (edOk : Bool) (mlOk : Bool) : Statement (.bringupComplete failed edOk mlOk) := of_none rfl
theorem selfTestTimeout (untested : List CardUnit) : Statement (.selfTestTimeout untested) := of_none rfl
theorem spiExternalEnable : Statement .spiExternalEnable := of_none rfl
theorem firmwareUpdate (image : List Byte) (via : Carrier) : Statement (.firmwareUpdate image via) := of_none rfl
theorem revocationList (list : Signed) (sequence : BitVec 32) (names : List (BitVec 32)) (via : Carrier) : Statement (.revocationList list sequence names via) := of_none rfl
theorem ownershipVoucher (v : Signed) (serial : BitVec 64) (sequence : BitVec 32) (edPub : List Byte) (mlPub : List Byte) : Statement (.ownershipVoucher v serial sequence edPub mlPub) := of_none rfl
theorem enrolWarpKey (env : OwnerEnv) (keyId : BitVec 32) (edPub : List Byte) (mlPub : List Byte) : Statement (.enrolWarpKey env keyId edPub mlPub) := of_none rfl
theorem revokeWarpKey (env : OwnerEnv) (keyId : BitVec 32) : Statement (.revokeWarpKey env keyId) := of_none rfl
theorem enrolSealingKey (env : OwnerEnv) (keyId : BitVec 32) (key : BitVec 256) : Statement (.enrolSealingKey env keyId key) := of_none rfl
theorem revokeSealingKey (env : OwnerEnv) (keyId : BitVec 32) : Statement (.revokeSealingKey env keyId) := of_none rfl
theorem raiseWarpFloor (env : OwnerEnv) (floor : BitVec 32) : Statement (.raiseWarpFloor env floor) := of_none rfl
theorem applyServiceAuth (env : OwnerEnv) (auth : Signed) (serial : BitVec 64) (generation : BitVec 32) (cores : List CoreIx) : Statement (.applyServiceAuth env auth serial generation cores) := of_none rfl
theorem getVersion : Statement .getVersion := of_none rfl
theorem getCapabilities : Statement .getCapabilities := of_none rfl
theorem negotiateAlgorithms : Statement .negotiateAlgorithms := of_none rfl
theorem getDigests : Statement .getDigests := of_none rfl
theorem getCertificate (slot : Nat) (offset : Nat) (length : Nat) : Statement (.getCertificate slot offset length) := of_none rfl
theorem challenge (slot : Nat) (nonce : List Byte) : Statement (.challenge slot nonce) := of_none rfl
theorem getMeasurements (index : Nat) (nonce : List Byte) : Statement (.getMeasurements index nonce) := of_none rfl
theorem keyExchange (exchange : List Byte) : Statement (.keyExchange exchange) := of_none rfl
theorem finish (verifyOk : Bool) : Statement (.finish verifyOk) := of_none rfl
theorem heartbeat : Statement .heartbeat := of_none rfl
theorem endSession : Statement .endSession := of_none rfl
theorem sessionTimeout : Statement .sessionTimeout := of_none rfl
theorem getReport (nonce : List Byte) : Statement (.getReport nonce) := of_none rfl
theorem getPqCert (offset : Nat) (length : Nat) : Statement (.getPqCert offset length) := of_none rfl
theorem getQuarantineMap : Statement .getQuarantineMap := of_none rfl
theorem reportRequest (val : Word) : Statement (.reportRequest val) := of_none rfl
theorem setdasa (addr : BitVec 7) : Statement (.setdasa addr) := of_none rfl
theorem i3cTransferTimeout : Statement .i3cTransferTimeout := of_none rfl
theorem idcode : Statement .idcode := of_none rfl
theorem bypass (code : Nat) : Statement (.bypass code) := of_none rfl
theorem samplePreload (pins : List Bool) (preload : Option (List Bool)) : Statement (.samplePreload pins preload) := of_none rfl
theorem extest : Statement .extest := of_none rfl
theorem clamp : Statement .clamp := of_none rfl
theorem highz : Statement .highz := of_none rfl
theorem extestPulse : Statement .extestPulse := of_none rfl
theorem extestTrain : Statement .extestTrain := of_none rfl
theorem snoop (addr : BitVec 64) : Statement (.snoop addr) := of_none rfl

end Sys2Proof.Laws.Shape
end

