-- ==== Sys2Proof/Laws/Ports.lean ====
section
/-! SUPPORT. What the operations of the link layer do to the ports: to the one they name, and to every other. -/

namespace Sys2Proof.Machine

@[simp] theorem port_onPort_same (s : State) (p : PortIx) (f : Port → Port) : (s.onPort p f).port p = f (s.port p) := by
  simp [State.onPort, State.port, State.onRov]

theorem port_onPort_other (s : State) (f : Port → Port) {p q : PortIx} (h : q ≠ p) : (s.onPort p f).port q = s.port q := by
  have : p.val ≠ q.val := fun e => h (Fin.ext e.symm)
  simp [State.onPort, State.port, State.onRov, Vector.getElem_set_ne, this]

@[simp] theorem port_onTel (s : State) (f : TelBlk → TelBlk) (q : PortIx) : (s.onTel f).port q = s.port q := (rfl)
@[simp] theorem port_count (b k n : Nat) (s : State) (q : PortIx) : (count b k n s).port q = s.port q := (rfl)
@[simp] theorem port_countEvt (k : Nat) (s : State) (q : PortIx) : (countEvt k s).port q = s.port q := (rfl)
@[simp] theorem port_countErr (k : Nat) (s : State) (q : PortIx) : (countErr k s).port q = s.port q := (rfl)
@[simp] theorem port_raise (c : Half) (l : List Nat) (s : State) (q : PortIx) : (raise c l s).port q = s.port q := (rfl)
@[simp] theorem port_raiseIf (b : Bool) (c : Half) (l : List Nat) (s : State) (q : PortIx) : (raiseIf b c l s).port q = s.port q := by
  cases b <;> rfl
@[simp] theorem port_onStp (s : State) (f : StpBlk → StpBlk) (q : PortIx) : (s.onStp f).port q = s.port q := (rfl)

@[simp] theorem port_putWire_same (p : PortIx) (f : Frame) (s : State) :
    (putWire p f s).port p = { s.port p with wire := sealFrame f :: (s.port p).wire } := by unfold putWire; simp

theorem port_putWire_other (f : Frame) (s : State) {p q : PortIx} (h : q ≠ p) : (putWire p f s).port q = s.port q := by
  unfold putWire; rw [port_countEvt, port_onPort_other _ _ h]

@[simp] theorem port_putWires_same (p : PortIx) (l : List Frame) (s : State) :
    (putWires p l s).port p = { s.port p with wire := (l.map sealFrame).reverse ++ (s.port p).wire } := by
  induction l generalizing s with
  | nil => rfl
  | cons a l ih => rw [putWires, ih]; simp

theorem port_putWires_other (l : List Frame) (s : State) {p q : PortIx} (h : q ≠ p) : (putWires p l s).port q = s.port q := by
  induction l generalizing s with
  | nil => rfl
  | cons a l ih => rw [putWires, ih, port_putWire_other _ _ h]

/-- With no frame waiting for a SEQ there is nothing to send. -/
theorem pump_none {p : PortIx} {s : State} (h : (s.port p).waiting = 0) : pump p s = s := by unfold pump; rw [h]; rfl

/-- A JOINED port that retrains keeps its retry buffer and its sequence numbers (R324). -/
theorem port_retrain_joined (p : PortIx) (c : Nat) (s : State) (h : (s.port p).st = .joined) :
    (retrainPort p c s).port p =
      { s.port p with st := .retraining, resume := true, hello := none, alignRx := none, attemptTick := s.clk.refTimer } := by
  simp [retrainPort, h]

theorem port_retrain_up (p : PortIx) (c : Nat) (s : State) (h : (s.port p).st = .up) :
    (retrainPort p c s).port p =
      { s.port p with st := if (s.port p).resume then .retraining else .training, hello := none, alignRx := none
                      attemptTick := s.clk.refTimer } := by
  simp only [retrainPort, h]; split <;> simp_all

theorem port_retrain_other (c : Nat) (s : State) {p q : PortIx} (h : q ≠ p) : (retrainPort p c s).port q = s.port q := by
  unfold retrainPort; split <;> (try split) <;> simp [port_onPort_other _ _ h]

/-- What the port keeps of a HELLO. -/
def heard (p : PortIx) (i : HelloInfo) (s : State) : State := s.onPort p fun q => { q with hello := some i, partnerRank := i.rank }

theorem image_of_helloMatches {s : State} {p : PortIx} {i : HelloInfo} (h : helloMatches s p i = true) : s.warp.image.isNone = false := by
  unfold helloMatches at h
  cases hi : s.warp.image <;> simp [hi] at h ⊢

/-- A HELLO that matches makes an UP port join; a JOINED one stays (R323). -/
theorem takeHello_match {s : State} {p : PortIx} {i : HelloInfo} (h : helloMatches s p i = true) :
    takeHello p i s = if (s.port p).st = .joined then heard p i s else raise 0x4001 [p.val] (joinPort p i (heard p i s)) := by
  unfold takeHello
  rw [image_of_helloMatches h]
  simp [h, heard]

/-- One that does not leaves the port UP, and every other as it is. -/
theorem takeHello_mismatch {s : State} {p : PortIx} {i : HelloInfo} (h : helloMatches s p i = false) :
    (takeHello p i s).port p = { s.port p with hello := some i, partnerRank := i.rank, st := .up } ∧
      ∀ q, q ≠ p → (takeHello p i s).port q = s.port q := by
  unfold takeHello
  rw [h]
  dsimp only
  split
  · exact ⟨by simp, fun q hq => by simp [port_onPort_other _ _ hq]⟩
  · exact ⟨by simp, fun q hq => by simp [port_onPort_other _ _ hq]⟩

/-- The port that joins afresh, with nothing waiting to be sent (R323, log entry 14). -/
theorem joinPort_fresh {s : State} {p : PortIx} {i : HelloInfo} (hr : ((s.port p).resume && i.resume) = false)
    (hw : (s.port p).waiting = 0) :
    joinPort p i s = s.onPort p fun x =>
      { x with st := .joined, resume := false, retry := [], resends := 0, nakSent := false, refused := [], txSeq := 0, rxSeq := 0
               c0 := 2048, c1 := 12288, c2 := 8192, c3 := 10240, r0 := 0, r1 := 0, r2 := 0, r3 := 0 } := by
  unfold joinPort
  dsimp only
  rw [hr]
  exact pump_none (by simp only [port_onPort_same]; exact hw)

/-- The port that resumes sends again from the partner's NEXT_SEQ (R324). -/
theorem joinPort_resumed {s : State} {p : PortIx} {i : HelloInfo} (hr : ((s.port p).resume && i.resume) = true)
    (hw : (s.port p).waiting = 0) : ∃ left,
    left = (s.port p).retry.drop ((i.nextSeq + 65536 - ((s.port p).txSeq + 65536 - (s.port p).retry.length) % 65536) % 65536) ∧
      (joinPort p i s).port p = { s.port p with
        st := .joined, resume := false, retry := left, resends := 0, nakSent := false, refused := []
        wire := (left.map sealFrame).reverse ++ (s.port p).wire } := by
  refine ⟨_, rfl, ?_⟩
  unfold joinPort
  dsimp only
  rw [hr, if_pos rfl, pump_none (by simp only [port_putWires_same, port_count, port_onPort_same]; exact hw)]
  simp

/-- What sending leaves of a port: its state and the HELLO it has heard. -/
def Port.told (q : Port) : PState × Option HelloInfo × Nat := (q.st, q.hello, q.partnerRank)

theorem told_takeFrom {q q' : Port} {l : List Queued} {c : Nat} {x : Queued} {rest : List Queued → Nat → Port}
    (hr : ∀ r d, (rest r d).told = q.told) (h : q.takeFrom l c rest = some (x, q')) : q'.told = q.told := by
  unfold Port.takeFrom at h
  split at h
  · split at h
    · cases h; exact hr _ _
    · cases h
  · cases h

theorem told_takeTurn {q q' : Port} {t : Fin 3} {x : Queued} (h : q.takeTurn t = some (x, q')) : q'.told = q.told := by
  unfold Port.takeTurn at h
  split at h <;> exact told_takeFrom (by intro _ _; rfl) h

theorem told_nextFrame {q q' : Port} {x : Queued} (h : q.nextFrame = some (x, q')) : q'.told = q.told := by
  unfold Port.nextFrame at h
  rw [Option.or_eq_some_iff] at h
  rcases h with h | ⟨-, h⟩
  · exact told_takeFrom (by intro _ _; rfl) h
  rw [Option.or_eq_some_iff] at h
  rcases h with h | ⟨-, h⟩
  · exact told_takeFrom (by intro _ _; rfl) h
  rw [Option.or_eq_some_iff] at h
  rcases h with h | ⟨-, h⟩
  · exact told_takeTurn h
  rw [Option.or_eq_some_iff] at h
  rcases h with h | ⟨-, h⟩ <;> exact told_takeTurn h

theorem told_done (x : Queued) (s : State) (p : PortIx) : ((x.done s).port p).told = (s.port p).told := by
  unfold Queued.done
  split
  · rename_i r _
    unfold giveBack
    by_cases h : p = r
    · subst h; rw [port_onPort_same]; split <;> rfl
    · rw [port_onPort_other _ _ h]
  · rfl

/-- Whatever is sent, state and HELLO of the port stay. -/
theorem told_pumpN (p : PortIx) (n : Nat) (s : State) : ((pumpN p n s).port p).told = (s.port p).told := by
  induction n generalizing s with
  | zero => rfl
  | succ n ih =>
    unfold pumpN
    split
    · split
      · rfl
      · rename_i x q h
        dsimp only
        rw [ih, told_done, port_putWire_same, port_onPort_same]
        exact (told_nextFrame h : q.told = _)
    · rfl

theorem told_pump (p : PortIx) (s : State) : ((pump p s).port p).told = (s.port p).told := told_pumpN p _ s

/-- A port that joins is JOINED and has kept the HELLO. -/
theorem told_joinPort (p : PortIx) (i : HelloInfo) (s : State) :
    ((joinPort p i s).port p).told = (.joined, (s.port p).hello, (s.port p).partnerRank) := by
  unfold joinPort
  dsimp only
  split <;> rw [told_pump] <;> simp [Port.told]

end Sys2Proof.Machine
end

