-- ==== Sys2Proof/Tests/Slice0.lean ====
section
/-! SUPPORT. Tests: a witness for the hypotheses of each statement, the examples the spec works out, and one ill-formed command for
each check of `WellFormed`. -/

namespace Sys2Proof.Tests

open Sys2Proof Sys2Proof.Machine

set_option Elab.async false

/-- The device after bring-up, all else at reset. -/
def readyState : State := State.reset.onMod fun m => { m with bring := .ready, resetAsserted := false }
def enabledState : State := readyState.onQueue 0 fun q => { q with enable := true, st := .enabled, sizeLog2 := 6 }
def postedState : State := enabledState.onQueue 0 fun q => { q with tail := 3 }
def blockedState : State := postedState.onQueue 0 fun q => { q with consumed := 64 }
def linkUpState : State := readyState.onHub fun h => { h with linkUp := true, retraining := true }

/- StepRunsFrontCommand -/
theorem witness_StepRunsFrontCommand : ({ State.reset with pending := [.refresh 0 0 0, .snoop 0] } : State).pending =
    .refresh 0 0 0 :: [.snoop 0] := rfl

/- EmptyQueueTicks -/
theorem witness_EmptyQueueTicks : State.reset.pending = [] ∧ State.reset.skn.waiting = [] ∧ State.reset.sec.reporting = none := by refine ⟨?_, ?_, ?_⟩ <;> rfl

/- StepKeepsMemoriesCanonical -/
theorem witness_StepKeepsMemoriesCanonical : State.reset.memWf ∧ step State.reset = .next (tick State.reset) := by
  refine ⟨⟨?_, ?_, ?_, ?_⟩, ?_⟩ <;> rfl

/- ExecLeavesQueue -/
theorem witness_ExecLeavesQueue : exec (.refresh 0 0 0) State.reset = .next State.reset := rfl

/- WellFormedCommandsComplete -/
theorem witness_WellFormedCommandsComplete : WellFormed.Instr.wf (.queueEnable 0 0x80000006) = true ∧
    WellFormed.Instr.wf (.queueEnable 0 6) = false := by decide +kernel

/- RegisterWritesBeforeReady -/
theorem witness_RegisterWritesBeforeReady : isReady State.reset = false ∧ inBootWindow 0x400 = false ∧ wbit 0x80000000 31 = true ∧
    wbit 6 31 = false ∧ wbit 0x08000000 27 = true := by decide +kernel

/- RegisterAccessRows -/
theorem witness_RegisterAccessRows : isReady readyState = true ∧ (2 : Nat) ≠ 4 ∧ (0x402 : BitVec 28).toNat % 4 ≠ 0 := by decide +kernel

/- SnapLatches -/
theorem witness_SnapLatches : isReady readyState = true ∧ wbit 1 0 = true ∧ isReady (latch (snapRegs readyState .weft) readyState) = true := by
  refine ⟨rfl, by decide +kernel, rfl⟩

/- QueueControlRows -/
theorem witness_QueueControlRows :
    isReady readyState = true ∧ (wbit 0x80000006 31 = true ∧ 6 ≤ wfield 0x80000006 4 0 ∧ wfield 0x80000006 4 0 ≤ 14) ∧
    (readyState.queue 0).st = .disabled ∧ wbit 6 31 = false ∧ (enabledState.queue 0).st = .enabled ∧
    wfield 63 15 0 < (enabledState.queue 0).size ∧ (enabledState.queue 0).size ≤ wfield 64 15 0 ∧ isReady enabledState = true := by decide +kernel

/- EventRingRows -/
theorem witness_EventRingRows : isReady readyState = true ∧ wbit 0x80000006 31 = true ∧ 6 ≤ wfield 0x80000006 4 0 ∧
    wfield 0x80000006 4 0 ≤ 16 ∧ wbit 6 31 = false ∧
    wfield 3 15 0 < (readyState.onTel fun t => { t with ring := { t.ring with sizeLog2 := 6 } }).tel.ring.size := by decide +kernel

/- DescriptorQueueRows -/
theorem witness_DescriptorQueueRows : (List.replicate 32 (0 : Word)).length = 32 ∧ (postedState.queue 0).hasPosted = true ∧
    0 < (postedState.queue 0).credits ∧ (postedState.queue 0).fetched.length < 4 ∧ (enabledState.queue 0).hasPosted = false ∧
    (enabledState.queue 0).st = .enabled ∧
    (readyState.onTel fun t => { t with ring := { t.ring with enable := true } }).tel.ring.enable = true ∧
    (blockedState.queue 0).hasPosted = true ∧ (blockedState.queue 0).credits = 0 ∧ (blockedState.queue 0).blockedRaised = false ∧
    ((blockedState.onQueue 0 fun x => { x with blockedRaised := true }).queue 0).blockedRaised = true := by decide +kernel

/- HostLinkRows -/
theorem witness_HostLinkRows : linkUpState.hub.linkUp = true ∧ linkUpState.hub.retraining = true ∧ flyerRuns readyState = true ∧
    readyState.trd.ladder ≠ .t4 ∧ readyState.hub.linkUp = false ∧ readyState.mod.linkLateRaised = false ∧
    (readyState.onMod fun m => { m with linkLateRaised := true }).mod.linkLateRaised = true := by decide +kernel

/- HostAttachRows -/
theorem witness_HostAttachRows : linkUpState.hub.linkUp = true := rfl

/- CoreRegisterRows -/
theorem witness_CoreRegisterRows : isReady readyState = true ∧ windowOpen readyState 5 = true ∧
    windowOpen (readyState.onStp fun b => { b with inStep := true }) 5 = false ∧ wfield 55 7 0 ≤ 55 ∧ 55 < wfield 56 7 0 := by decide +kernel

/- SpoolWindowRows -/
theorem witness_SpoolWindowRows : isReady readyState = true ∧ windowOpen readyState 3 = true ∧
    windowPlace 3 (readyState.core 3).page 8191 = .spool 4751356 ∧
    (readyState.core 3).page ≠ 47 ∧ ((readyState.onCore 3 fun k => { k with page := 47 }).core 3).page = 47 ∧
    windowPlace 3 ((readyState.onCore 3 fun k => { k with page := 55 }).core 3).page 0 = .tile ⟨3, true, true⟩ 32768 ∧
    windowOpen (readyState.onStp fun b => { b with inStep := true }) 3 = false := by decide +kernel
theorem witness_SpoolWindowRows_wf : readyState.memWf := by refine ⟨?_, ?_, ?_, ?_⟩ <;> rfl

/-- One dense layer of one stage, 32 by 32, every format K4. -/
def tinyLayer : Layer :=
  { id := 0, kind := 0, stage := 0, scaleShift := 0, kExtent := 32, nExtent := 32, actFmt := 0, weightFmt := 0, gradFmt := 0,
    actStaple := 0, weightStaple := 0, gradStaple := 0, actTwist := 0, weightTwist := 0, gradTwist := 0, ply := 0, wide := false,
    narrowOverride := false, stochastic := false, lowRank := true, priority := 0, activation := 0, bias := false, colScale := false,
    heads := 0, headDim := 0, satLimit := 0, underflowLimit := 0, slubLimit := 0, ratioHi := 0, ratioLo := 0 }

/-- A gradient hank that device 0 owns. -/
def tinyHank : Hank := ⟨3, 0, 0, 0, 0, 1, 0, false, 0⟩

/-- An image of two devices in a ring, manager 0, for the device of rank `r`. -/
def tinyImageOf (r : Nat) : Image :=
  { bytes := [], job := ⟨2, 0, 0, 0, 0, false, false, List.replicate 32 0, 1⟩, layers := [tinyLayer],
    numeric := ⟨0, 0, 0, 0, 0, 0, 0⟩,
    hanks := { ctxGroup := 1, twoPathLog2 := 0, exactGroupSeqs := 1, exactGroupsLog2 := 0, adamw := false, nesterov := false,
               beta1 := 0, beta2 := 0, epsilon := 0, weightDecay := 0, gradNorm := 0, lr := [],
               entries := [tinyHank, ⟨4, 0, 2, 0, 0, 1, 0, false, 1⟩] },
    nep := [], place := ⟨r, 1, 1, [1, 2, 0, 0, 0, 0, 0, 0, 0], [⟨0, 0, 0⟩]⟩, routes := [], memory := [⟨1, 0, 0, 0, 0, 0, 0, 65536⟩],
    shuttle := [], plyLog2 := 0, updateLog2 := 0, deadline := ⟨0, false, 1000, 0, 0, 0, 0, 0⟩ }
def tinyImage : Image := tinyImageOf 0

/-- The manager with the image loaded, in the job, with a step of one sequence of 32 tokens accepted. -/
def managerState : State :=
  ((readyState.onWarp fun w => { w with state := .loaded, image := some tinyImage, dist := true, logicalHash := List.replicate 64 0 }).onPort 0
    fun q => { q with st := .joined }).onStp fun b => { b with desc := some ⟨0, [⟨0, 32, 0⟩], false, false⟩ }
def firstFState : State :=
  { readyState with warp := { readyState.warp with state := .loaded, dist := true }, nep := { readyState.nep with seed := some [] },
                    job := { readyState.job with formed := true }, reel := { readyState.reel with initialised := true },
                    stp := { readyState.stp with desc := some ⟨0, [], false, false⟩ } }
def emptyStage : BobStage := ⟨0, [], 0, [], 0, 0, 0, 0, 0, false⟩
def reserveState : State := { managerState with bob := ⟨0, [emptyStage]⟩ }
/-- One frame of micro-batch 0 with one record, whose only granule is the first of the stage's region. -/
def recordStage : BobStage := { emptyStage with frames := [⟨0, 0, [⟨0, false, 0, [⟨some 0, none⟩]⟩], false⟩] }
def popState : State :=
  { managerState with bob := ⟨0, [recordStage]⟩, stp := { managerState.stp with running := true },
                      skein := [(3, 0x40), (8, 1)] }
def tileState : State := managerState.onStp fun b => { b with running := true }
def tinyAt : NarrowAt := ⟨.spool 0 0, .spool 0 64, .spool 0 128, 32⟩
def tinySrc : TileSrc := .narrow tinyAt 0 1 0
def tileWork : TileWork := ⟨0, .selfTest, 0, 0, 0, 0, .grad, .weight, tinySrc, tinySrc, 32, 0, 1, .zero, none⟩
def tinyAcc : AccRef := ⟨0, false, false⟩
def drainSpec : DrainSpec := ⟨tinyAcc, none, none, [], none, none, none, false, none, none⟩
def whorlWork : WhorlWork :=
  ⟨0, 0, .selfTest, 0, 0, 0, 0, 0, .add ⟨.spool 0 0, 2, 1, false⟩ ⟨.spool 0 8, 2, 1, false⟩, 64, [], none, none, none, false, none, none⟩
/-- The operands of `tileWork` are resident, and the scheduler of cluster 0 holds the templates of these works. -/
def issueState : State :=
  (tileState.onRes fun b => { b with spool := [(0, 4096)] }).onWarp fun w =>
    { w with templates := [(0, .tile tileWork), (0, .drain drainSpec), (0, .whorl whorlWork)] }
def slubState : State := issueState.onTile tinyAcc fun _ => ⟨.accumulating, TileFlags.clear, [tileWork], [0]⟩
def drainState : State := issueState.onTile tinyAcc fun _ => ⟨.slub, TileFlags.clear, [tileWork], [0]⟩
def stuckWork : Work := .tile { tileWork with phase := .bRecomp }
/-- The stage has no popped record, so that its recomputation cannot start. -/
def stuckState : State := { tileState with bob := ⟨0, [emptyStage]⟩ }

/- FirstFIssueRow -/
theorem witness_FirstFIssueRow : firstFReady State.reset = false ∧ firstFReady firstFState = true ∧ firstFState.num.next = none ∧ firstFState.stp.skipHeld = false ∧
    firstFReady (firstFState.onStp fun b => { b with skipHeld := true }) = true ∧
    (firstFReady (firstFState.onNum fun n => { n with next := some ⟨5, 0, []⟩ }) = true) := by decide +kernel

/- BobbinRows -/
theorem witness_BobbinRows : reserveState.bobbin 0 = some emptyStage ∧ unitsRun reserveState = true ∧ 0 < mbCount reserveState ∧
    emptyStage.used + frameBytes reserveState 0 0 ≤ bobbinSize reserveState 0 ∧ popState.bobbin 0 = some recordStage ∧
    bobbinSize { reserveState with warp := { reserveState.warp with image := some { tinyImage with memory := [] } } } 0 <
      emptyStage.used + frameBytes { reserveState with warp := { reserveState.warp with image := some { tinyImage with memory := [] } } } 0 0 ∧
    unitsRun popState = true ∧ popState.stp.running = true ∧ nextRecord popState 0 0 = some ⟨0, false, 0, [⟨some 0, none⟩]⟩ ∧
    Loc.near (.spool 0 0) = true ∧ Loc.fits 256 (.spool 0 0) = true ∧ popState.skn.bad = [] ∧
    firstForbidden popState 1 false (grainAddr popState 0 0) 256 = none ∧
    (∃ bytes, (takeGrains 0 [⟨some 0, none⟩] popState).2 = some bytes ∧
      headerOk popState 0 0 0 1 (damaged (bytesWords 4 bytes) [0, 0, 0, 0]) = true ∧
      headerOk popState 0 0 0 1 (damaged (bytesWords 4 bytes) [1, 0, 0, 0]) = false) ∧ quarantined popState 0 = false ∧
    (([1, 0, 0, 0] : List Word).map fun w => popcount 32 w.toNat).sum % 2 = 1 := by
  refine ⟨?_, ?_, ?_, ?_, ?_, ?_, ?_, ?_, ?_, ?_, ?_, ?_, ?_, ⟨((takeGrains 0 [⟨some 0, none⟩] popState).2.getD []), ?_, ?_, ?_⟩, ?_, ?_⟩ <;> decide +kernel

/- SchedulerRows -/
theorem witness_SchedulerRows : stuckState.stp.running = true ∧ [stuckWork].all (Work.shaped 0) = true ∧
    schedulerWaits stuckState 0 [stuckWork] = true ∧ schedulerWaits stuckState 0 [] = false := by decide +kernel

/- TileIssueRow -/
theorem witness_TileIssueRow : issueState.trd.ladder = .t0 ∧ issueState.trd.stopping = false ∧ [Work.tile tileWork].all (Work.shaped 0) = true ∧
    ((clusterCores 0).filter (usable issueState)).isEmpty = false ∧ pickWork issueState 0 [.tile tileWork] = some (.tile tileWork) ∧
    placeWork issueState 0 tileWork = some tinyAcc ∧ (layerOf issueState 0).isSome = true ∧
    pickWork tileState 0 [.tile tileWork] = none ∧ pickWork drainState 0 [.drain drainSpec] = some (.drain drainSpec) ∧
    pickWork issueState 0 [.whorl whorlWork] = some (.whorl whorlWork) := by decide +kernel
theorem witness_TileIssueRow_wf : issueState.memWf := by refine ⟨?_, ?_, ?_, ?_⟩ <;> rfl

/- SlubPassRow -/
theorem witness_SlubPassRow : slubState.trd.ladder = .t0 ∧ quarantined slubState 0 = false ∧ (slubState.tile tinyAcc).st = .accumulating ∧
    (slubState.tile tinyAcc).work = some tileWork ∧ (layerOf slubState tileWork.layer).isSome = true ∧ workComplete tileWork = true ∧
    partsHere slubState tinyLayer (slubState.tile tinyAcc).parts = true := by decide +kernel
theorem witness_SlubPassRow_wf : slubState.memWf := by refine ⟨?_, ?_, ?_, ?_⟩ <;> rfl

/- TileDrainRow -/
theorem witness_TileDrainRow : tileState.trd.ladder = .t0 ∧ drainReady tileState drainSpec = false ∧ drainState.trd.ladder = .t0 ∧
    drainReady drainState drainSpec = true ∧ (drainState.tile drainSpec.acc).st = .slub ∧ drainSpec.err = none ∧ drainSpec.reExec = none := by decide +kernel

/- WhorlOpRow -/
theorem witness_WhorlOpRow : issueState.trd.ladder = .t0 ∧ issueState.trd.stopping = false ∧ (layerOf issueState whorlWork.layer) = some tinyLayer ∧ whorlReady issueState whorlWork = true ∧
    whorlShaped whorlWork = true ∧ whorlWork.err = none ∧ whorlWork.reExec = none ∧ whorlWork.dests = [] ∧ whorlWork.push = none ∧
    whorlWork.ring = none ∧ whorlWork.ringMove = none ∧ (whorlEval issueState tinyLayer whorlWork).spool.length ≤ WhorlOp.size whorlWork.op := by decide +kernel
theorem witness_WhorlOpRow_op : ∀ x v, whorlWork.op ≠ .residualAdd x v := by intro x v h; cases h
theorem witness_WhorlOpRow_wf : issueState.memWf := by refine ⟨?_, ?_, ?_, ?_⟩ <;> rfl

/-- Hank 3 delivered and the shard of device 0 not yet updated, the batch running. -/
def hankOf (t : Nat) (st : HankSt) : HankRt :=
  { tag := t, rho := 0, agreed := false, hs := 0, attempt := 0, st := st, sampled := false, clippedSeen := false, clipRaised := false,
    contribs := [], adders := [], delivered := [], finalMax := 0, rescaled := [], held := [], proposals := [], compared := false,
    sat := false, asked := [], marker := false }
def shardState : State :=
  tileState.onReel fun r => { r with hanks := [hankOf 3 .delivered], shards := [⟨3, false, false, [], [], 0, 0⟩] }
def segWaitState : State := readyState.onPly fun y => { y with segWaits := [⟨3, 0, [], [1, 2]⟩] }
def cardingState : State := readyState.onPly fun y => { y with carding := [.core 0] }

/- UpdateShardRow -/
theorem witness_UpdateShardRow : shardState.warp.image = some tinyImage ∧ findHank shardState (3 : BitVec 20).toNat = some tinyHank ∧
    (shardState.shard (3 : BitVec 20).toNat).isSome = true ∧ (shardState.hank (3 : BitVec 20).toNat).isSome = true ∧
    (layerOf shardState tinyHank.layer).isSome = true ∧ tinyHank.owner = rankOf shardState ∧ tinyHank.kind ≠ 2 ∧
    shardState.stp.running = true ∧ shardState.stp.skipHeld = false ∧ shardState.stp.settled = false ∧
    (shardState.onStp fun b => { b with skipHeld := true }).stp.skipHeld = true ∧ sliceReady shardState tinyHank = true ∧
    unitsRun shardState = true ∧ (readShard tinyHank shardState).2 = true := by decide +kernel

/- SegmentCheckRow -/
theorem witness_SegmentCheckRow :
    unitsRun segWaitState = true ∧ (segWaitState.ply.segWaits.find? fun x => x.tag == (3 : BitVec 20).toNat && x.segment == 0) = some ⟨3, 0, [], [1, 2]⟩ ∧
    firstWord 0 [1, 2] [1, 2] = none ∧ firstWord 0 [1, 2] [1, 5] = some (1, 2, 5) ∧ structureLost segWaitState = false := by decide +kernel

/- CardingRows -/
theorem witness_CardingRows : isReady readyState = true ∧ wbit 0x80000000 31 = true ∧ wbit 0x80000000 30 = false ∧
    wfield 0x80000000 17 16 ≠ 3 ∧ cardTargetOf (wfield 0x80000000 17 16) (wfield 0x80000000 15 0) = some (.core 0) ∧
    readyState.stp.inStep = false ∧ readyState.ply.carding = [] ∧ cardingState.ply.carding ≠ [] ∧
    cardingState.ply.carding.contains (.core 0) = true ∧ partRuns cardingState (.core 0) .march = true ∧
    (cardingState.onPly fun y => { y with cardHost := some (.core 0) }).ply.cardHost = some (.core 0) ∧ CardPart.march ≠ .none := by decide +kernel

def attestedState : State := readyState.onSec fun b => { b with attestReady := true }
def capVoidState : State := (managerState.onTrd fun t => { t with hostCap := 900 })
def atFloorState : State := readyState.onTrd fun t => { t with issueN := 32, readings := [(3000, 3000)] }
def stoppingState : State := readyState.onTrd fun t => { t with em := t.em.put .pin true, stopping := true }
def t1State : State := readyState.onTrd fun t => { t with em := t.em.put .pin true, ladder := .t1 }

/- CapRows -/
theorem witness_CapRows : isReady readyState = true ∧ capRefusal (wfield 900 15 0) readyState = none ∧
    capRefusal (wfield 899 15 0) readyState = some 2 ∧ distaffRuns attestedState = true ∧ attestedState.sec.attestReady = true ∧
    capRefusal (2600 : BitVec 16).toNat attestedState = none ∧ capRefusal (2601 : BitVec 16).toNat attestedState = some 2 ∧
    (attestedState.onTrd fun t => { t with sensorCap := some 1000 }).trd.sensorCap.isSome = true ∧
    minCap readyState ≤ readyState.trd.effective ∧ capVoidState.trd.effective < minCap capVoidState ∧ capVoidState.trd.deadlineVoid = false := by decide +kernel

/- PowerMarginRows -/
theorem witness_PowerMarginRows : 100 ≤ (State.reset.onTrd fun t => { t with over15 := 100 }).trd.over15 ∧ State.reset.trd.over15 < 100 ∧
    1000 ≤ (State.reset.onTrd fun t => { t with within5 := 1000 }).trd.within5 ∧ State.reset.trd.within5 < 1000 ∧
    10000 ≤ (State.reset.onTrd fun t => { t with over40 := 10000 }).trd.over40 ∧ State.reset.trd.over40 < 10000 ∧ State.reset.trd.measGoverns = false ∧ State.reset.trd.sensorCap = none ∧
    (State.reset.onTrd fun t => { t with measGoverns := true }).trd.measGoverns = true ∧ atFloorState.trd.ladder = .t0 ∧
    atFloorState.trd.issueN = 32 ∧ atFloorState.trd.atFloor = false ∧
    atFloorState.trd.inForce < (if atFloorState.trd.measGoverns then (lastReading atFloorState).2 else (lastReading atFloorState).1) ∧
    distaffRuns readyState = true ∧ 30 ≤ readyState.trd.activeReserve ∧ readyState.trd.activeReserve ≤ 80 ∧
    (readyState.onTrd fun t => { t with activeReserve := 40 }).trd.activeReserve < 45 := by decide +kernel

/- ControlIntervalRow -/
theorem witness_ControlIntervalRow : readyState.mod.bring ≠ .off ∧ readyState.mod.bring ≠ .held ∧ 32 ≤ readyState.trd.issueN ∧
    readyState.trd.issueN ≤ 256 ∧ 4200000 ≤ readyState.trd.rootKhz ∧
    (readyState.onTrd fun t => { t with em := t.em.put .pin true }).trd.em.any = true ∧ readyState.trd.em.any = false ∧
    readyState.trd.ramp = false ∧ readyState.trd.effective < (if readyState.trd.measGoverns then 3000 else readyState.trd.estimate 3000) := by decide +kernel

/- EmergencyRows -/
theorem witness_EmergencyRows : readyState.trd.em.get .pin = false ∧ distaffRuns attestedState = true ∧ distaffRuns State.reset = false ∧
    attestedState.sec.attestReady = true ∧ stoppingState.trd.em.get .pin = true ∧ stoppingState.trd.stopping = true ∧
    stoppingState.trd.em.any = true ∧ stoppingState.trd.ladder = .t0 ∧ t1State.trd.em.get .pin = true ∧
    (t1State.trd.em.put .pin false).any = false ∧ t1State.trd.ladder = .t1 ∧
    ((stoppingState.onTrd fun t => { t with em := t.em.put .thermal true }).trd.em.put .pin false).any = true := by decide +kernel

/- ThermalRows -/
theorem witness_ThermalRows : thermalAssert (.spindle 0 0) < 401 ∧ distaffRuns readyState = true ∧ readyState.trd.em.thermal = false ∧
    (400 : Nat) ≤ thermalAssert (.spindle 0 0) ∧ thermalTripAt (.skein 0 0) < 401 ∧ (400 : Nat) ≤ thermalTripAt (.skein 0 0) ∧
    readyState.trd.hotQuarter < 401 ∧ readyState.mod.bring ≠ .off ∧
    readyState.mod.bring ≠ .held ∧ readyState.trd.ladder ≠ .t3 ∧ readyState.trd.ladder ≠ .t4 ∧ readyState.mod.refclk = .good ∧
    (readyState.onMod fun m => { m with refclk := .holdover }).mod.refclk = .holdover ∧
    (readyState.onMod fun m => { m with refclk := .lost }).mod.refclk = .lost := by decide +kernel

/- StateRequestRow -/
theorem witness_StateRequestRow : wbit 0x18000000 27 = true ∧ isReady readyState = true ∧ wfield 0x18000000 30 28 ≤ 3 ∧
    readyState.trd.ladder ≠ ladderOf (wfield 0x18000000 30 28) ∧
    stateAccepted .host (ladderOf (wfield 0x18000000 30 28)) readyState = true ∧
    stateAccepted .host (ladderOf (wfield 0x18000000 30 28)) (readyState.onStp fun b => { b with inStep := true }) = false ∧
    4 ≤ wfield 0x48000000 30 28 ∧ wbit 0x48000000 27 = true ∧ distaffRuns attestedState = true ∧ attestedState.sec.attestReady = true ∧
    attestedState.trd.ladder ≠ ladderOf (wfield 0x18000000 30 28) ∧
    stateAccepted .distaff (ladderOf (wfield 0x18000000 30 28)) attestedState = true ∧ 5 ≤ wfield 0x58000000 30 28 ∧
    stoppingState.trd.em.any = true ∧ (readyState.onStp fun b => { b with inStep := true }).stp.inStep = true := by decide +kernel

/-- A frame received at port `p`, whole and with its right check word. -/
def rxOf (p : PortIx) (f : Frame) : Rx := ⟨p, blocksOf f, sealFrame f, none⟩
/-- All that `Arrives` asks, but for the check word. -/
def fits (r : Rx) (s : State) : Bool :=
  (s.port r.port).st == .joined && r.frame.seq.toNat == (s.port r.port).rxSeq && !malformed s r && !(r.frame.hops.toNat == deviceCount s) &&
    r.frame.dest.toNat == rankOf s && !(r.frame.dest == 0xFFFF) && fate s r.frame == .deliver && !(r.frame.ftype == ftIdle || r.frame.ftype == ftAlign)
theorem arrives_of_fits {p : PortIx} {f : Frame} {s : State} (h : fits (rxOf p f) s = true) : Arrives (rxOf p f) s := by
  simp only [fits, Bool.and_eq_true, beq_iff_eq, Bool.not_eq_true', beq_eq_false_iff_ne, ne_eq] at h
  obtain ⟨⟨⟨⟨⟨⟨⟨h1, h2⟩, h3⟩, h4⟩, h5⟩, h6⟩, h7⟩, h8⟩ := h
  have ht : (rxOf p f).frame.ftype = f.ftype := by unfold rxOf sealFrame; dsimp only; split <;> rfl
  have hs : sealFrame f = { f with crc := frameSum f } := by unfold sealFrame; rw [← ht, h8]; rfl
  have hc : (rxOf p f).frame.crc = frameSum (rxOf p f).frame := by unfold rxOf; rw [hs]; rfl
  exact ⟨h1, hc, h2, h3, h4, h5, h6, h7, rfl⟩
/-- The two devices of the job, formed; device 1 as the image for it has it, with no job yet and in the job. -/
def managerJob : State := managerState.onJob fun j => { j with formed := true }
def workerState : State := managerState.onWarp fun w => { w with image := some (tinyImageOf 1) }
def workerJob : State := managerJob.onWarp fun w => { w with image := some (tinyImageOf 1) }
def requestFrame : Frame := mkFrame 0x20 0 0 0 0 1 0 0 (List.replicate 18 0)
def replyFrame (n : Nat) : Frame := mkFrame 0x21 0 0 0 1 0 0 0 [w32 (n * 2 ^ 28)]
def verdictPart (n : Nat) : Frame := mkFrame (BitVec.ofNat 8 n) 1 0 0 0 1 0 0 (if n = 34 then [] else [0, 0, 0, 0])
def skipFrame : Frame := mkFrame 0x26 4 0 0 1 0 0 0 []
def queryFrame : Frame := mkFrame 0x28 0 0 0 0 1 0 0 []
def decisionFrame (k : Nat) : Frame := mkFrame 0x27 (decMarker k) 0 0 1 0 0 0 (w32 (k * 2 ^ 28) :: List.replicate 25 0)
def verdictSentState : State := workerJob.onStp fun b => { b with running := true, verdictSent := true }
/-- Both phases of the batch over, nothing of it open. -/
def overPhases : Phases := { Phases.none with f := ⟨some 0, some 1⟩, b := ⟨some 0, some 1⟩ }
def runningWorker : State := workerJob.onStp fun b => { b with running := true, phases := overPhases }
def runningManager : State := managerJob.onStp fun b => { b with running := true, phases := overPhases }
def setOf (r : Nat) : VerdictSet := ⟨r, false, false, false, false, 0, 0, 0, 0, 0, 0, 0, [], []⟩
def gatheringState : State := managerJob.onJob fun j => { j with gathering := true, sets := [setOf 0] }
def actedState : State := workerJob.onJob fun j => { j with acted := [⟨0, 0, (decisionFrame 4).payload⟩] }
/-- Verdict sets of both devices, for each row of the decision in turn. -/
def decideState (k : Fin 6) : State :=
  let v : VerdictSet := match k.val with
    | 0 => { setOf 1 with cause := 2 }
    | 1 => { setOf 1 with cause := 3 }
    | 2 | 3 => { setOf 1 with fault := true }
    | 4 => { setOf 1 with nonfinite := true }
    | _ => setOf 1
  (managerJob.onJob fun j => { j with gathering := true, sets := [setOf 0, v] }).onStp fun b =>
    { b with running := true, exec := if k.val = 3 then 2 else 0 }

/- AdmissionRows -/
theorem witness_AdmissionRows : frameOf 0x20 (rxOf 0 requestFrame) = true ∧
    (wordsBytes requestFrame.payload).take 64 = managerState.warp.logicalHash ∧
    managerState.job.knownSerials.find? (fun x => x.1 == 1) = none ∧ managerState.job.admittedRanks.length ≠ deviceCount managerState ∧
    standing workerState = .loaded ∧ workerState.job.admitted = false ∧ workerState.job.answered = false ∧
    isManager workerState = false ∧ fits (rxOf 0 requestFrame) managerState = true := by decide +kernel
theorem witness_AdmissionRows_reply : Arrives (rxOf 0 (replyFrame 1)) workerState ∧ Arrives (rxOf 0 (replyFrame 2)) workerState := by
  refine ⟨arrives_of_fits ?_, arrives_of_fits ?_⟩ <;> decide +kernel

/- VerdictGatheringRows -/
theorem witness_VerdictGatheringRows : frameOf 0x22 (rxOf 0 (verdictPart 34)) = true ∧ managerJob.job.skipNoticeSent = false ∧
    verdictFrame (rxOf 0 (verdictPart 35)) = true ∧ managerJob.job.sets.any (fun v => v.rank == 1) = false ∧
    frameOf 0x24 (rxOf 0 (verdictPart 36)) = true ∧ frameOf 0x25 (rxOf 0 (verdictPart 37)) = true ∧
    presentExec workerJob skipFrame = true ∧ frameOf 0x26 (rxOf 0 skipFrame) = true ∧
    silentRanks managerJob = [0, 1] ∧ verdictSentState.stp.verdictSent = true ∧ isManager verdictSentState = false ∧
    jobLoaded verdictSentState = true ∧ verdictSentState.job.timeoutRaised = false ∧ fits (rxOf 0 skipFrame) workerJob = true := by decide +kernel
theorem witness_VerdictGatheringRows_frames : ∀ n : Fin 4, fits (rxOf 0 (verdictPart (34 + n.val))) managerJob = true ∧
    presentExec managerJob (verdictPart (34 + n.val)) = true := by decide +kernel

/- VerdictSendingRows -/
theorem witness_VerdictSendingRows : cReady State.reset = false ∧ unitsRun runningWorker = true ∧ unitsRun runningManager = true ∧ cReady runningWorker = true ∧ isManager runningWorker = false ∧
    cReady runningManager = true ∧ isManager runningManager = true ∧ (1 < deviceCount runningManager ∧ 1 ≠ rankOf runningManager) ∧
    runningManager.job.sets = [] ∧ verdictSentState.stp.verdictSent = true ∧ isManager verdictSentState = false ∧
    jobLoaded verdictSentState = true ∧ fits (rxOf 0 queryFrame) managerJob = true ∧ frameOf 0x28 (rxOf 0 queryFrame) = true ∧
    managerJob.job.kept.find? (fun y => y.batch == queryFrame.batch.toNat && y.exec == queryFrame.exec.toNat) = none ∧
    gatheringState.job.gathering = true ∧ gatheringState.warp.state = .loaded ∧ isManager gatheringState = true ∧
    silentRanks gatheringState = [1] ∧ gatheringState.stp.exec < 4 ∧ gatheringState.skn.stk.any (·.stateLost) = false := by decide +kernel

/- DecisionRows -/
theorem witness_DecisionRows : ∀ k : Fin 3, fits (rxOf 0 (decisionFrame (k.val + 1))) workerJob = true ∧
    presentExec workerJob (decisionFrame (k.val + 1)) = true ∧ workerJob.job.acted = [] ∧ (workerJob.reel.shards.map (·.tag)) = [] ∧
    decisionOf (k.val + 1) (rxOf 0 (decisionFrame (k.val + 1))) = true := by decide +kernel

/- HaltAndStartRows -/
theorem witness_HaltAndStartRows : fits (rxOf 0 (decisionFrame 4)) workerJob = true ∧ decisionOf 4 (rxOf 0 (decisionFrame 4)) = true ∧
    presentExec workerJob (decisionFrame 4) = true ∧ workerJob.warp.state = .loaded ∧ workerJob.skn.stk.any (·.stateLost) = false ∧
    workerJob.job.acted = [] ∧ fits (rxOf 0 (decisionFrame 5)) workerState = true ∧ decisionOf 5 (rxOf 0 (decisionFrame 5)) = true ∧
    standing workerState = .loaded ∧ workerState.job.formed = false ∧
    standing (workerJob.onWarp fun w => { w with state := .halted }) = .halted ∧
    workerJob.warp.dist = true ∧ (actedState.job.acted.find? (fun y => y.batch == 0 && y.exec == 0)).isSome = true ∧
    fits (rxOf 0 (decisionFrame 4)) actedState = true := by decide +kernel

/- ManagerDecides -/
theorem witness_ManagerDecides : ∀ k : Fin 6, isManager (decideState k) = true ∧ (decideState k).job.sets ≠ [] ∧
    silentRanks (decideState k) = [] ∧ (decideState k).warp.state = .loaded ∧ (decideState k).stp.exec ≤ 2 ∧
    (decideState k).num.layers.length < 32768 ∧ (decideState k).skn.stk.any (·.stateLost) = false ∧ (decideState k).rov.held = [] ∧ (decideState k).ply.quarantineHalt = false := by decide +kernel

/-- The eight header words of a reel message of batch 0. -/
def reelHdr (type tag source contributors : Nat) : List Word :=
  [w32 (type * 2 ^ 24 + tag), w32 (source * 2 ^ 16), 0, 0, 0, 0, w32 contributors, 0]
def openHank3 : HankRt := hankOf 3 .first
def managerRun : State :=
  (managerJob.onStp fun b => { b with running := true }).onReel fun r => { r with hanks := [openHank3], initialised := true }
def workerRun : State := managerRun.onWarp fun w => { w with image := some (tinyImageOf 1) }
def segmentOk : Frame := mkFrame 0x10 1 1 3 0 1 0 0 (reelHdr 1 3 1 1 ++ List.replicate 512 0)
def segmentBad : Frame := mkFrame 0x10 1 1 3 0 1 0 0 ((reelHdr 1 3 1 1).take 7 ++ [1])
/-- RESCALE from the owner, a proposal to it, and agreed scales from it. -/
def scaleFrame (n : Nat) : Frame :=
  if n = 3 then mkFrame 0x10 1 1 3 0 1 0 0 (reelHdr 3 3 1 0 ++ [1, 5])
  else mkFrame 0x10 (if n = 2 then 5 else 2) (if n = 2 then 1 else 2) 3 1 0 0 0 (reelHdr n 3 0 0 ++ [1, 5])
def scaleRun (k : Fin 3) : State :=
  if k.val = 1 then managerRun else workerRun.onStp fun b => { b with batch := if k.val = 2 then 1 else 0 }
def distLen (n : Nat) : Nat := if n = 5 then 1024 else if n = 6 then 65 else if n = 7 ∨ n = 9 then 10 else 2
def distFrame (n : Nat) : Frame :=
  mkFrame 0x10 2 2 (if n = 5 then 4 else 3) (if n = 8 then 0 else 1) 0 0 0
    (reelHdr n (if n = 5 then 4 else 3) 0 0 ++ (if n = 6 then [0x1000000] else []) ++ List.replicate (distLen n - b2n (n == 6)) 0)
/-- The image of device 1 with the parameter region of layer 0. -/
def paramImage : Image := { tinyImageOf 1 with memory := [⟨1, 0, 0, 0, 0, 0, 0, 65536⟩, ⟨8, 0, 0, 0, 0, 0, 65536, 4096⟩] }
def distRun (k : Fin 6) : State :=
  ((if k.val = 3 then managerRun else workerRun.onWarp fun w => { w with image := some paramImage }).onStp fun b => { b with batch := 1 }).onReel fun r =>
    { r with lowRank := [⟨0, [], [], [], [], [], [], false⟩], params := [⟨3, [], false, true⟩] }
def kvFrame : Frame := mkFrame 0x11 1 3 0 0 1 0 0 [0, 0, 0, 1, 0]
def agreeingRun : State := workerRun
def heldRun : State := workerRun.onReel fun r => { r with hanks := [{ openHank3 with held := [rxOf 0 segmentOk] }] }
/-- Device 1 in a context group of two, at step 1 of the ring of layer 0. -/
def ctxRun : State :=
  (agreeingRun.onWarp fun w => { w with image := some { tinyImageOf 1 with hanks := { (tinyImageOf 1).hanks with ctxGroup := 2 } } }).onStp
    fun b => { b with desc := some ⟨0, [⟨0, 2048, 0⟩], false, false⟩, ring := [(0, 1)] }
def initState : State := managerState.onNep fun n => { n with seed := some [] }

/- ReelMessageRows -/
theorem witness_ReelMessageRows : fits (rxOf 0 segmentOk) managerRun = true ∧
    WellFormed.Instr.wf (.hankSegment (rxOf 0 segmentOk)) = true ∧ reelValid managerRun segmentOk.payload = true ∧
    fits (rxOf 0 segmentBad) managerRun = true ∧ WellFormed.Instr.wf (.hankSegment (rxOf 0 segmentBad)) = true ∧
    reelValid managerRun segmentBad.payload = false ∧ managerRun.skn.bad = [] := by decide +kernel

/- HankReductionRows -/
theorem witness_HankReductionRows_segment : fits (rxOf 0 segmentOk) managerRun = true ∧ reelValid managerRun segmentOk.payload = true ∧
    segmentFrame (rxOf 0 segmentOk) = true ∧ (managerRun.hank 3 = some openHank3) ∧
    (1, 1) ∈ routeIn managerRun (ownerOf managerRun 3) (rankOf managerRun) false ∧ segmentOk.payload.length = 520 ∧
    openHank3.st = .first ∧ openHank3.attempt = 0 ∧ openHank3.adders = [] ∧ 1 < expectedOperands managerRun 3 false := by decide +kernel
theorem witness_HankReductionRows_scale : (∀ k : Fin 3, fits (rxOf 0 (scaleFrame (k.val + 2))) (scaleRun k) = true ∧
    reelValid (scaleRun k) (scaleFrame (k.val + 2)).payload = true ∧ reelOf (k.val + 2) (rxOf 0 (scaleFrame (k.val + 2))) = true ∧
    ((scaleRun k).hank 3).isSome = true) ∧ ownerOf (scaleRun 0) 3 ≠ rankOf (scaleRun 0) ∧ ownerOf (scaleRun 0) 3 = 0 ∧
    tableValid (scaleRun 1) (scaleFrame 3).payload = true ∧ tableValid (scaleRun 2) (scaleFrame 4).payload = true := by decide +kernel

/- ReelDistributionRows -/
theorem witness_ReelDistributionRows : (∀ k : Fin 6, fits (rxOf 0 (distFrame (k.val + 5))) (distRun k) = true ∧
    reelValid (distRun k) (distFrame (k.val + 5)).payload = true ∧ reelOf (k.val + 5) (rxOf 0 (distFrame (k.val + 5))) = true) ∧
    (findHank (distRun 0) 4).map (fun p => (p.kind, p.owner)) = some (2, 0) ∧ ((distRun 0).lowRank 0).isSome = true ∧
    ((distRun 1).param 3).isSome = true ∧ segmentFits (distRun 1) tinyHank 0 0 0 0 256 = true ∧
    findHank (distRun 1) 3 = some tinyHank ∧ (distFrame 6).payload.length = 9 + ceilDiv 256 4 ∧ ((distRun 2).param 3).isSome = true ∧
    (findHank (distRun 3) 3).map (·.owner) = some (rankOf (distRun 3)) ∧ leafHeld (distRun 4) 0 3 = none ∧
    fits (rxOf 0 kvFrame) managerRun = true ∧ frameOf 0x11 (rxOf 0 kvFrame) = true ∧ kvShaped kvFrame.payload = true := by decide +kernel

/- ReelTimeoutRows -/
theorem witness_ReelTimeoutRows : (agreeingRun.hank 3).map (·.agreed) = some false ∧ agreeingRun.stp.running = true ∧
    (findHank agreeingRun 3).map (·.kind) = some 0 ∧
    (heldRun.hank 3).map (fun h => h.held.length) = some 1 ∧ ((distRun 2).param 3).map (·.waiting) = some true ∧
    3 ∈ shardTags agreeingRun ∧ ownerOf agreeingRun 3 ≠ rankOf agreeingRun ∧ leafHeld agreeingRun 0 3 = none ∧
    agreeingRun.reel.leafStep = 0 ∧ ctxRun.stp.running = true ∧ blockLacks ctxRun 0 (shardNow ctxRun 0) 0 = true ∧ unitsRun initState = true ∧
    managerRun.reel.initialised = true ∧ initState.warp.state = .loaded ∧ initState.nep.seed.isSome = true ∧
    initState.reel.initialised = false ∧ initState.stp.running = false := by decide +kernel

def trainedState : State := readyState.onStack 0 fun x => { x with trained := true }
/-- A window of 32 GiB at address 0x1000000000, and the skein trained. -/
def windowState : State := trainedState.onHub fun h => { h with cfg := { h.cfg with hdmBase := 0x1000000000, hdmBytes := 2 ^ 35 } }
def loadingState : State := windowState.onWarp fun w => { w with state := .verify, latLength := 4096 }
def ownedState : State := readyState.onStack 0 fun x => { x with channels := x.channels.set 0 { Arbiter.reset with owner := some 2 } }
/-- A job that has its shards, with the master copy of a shard at 65,536 of stack 0. -/
def masterRun : State :=
  (trainedState.onWarp fun w => { w with image := some { tinyImage with memory := [⟨9, 0, 0, 3, 0, 0, 65536, 4096⟩] } }).onReel fun r =>
    { r with initialised := true }
def starvedState : State := readyState.onStack 0 fun x => { x with starved := true }

/- NepTestRows -/
theorem witness_NepTestRows : isReady readyState = true ∧ wbit 0x80000000 31 = true ∧ wfield 0x80000000 17 16 = 0 ∧
    readyState.stp.inStep = false ∧ nepTargetOk readyState 0 0 = true ∧ wfield 0x80030000 17 16 = 3 ∧ wbit 0x10000 31 = false ∧
    (readyState.onNep fun n => { n with testPending := some [1, 2, 3, 4] }).nep.testPending = some [1, 2, 3, 4] := by decide +kernel

/- SkeinAccessRows -/
def residentState : State := { trainedState with res := { trainedState.res with spool := [(0, 256)] } }
theorem witness_SkeinAccessRows : unitsRun trainedState = true ∧ (trainedState.stack (skeinStack 0x1700000000)).trained = true ∧
    requestShaped 0x1700000000 (.write [1, 2, 3, 4]) = true ∧ requestShaped 0x1700000000 (.read 4) = true ∧
    requestShaped 0x1700000000 (.fetch 4 (.spool 0 0)) = true ∧ requestShaped 0x1700000000 (.store 4 (.spool 0 0)) = true ∧
    requestShaped 0 (.move 4 (.spool 0 0) (.creel 0 0)) = true ∧
    regionOf trainedState 0x1700000000 = .window ∧ mayReach 4 false true 0 .window = true ∧ mayReach 0 false true 0 .window = true ∧
    mayReach 1 false true 0 .window = false ∧ mayReach 0 false false 0 .window = true ∧
    guarded trainedState (windowOff 0x1700000000) 4 = false ∧ regionOf trainedState 0x16F0000000 = .system ∧
    mayReach 3 false false 0 .system = true ∧ (∀ w ∈ wordsOf 0x1700000000 4, trainedState.skn.bad.contains w = false) ∧
    (∀ w ∈ wordsOf 0x16F0000000 4, (regionOf trainedState w).committed = true) ∧
    (trainedState.stack 0).outstanding = 0 ∧ trainedState.warp.state ≠ .halted ∧ loadRunning trainedState = false ∧
    (trainedState.onStack 0 fun x => { x with outstanding := 8192 }).skn.stk[0].outstanding = 8192 ∧
    SkeinReq.untimely trainedState ⟨4, false, 0x1700000000, .write [1, 2, 3, 4], [], none⟩ = false ∧
    SkeinReq.untimely masterRun ⟨3, false, 65536, .write [1], [], none⟩ = true ∧
    mayReach 3 false true 0 (regionOf masterRun 65536) = true ∧ (masterRun.stack 0).trained = true ∧
    residentState.resident (.spool 0 0) 4 = true ∧ unitsRun residentState = true ∧ unitsRun masterRun = true := by decide +kernel
theorem witness_SkeinAccessRows_wf : trainedState.memWf := by refine ⟨?_, ?_, ?_, ?_⟩ <;> rfl

/- WindowAccessRows -/
theorem witness_WindowAccessRows : unitsRun windowState = true ∧ lineShaped (0x1000000000 : BitVec 64).toNat 4 = true ∧
    hdmOffset windowState (0x1000000000 : BitVec 64).toNat = some 0 ∧ hdmOffset windowState (0 : BitVec 64).toNat = none ∧
    isReady windowState = true ∧ isReady { windowState with mod := State.reset.mod } = false ∧
    (∀ w ∈ wordsOf (windowAddr 0) 4, windowState.skn.bad.contains w = false) ∧
    (windowState.stack (skeinStack (windowAddr 0))).outstanding = 0 ∧ guarded windowState (windowOff (windowAddr 0)) 4 = false ∧
    guarded loadingState (windowOff (windowAddr 0)) 4 = true ∧ isReady loadingState = true ∧
    hdmOffset loadingState (0x1000000000 : BitVec 64).toNat = some 0 ∧ scrubShaped (0 : BitVec 37).toNat = true ∧
    windowState.warp.state ≠ .halted ∧ loadRunning windowState = false ∧ ScrubKind.clean ≠ .uncorrectable := by decide +kernel

/- ShuttleRows -/
theorem witness_ShuttleRows : isReady readyState = true ∧ (readyState.arbiter 0 0).owner = none ∧
    (readyState.arbiter 0 0).eligible 1 0 = true ∧ (readyState.arbiter 0 0).eligible 0 0 = false ∧
    (ownedState.arbiter 0 0).owner = some 2 ∧ (4 : BitVec 5).getLsbD 2 = true ∧ wbit 1 0 = true ∧ wbit 2 0 = false := by decide +kernel

/- ShuttleStarvedRow -/
theorem witness_ShuttleStarvedRow : (readyState.arbiter 0 0).owner ≠ some 1 ∧
    (readyState.stack 0).starved = false ∧ (starvedState.stack 0).starved = true ∧ (starvedState.arbiter 0 0).owner ≠ some 1 := by decide +kernel

def portIn (st : PState) : State := readyState.onPort 0 fun q => { q with st := st }
/-- HELLO of device 0 to device 1 over port 0. -/
def helloIn : Frame := mkFrame 0x03 0 0 0 0 0 0 0 [0, 0, 0x2000, 0x20000, 0, 0, 0, 0]
def upWorker : State := workerState.onPort 0 fun q => { q with st := .up }
def linkState (n : Nat) : State :=
  readyState.onPort 0 fun q => { q with st := .joined, alignRx := some 5, txSeq := 1, retry := [queryFrame], resends := n }
def vc0State : State := readyState.onPort 0 fun q => { q with st := .joined, q0 := [⟨queryFrame, none⟩] }
def refusedState : State := (linkState 0).onPort 0 fun q => { q with refused := [queryFrame] }
def linkCtrlFrame : Frame := mkFrame 0x01 0 0 0 0 0 0 0 [0, 0, 0]
def notReadyFrame : Frame := mkFrame 0x04 0 0 0 0 0 0 0 [0x280000]
/-- A link frame with its check word is one whose check passes. -/
theorem sealed_sum (p : PortIx) (f : Frame) (h : (f.ftype == ftIdle || f.ftype == ftAlign) = false) :
    (rxOf p f).frame.crc = frameSum (rxOf p f).frame := by
  have hs : sealFrame f = { f with crc := frameSum f } := by unfold sealFrame; rw [h]; rfl
  unfold rxOf; rw [hs]; rfl

/- PortTrainingRows -/
theorem witness_PortTrainingRows : ((portIn .deaf).port 0).st = .deaf ∧ flyerRuns (portIn .deaf) = true ∧ unitsRun (portIn .deaf) = true ∧
    flyerRuns State.reset = false ∧ flyerRuns (portIn .training) = true ∧ unitsRun (portIn .training) = true ∧ ((portIn .training).port 0).st = .training ∧
    ((portIn .up).port 0).st = .up ∧ ((portIn .joined).port 0).st = .joined ∧ ((portIn .retraining).port 0).st = .retraining ∧
    isReady (portIn .joined) = true ∧ frameOf 0x03 (rxOf 0 helloIn) = true ∧ frameAllowed helloIn = true ∧ reservedSet helloIn = false ∧
    helloMatches (upWorker.onWarp fun w => { w with logicalHash := [] }) 0 (readHello helloIn.payload) = true ∧
    helloMatches (portIn .up) 0 (readHello helloIn.payload) = false ∧ (upWorker.port 0).waiting = 0 ∧
    ((upWorker.port 0).resume && (readHello helloIn.payload).resume) = false ∧ portRole workerState 0 ≠ 0 ∧
    (readHello [0, 0, 0, 0, 0, 0, 0x10000, 0]).resume = true := by decide +kernel

/- PortLinkRows -/
theorem witness_PortLinkRows : ((portIn .up).port 0).st = .up ∧ ((portIn .joined).port 0).st = .joined ∧
    ((portIn .joined).port 0).alignRx = none ∧ ((linkState 0).port 0).alignRx = some 5 ∧ ((linkState 0).port 0).st = .joined ∧
    ((linkState 0).port 0).blocked = false ∧ ((linkState 0).port 0).retry.length = 1 ∧ ((linkState 0).port 0).resends < 8 ∧
    8 ≤ ((linkState 8).port 0).resends ∧ (vc0State.port 0).q0 = [⟨queryFrame, none⟩] ∧ (vc0State.port 0).c0 < blocksOf queryFrame ∧
    (refusedState.port 0).refused = [queryFrame] ∧ (refusedState.port 0).waiting = 0 ∧ (refusedState.port 0).st = .joined ∧
    (refusedState.port 0).blocked = true ∧ fromRefused (refusedState.port 0) = [queryFrame] ∧
    frameOf 0x01 (rxOf 0 linkCtrlFrame) = true ∧ frameAllowed linkCtrlFrame = true ∧ reservedSet linkCtrlFrame = false ∧
    frameOf 0x04 (rxOf 0 notReadyFrame) = true ∧ frameAllowed notReadyFrame = true ∧ reservedSet notReadyFrame = false := by decide +kernel

/-- A descriptor of type `ty` at the head of queue `q`, its words after the first given by place. -/
def withHead (q : QueueIx) (ty : Nat) (ws : List (Nat × Word)) (s : State) : State :=
  s.onQueue q fun x => { x with
    st := .enabled
    fetched := [⟨0, true, w32 (ty * 2 ^ 24) :: (List.range 31).map fun i => ((ws.find? fun p => p.1 == i + 1).map (·.2)).getD 0⟩] }
/-- The descriptor at the head. -/
def headOf (q : QueueIx) (s : State) : Desc := (s.queue q).fetched.headD ⟨0, false, []⟩
/-- The queue is enabled with one descriptor, of the given type, and runs none. -/
def oneHead (q : QueueIx) (ty : Nat) (s : State) : Bool :=
  (s.queue q).st == .enabled && (s.queue q).running.isNone && (s.queue q).fetched == [headOf q s] && (headOf q s).type == ty
def headState (ty : Nat) : State := withHead 0 ty [] readyState
def seedState : State := withHead 0 3 [] managerState
def seededState : State := (managerState.onNep fun n => { n with seed := some [] }).onStp fun b => { b with desc := none }
/-- An embedding and an output head over 32 tokens. -/
def vocabLayers : List Layer := [{ tinyLayer with kind := 5 }, { tinyLayer with id := 1, kind := 4 }]
/-- One sequence of 2,048 tokens, as this device takes them. -/
def stepTable : List Word := [0, 2048, 0, 0]
/-- Token data whose words all read 0. -/
def stepTokens : List Word := []
def stepState : State :=
  withHead 0 1 [(4, 1), (9, 16384)]
    (seededState.onWarp fun w => { w with image := some { tinyImage with
      layers := vocabLayers, memory := [⟨3, 0, 0, 0, 0, 0, 0, 1048576⟩] } })
def copyState (ty : Nat) : State := withHead 1 ty [(6, 64)] readyState
/-- The copy that is at the head has started. -/
def copyingState (ty : Nat) : State :=
  (copyState ty).onQueue 1 fun y => { y with running := some (headOf 1 (copyState ty)), fetched := [] }
def ckptState : State :=
  withHead 0 4 [] { seededState with reel := { seededState.reel with initialised := true, leafStep := 1 }, flash := { seededState.flash with sealKeys := [(0, 0)] } }
def restoreState : State := withHead 0 5 [] seededState
def inferTable : List Word := [0, 1024, 0, 0]
def inferTokens : List Word := []
def inferRequests : List Word := [0, 0, 0, 0x3F800000, 0, 1, 0, 0]
def inferState : State :=
  withHead 0 2 [(2, 0x10001), (7, 8192)]
    (seededState.onWarp fun w => { w with image := some { tinyImage with
      job := { tinyImage.job with deviceCount := 1 }, layers := vocabLayers, nep := [⟨0xC0000000, 0, false, 0, 0⟩]
      hanks := { tinyImage.hanks with ctxGroup := 1 }, memory := [⟨3, 0, 0, 0, 0, 0, 0, 1048576⟩] } })

/- DescriptorHeadRows -/
theorem witness_DescriptorHeadRows : (State.reset.queue 0).fetched = [] ∧ (State.reset.queue 1).running = none ∧
    oneHead 0 9 (headState 9) = true ∧ carries 0 9 = false ∧ oneHead 0 1 (headState 1) = true ∧ carries 0 1 = true ∧
    (headState 1).stp.desc = none ∧ (headState 1).stp.running = false ∧ (headState 1).warp.state ≠ .loaded ∧ (headState 1).nep.seed = none ∧
    oneHead 0 3 seedState = true ∧ hdrClear (wordAt (headOf 0 seedState).words 0) = true ∧
    (∀ i : Fin 32, 6 ≤ i.val → wordAt (headOf 0 seedState).words i.val = 0) ∧ seedState.warp.state = .loaded ∧ seedState.nep.seed = none ∧
    oneHead 1 0x11 (copyState 0x11) = true ∧ carries 1 0x11 = true ∧ carries 1 3 = false ∧ oneHead 1 3 (copyState 3) = true ∧
    (copyingState 0x11).queue 1 = { (copyingState 0x11).queue 1 with st := .enabled, running := some (headOf 1 (copyState 0x11)) } ∧
    readsNow 0 (headState 1) = some (headOf 0 (headState 1)) ∧ readsNow 0 readyState = none ∧ wholeLinesLong 128 = true ∧ unitsRun (headState 9) = true ∧
    unitsRun seedState = true ∧ unitsRun (copyState 3) = true ∧ unitsRun (copyingState 0x11) = true ∧
    unitsRun (readyState.onTrd fun t => { t with ladder := .t2 }) = false ∧
    firstStatus (readChecks 0 stepTable [] [] 5 (headOf 0 stepState) stepState) = some (0x10, 5) := by decide +kernel
theorem witness_DescriptorHeadRows_step : oneHead 0 1 stepState = true ∧ unitsRun stepState = true ∧ stepState.stp.desc = none ∧
    firstStatus (stepChecks stepState (headOf 0 stepState) (stepIn (headOf 0 stepState) stepTable stepTokens none)) = none := by decide +kernel

/- DescriptorDataRows -/
theorem witness_DescriptorDataRows_copy : oneHead 1 0x10 (copyState 0x10) = true ∧ oneHead 1 0x11 (copyState 0x11) = true ∧
    firstStatus (copyChecks (copyState 0x10) (headOf 1 (copyState 0x10)) true false) = none ∧
    firstStatus (copyChecks (copyState 0x11) (headOf 1 (copyState 0x11)) false false) = none ∧
    firstStatus (copyChecks (copyState 0x10) (headOf 1 (copyState 0x10)) true true) = some (0x10, 2) ∧ wholeLinesLong 64 = true ∧
    (copyingState 0x10).queue 1 = { (copyingState 0x10).queue 1 with st := .enabled, moved := 0, running := some (headOf 1 (copyState 0x10)) } ∧
    guarded { loadingState with pending := [] } 0 64 = true ∧ copyBytes (headOf 1 (copyState 0x10)) = 64 ∧
    unitsRun (copyState 0x10) = true ∧ unitsRun (copyingState 0x10) = true ∧ (windowTake none 0 64 (copyingState 0x11)).2 = some (List.replicate 64 0) ∧
    (windowTake none 0 64 (copyingState 0x11)).1.queue 1 = (copyingState 0x11).queue 1 := by decide +kernel
theorem witness_DescriptorDataRows_ckpt : oneHead 0 4 ckptState = true ∧ ckptState.stp.inStep = false ∧ ckptState.stp.desc = none ∧
    ckptState.reel.hanks.all (·.agreed) = true ∧ ckptState.stp.stepIndex < ckptState.reel.leafStep ∧
    firstStatus (ckptFields (headOf 0 ckptState)) = none ∧ ckptState.warp.state = .loaded ∧
    ckptState.nep.seed.isSome = true ∧ ckptState.reel.initialised = true ∧ ckptState.flash.sealKeys ≠ [] ∧ ckptState.warp.image.isSome = true ∧
    unitsRun ckptState = true ∧ (readShards none ckptState).2 = true ∧ (readShards none ckptState).1.flash.sealKeys ≠ [] ∧
    (readShards none ckptState).1.queue 0 = ckptState.queue 0 ∧ (readShards (some (.parity 3 0)) ckptState).2 = false := by decide +kernel
theorem witness_DescriptorDataRows_restore : unitsRun restoreState = true ∧ oneHead 0 5 restoreState = true ∧
    firstStatus (restoreChecks restoreState false (headOf 0 restoreState)) = none ∧
    firstStatus (restoreChecks restoreState true (headOf 0 restoreState)) = some (0x10, 2) ∧
    (restoreState.warp.image.map fun im => restoreCause restoreState im []) = some (some 1) := by decide +kernel
theorem witness_DescriptorDataRows_infer : unitsRun inferState = true ∧ arithmeticOn inferState = true ∧ oneHead 0 2 inferState = true ∧ inferState.stp.inStep = false ∧ inferState.stp.desc = none ∧
    firstStatus (inferChecks inferState (headOf 0 inferState) (inferIn (headOf 0 inferState) inferTable inferTokens none) inferRequests) = none := by decide +kernel

def busyState : State := readyState.onStp fun b => { b with inStep := true }
def stageState (l : Loader) : State := readyState.onWarp fun w => { w with state := l, pending := some tinyImage }

/- LoaderRows -/
theorem witness_LoaderRows : isReady readyState = true ∧ loaderBusy readyState = false ∧ loaderBusy busyState = true ∧
    isReady busyState = true ∧ readyState.warp.state ≠ .halted ∧ readyState.job.resumed = false ∧ workerState.warp.state = .loaded ∧ isReady workerState = true ∧
    loaderBusy workerState = false ∧ (stageState .verify).warp.state = .verify ∧ (stageState .validate).warp.state = .validate ∧
    (stageState .feasibility).warp.state = .feasibility ∧ (stageState .feasibility).warp.pending.isSome = true ∧
    (stageState .distribute).warp.state = .distribute ∧ loadRunning (stageState .verify) = true ∧ loadRunning readyState = false ∧
    firstPlace [(⟨0xFF, noEntry, codeIf true 0x5104⟩ : RulePlace)] = some ⟨0xFF, noEntry, [0x5104]⟩ ∧
    isManager (readyState.onWarp fun w => { w with image := some (tinyImageOf 1) }) = false := by decide +kernel

def recoveryState : State := State.reset.onMod fun m => { m with bring := .rails, recovery := true }
/-- Both distaff slots empty. -/
def emptySlots : State :=
  { (State.reset.onMod fun m => { m with bring := .rails }) with flash := { State.reset.flash with distaffFw := ⟨[], [], false, false, false⟩ } }
def bringAt (b : Bring) : State := State.reset.onMod fun m => { m with bring := b }
def attestingState : State := readyState.onSec fun b => { b with identityOk := true, bootStage := 3, mapOk := true }
def allBut0 : State := (bringAt .flyer).onSkn fun k => { k with stk := (k.stk.map fun x => { x with firmwareOk := true }).set 0 Stack.reset }
/-- An empty image never verifies, whatever keys and signature checks answer. -/
theorem empty_image_refused (s : State) (st : BootStage) (h : fwHeaderOk s st [] = false) : (fwVerify s st []).2 = false := by
  unfold fwVerify
  split
  · rfl
  · simp [h]
/-- A distaff image with the right header. -/
def goodImage : List Byte :=
  leBytes 4 0x49574644 ++ leBytes 4 0x00010100 ++ leBytes 4 (256 + sigBlockBytes) ++ List.replicate (244 + sigBlockBytes) 0

/- ResetRows -/
theorem witness_ResetRows : readyState.mod.bring ≠ .off ∧ distaffRuns readyState = true ∧
    (State.reset.onMod fun m => { m with bring := .rails }).mod.bring = .rails ∧
    (State.reset.onMod fun m => { m with bring := .held }).mod.bring = .held ∧ ([0, 1, 2, 3] : List (Fin 4)).length = 4 ∧
    (State.reset.onMod fun m => { m with resetAsserted := true }).mod.resetAsserted = true ∧ readyState.mod.resetAsserted = false ∧
    distaffRuns (State.reset.onMod fun m => { m with bring := .rails }) = false := by decide +kernel

/- BringupRows -/
theorem witness_BringupRows : ((bringAt .flyer).stack 0).firmwareOk = false ∧ ((bringAt .flyer).stack 1).firmwareOk = false ∧
    (List.finRange 8).all (fun j => j == 0 || ((allBut0.stack j).firmwareOk)) = true ∧ (allBut0.stack 0).firmwareOk = false ∧
    ((bringAt .skeinBase).onSec fun b => { b with attestReady := true }).sec.attestReady = true ∧ (bringAt .rails).mod.bring = .rails ∧ (bringAt .rails).mod.recovery = false ∧
    emptySlots.mod.bring = .rails ∧ recoveryState.mod.recovery = true ∧ attestingState.sec.identityOk = true ∧
    attestingState.sec.bootStage = 3 ∧ attestingState.sec.mapOk = true ∧ attestingState.sec.attestReady = false ∧
    attestingState.mod.signFault = false ∧ (bringAt .skeinBase).mod.bring = .skeinBase ∧ (bringAt .selfTest).mod.bring = .selfTest ∧
    (bringAt .selfTest).trd.em.any = false ∧ (bringAt .selfTest).sec.mapOk = false ∧
    ((bringAt .selfTest).onTrd fun t => { t with em := { t.em with pin := true } }).trd.em.any = true := by decide +kernel
theorem witness_BringupRows_refused (x : Bool) : (fwVerify emptySlots .distaff (emptySlots.flash.distaffFw.get x)).2 = false := by
  have h : emptySlots.flash.distaffFw.get x = [] := by cases x <;> rfl
  rw [h]; exact empty_image_refused _ _ (by decide +kernel)
/-- A firmware image verifies where its key is known and both signature checks answer yes. -/
theorem witness_BringupRows_verified (k : List Byte × List Byte) (hK : ∀ w, Config.firmwareKey w = some k)
    (hE : ∀ k d s, Config.edVerify k d s = true) (hM : ∀ k d c s, Config.mlVerify k d c s = true)
    (h : fwHeaderOk emptySlots .distaff goodImage = true) : (fwVerify emptySlots .distaff goodImage).2 = true := by
  simp [fwVerify, hK, sigFails, hE, hM, h, b2n]
theorem witness_BringupRows_header : fwHeaderOk emptySlots .distaff goodImage = true := by decide +kernel

/-- Negotiated, in a session, with an owner. -/
def sessionState : State :=
  { attestedState with spdm := ⟨true, true, true, true, true⟩, flash := { attestedState.flash with owner := some ⟨[], [], 0⟩ } }
def ownerEnv : OwnerEnv := ⟨0, 1, 2, [], []⟩
def opId (id : BitVec 32) : List Byte := leBytes 4 id.toNat
theorem leNat_bound (l : List Byte) : leNat l < 256 ^ l.length := by
  induction l with
  | nil => decide
  | cons b l ih => have := b.isLt; simp only [leNat, List.length_cons, Nat.pow_succ]; omega

/- OwnerAndDeliveryRows -/
theorem witness_OwnerAndDeliveryRows : distaffRuns attestedState = true ∧ attestedState.sec.attestReady = true ∧
    distaffRuns readyState = true ∧ readyState.sec.attestReady = false ∧ readyState.mod.recovery = false ∧
    recoveryState.mod.recovery = true ∧ admitted .pldm attestedState = true ∧ admitted (.redfish []) State.reset = false ∧ sessionState.flash.owner = some ⟨[], [], 0⟩ ∧ distaffRuns sessionState = true ∧
    sessionState.sec.attestReady = true ∧ sessionState.spdm.session = true ∧ sessionState.flash.revokedKeys = [] ∧
    sessionState.flash.liveKeys < 16 ∧ sessionState.flash.sealKeys = [] ∧ sessionState.flash.floorWarp = 0 ∧
    ownerCause 2 ownerEnv [opId 0] { sessionState with flash := { sessionState.flash with owner := none } } = 1 := by decide +kernel
theorem witness_OwnerAndDeliveryRows_refused : (fwVerify attestedState .distaff []).2 = false :=
  by exact empty_image_refused _ _ (by decide +kernel)
/-- An owner envelope is accepted where both signature checks answer yes: the answers are the two free functions of `Config`. -/
theorem witness_OwnerAndDeliveryRows_accepted (hE : ∀ k d s, Config.edVerify k d s = true) (hM : ∀ k d c s, Config.mlVerify k d c s = true) :
    ownerCause 2 { ownerEnv with serial := BitVec.ofNat 64 moduleSerial } [opId 0] sessionState = 0 := by
  have h : (BitVec.ofNat 64 moduleSerial).toNat = moduleSerial := by
    have h1 := leNat_bound ((sha512 (deviceEd ++ deviceMl)).take 8)
    have h2 : ((sha512 (deviceEd ++ deviceMl)).take 8).length ≤ 8 := by rw [List.length_take]; exact Nat.min_le_left _ _
    have h3 : 256 ^ ((sha512 (deviceEd ++ deviceMl)).take 8).length ≤ 256 ^ 8 := Nat.pow_le_pow_right (by decide +kernel) h2
    exact Nat.mod_eq_of_lt (Nat.lt_of_lt_of_le h1 h3)
  simp only [ownerCause, sessionState, sigFails, hE, hM, h, bne_self_eq_false]
  decide +kernel

/- SpdmRows -/
theorem witness_SpdmRows : distaffRuns readyState = true ∧ readyState.sec.attestReady = false ∧ distaffRuns sessionState = true ∧
    sessionState.sec.attestReady = true ∧ sessionState.spdm.version = true ∧ sessionState.spdm.capabilities = true ∧
    sessionState.spdm.algorithms = true ∧ sessionState.spdm.handshake = true ∧ sessionState.spdm.session = true ∧
    readyState.spdm.version = false ∧ readyState.spdm.handshake = false ∧ (measBlock sessionState 8).isSome = true ∧
    isReady sessionState = true ∧ wbit 0x80000000 31 = true ∧ wbit 0x80000000 29 = false ∧ sessionState.sec.addrLo.toNat % 64 = 0 ∧
    sessionState.sec.reporting = none ∧ (sessionState.onSec fun b => { b with reporting := some (0, []) }).sec.reporting = some (0, []) := by decide +kernel

/- TestAccessRows -/
theorem witness_TestAccessRows : State.reset.i3c.enabled = false ∧
    (State.reset.onI3c fun i => { i with enabled := true }).i3c.enabled = true ∧ readyState.mod.resetAsserted = false ∧
    (State.reset.onMod fun m => { m with resetAsserted := true }).mod.resetAsserted = true := by decide +kernel

/- FlashKeepsItsLimits -/
theorem witness_FlashKeepsItsLimits : State.reset.flash.withinLimits ∧ step State.reset = .next (match step State.reset with
    | .next t => t | _ => State.reset) := by refine ⟨⟨?_, ?_⟩, ?_⟩ <;> first | rfl | decide

/- ZeroSums -/
theorem witness_ZeroSums_noProduct : ∀ p ∈ [FVal.fin true 0 3], ∃ n e, p = FVal.fin n 0 e := by
  intro p hp; rw [List.mem_singleton] at hp; exact ⟨true, 3, hp⟩
theorem witness_ZeroSums_cancel : leading (.fin false 5 0) = some 2 ∧ leading (.fin true 5 0) = some 2 ∧
    ([FVal.fin false 5 0, .fin true 5 0].map (aligned 2)).sum = 0 := by decide +kernel
theorem witness_ZeroSums_negation : (dec32 0x3F800000).isFin = true ∧ (0xBF800000 : Word).toNat = (0x3F800000 : Word).toNat + 2 ^ 31 := by decide +kernel

-- The examples the spec works out.

/-- Encoding one K4 staple at scale 0.25 (chapter 3). -/
theorem test_k4_staple_codes :
    leNat (packCodes .k4 (([0x3E99999A, 0xBF4CCCCD, 0x3F8CCCCD, 0x00000000, 0x3DF5C28F, 0xBFC00000, 0x3F0CCCCD, 0x3F733333, 0xBD4CCCCD, 0x3ECCCCCD, 0x3FB9999A, 0xBE4CCCCD, 0x3F333333, 0x3D75C28F, 0xBF666666, 0x3E800000] : List Word).map fun x => BitVec.ofNat 8 (codeOf .k4 .nearest ⟨0x7D, 0⟩ x).1)) = 0x2E05A73064F106D2 := by
  decide +kernel
/-- Decoding a staple with an outlier (chapter 3). -/
theorem test_outlier_staple :
    (readStaple .k4 32 0 ⟨0x7890, ([0, 0, 0, 0, 0xB] : List Byte) ++ List.replicate 27 0, [0x5C93, 0, 0]⟩).pos.map (·.to32.bits) =
      [0, 0, 0, 0, 0xBC900000] ++ List.replicate 14 0 ++ [0x40400000] ++ List.replicate 12 0 := by decide +kernel
/-- One value, -117.25, in every format (chapter 3). -/
theorem test_one_value_every_format :
    (toBf16 0xC2EA8000).bits = 0xC2EA0000 ∧ (codeOf .k8a .nearest ⟨0x7F, 0⟩ 0xC2EA8000).1 = 0xEF ∧
    (codeOf .k8g .nearest ⟨0x7F, 0⟩ 0xC2EA8000).1 = 0xD7 ∧ (codeOf .k4 .nearest ⟨0x84, 0⟩ 0xC2EA8000).1 = 0xE ∧
    wireCode false (toWire false (-8) 0xC2EA8000).1 = 0x8AC0 ∧ toWire false (-9) 0xC2EA8000 = (some (-32767), true) ∧
    wireCode true (toWire true (-8) 0xC2EA8000).1 = 0x8AC00000 := by decide +kernel
theorem test_special_headers : mkHeader 0 0 0 1 false = 0x0005 ∧ mkHeader 0xFF 3 0 2 false = 0xFFC9 ∧ mkHeader 0x7F 0 0 0 false = 0x7F01 := by
  decide +kernel
/-- One spike spread by H16 (chapter 3). -/
theorem test_twist_spreads_spike : rotate 1 (0x41000000 :: List.replicate 15 0) = (List.replicate 16 0x40000000, 0) := by decide +kernel

def writtenStaple : StapleWrite :=
  writeFinite ⟨.k4, 0, 0, 1, 2⟩ none [0x3E4CCCCD, 0xBEB33333, 0x41200000, 0x3DCCCCCD, 0x3F0CCCCD, 0xBF19999A, 0x3CF5C28F, 0x3E99999A, 0xBE19999A, 0x3EE66666, 0x00000000, 0x3E800000, 0xBF000000, 0x3ECCCCCD, 0x3DA3D70A, 0xBF333333]
/-- One staple through the write path (chapter 5): elements, outlier, header and counts. -/
theorem test_write_path : leNat (stapleElemBytes .k4 writtenStaple.staple) = 0xF15E406A40E620D3 ∧
    writtenStaple.staple.slots.headD 0 = 0x5582 ∧ writtenStaple.staple.header = 0x7C10 ∧
    writtenStaple.counts = ⟨1, 0, 0, 1, 15, 1, 0⟩ := by decide +kernel
/-- The two draws of that example at position 1. -/
theorem test_stochastic_draws : (codeOf .k4 (.draw 0x9C40) ⟨0x7C, 0⟩ 0xBEB33333).1 = 0xD ∧ (codeOf .k4 (.draw 0xD000) ⟨0x7C, 0⟩ 0xBEB33333).1 = 0xC := by
  decide +kernel

def tieRowA : ORow := .narrow [⟨0x9300, [0x7, 0xB, 0, 0, 0, 0, 0, 0, 0, 0, 0, 0, 0, 0, 0, 0], [0, 0, 0]⟩,
  ⟨0x7E00, [0x6, 0x1, 0, 0, 0, 0, 0, 0, 0, 0, 0, 0, 0, 0, 0, 0], [0, 0, 0]⟩]
def tieRowB : ORow := .narrow [⟨0x7F01, [0x7, 0x1, 0, 0, 0, 0, 0, 0, 0, 0, 0, 0, 0, 0, 0, 0], [0, 0, 0]⟩,
  ⟨0x7F01, [0x2, 0x1, 0, 0, 0, 0, 0, 0, 0, 0, 0, 0, 0, 0, 0, 0], [0, 0, 0]⟩]
/-- A tie decided without a sticky bit (chapter 4). -/
theorem test_chunk_tie :
    (elemChunk 0 32 (readRow 0 0 0 tieRowA).pos (readRow 0 0 0 tieRowB).pos (ElemAcc.start 0) 0).bits = 0x4C0D0000 := by decide +kernel
/-- One position under three plies (chapter 4): 4.125, 4.0390625 and 4.109375. -/
theorem test_multipass : [1, 2, 3].map (fun ply => (elemChunk ply 32 [widePos 0x3FB30000] [widePos 0x403C0000] (ElemAcc.start 0) 0).bits) =
    [0x40840000, 0x40814000, 0x40838000] := by decide +kernel
/-- One image on two caps (chapter 2): the issue fraction and the worst case in microseconds. -/
theorem test_two_caps : issueFraction 1800 520000 2600000 = 40329 ∧ issueFraction 1400 520000 2600000 = 27726 ∧
    worstUs ⟨300000, false, 1800, 153527344, 18000, 6500, 2000, 21000⟩ 40329 = 285107 ∧
    worstUs ⟨300000, false, 1400, 153527344, 18000, 6500, 2000, 21000⟩ 27726 = 393113 := by decide +kernel
/-- The contributions of one element through a restart (chapter 7): at HS -20, then at HS -16. -/
theorem test_restart_contributions : ([0x3CCCCCCD, 0x3C9BA5E3].map fun x => (toWire false (-20) x).1) = [some 26214, some 19923] ∧
    ([0x3CCCCCCD, 0x3C9BA5E3, 0xBB03126F, 0x3C6D9168].map fun x => (toWire false (-16) x).1) = [some 1638, some 1245, some (-131), some 950] := by decide +kernel
/-- One draw under two placements (chapter 8): the counter, keyed and shared. -/
theorem test_draw_counter : counterT 91402 300 2100000 1234 = ⟨0x200004D2, 0x012C200B, 0x650A0000, 1⟩ ∧
    counterT 91402 300 2100000 (1234 - 1234 % 8) = ⟨0x200004D0, 0x012C200B, 0x650A0000, 1⟩ ∧ streamId 0 0 0 12 0 = 0x3000 := by decide +kernel
/-- Ties, top-p and the draw (chapter 8), with tokens 1, 2, 4 and 6 of a small vocabulary at 3.5. -/
theorem test_sampling : ([0xA00000, 0x200000].map fun d =>
      sampleRow [0, 0x40600000, 0x40600000, 0, 0x40600000, 0, 0x40600000] ⟨0, 0x3F4CCCCD, 0x3F333333, 0, 0, 4⟩ d) = [.ok 2 3, .ok 1 3] ∧
    sampleRow [0, 0x40600000, 0x40600000] ⟨0, 0, 0x3F333333, 0, 0, 2⟩ 0 = .ok 1 1 := by decide +kernel
/-- The window spreads 4 KiB pages over the stacks (R283). -/
theorem test_window_pages : windowAddr 0 = 0x1700000000 ∧ windowAddr 0x1000 = 0x3700000000 ∧ windowAddr 0x8004 = 0x1700001004 := by decide +kernel
/-- The first two arbitrations of three classes on one channel (chapter 9), and the fifth winner. -/
theorem test_shuttle_example :
    ((Arbiter.grant { Arbiter.reset with credits := #v[480, 160, 256, 96, 32] } 0b10101).owner,
     (Arbiter.grant { Arbiter.reset with credits := #v[480, 160, 256, 96, 32] } 0b10101).backoff,
     (Arbiter.grant { Arbiter.reset with credits := #v[224, 160, 256, 96, 32] } 0b10101).owner,
     (Arbiter.grant { Arbiter.reset with credits := #v[0, 160, 0, 96, 32] } 0b10101).owner,
     (Arbiter.grant { Arbiter.reset with credits := #v[0, 0, 0, 0, 0] } 0b10101).owner) =
    (some 0, #v[false, false, true, false, true], some 2, some 4, some 0) := by decide +kernel

-- Known answers of the standard algorithms that the spec names.

/-- CRC-32C of the digits 1 to 9: the check value of its catalogue entry. -/
theorem test_crc32c : crc32c (ascii "123456789") = 0xE3069283 := by decide +kernel
/-- SHA-512 of "abc" (FIPS 180-4). -/
theorem test_sha512 : (sha512 (ascii "abc")).reverse.foldr (fun b n => b.toNat + 256 * n) 0 = 0xddaf35a193617abacc417349ae20413112e6fa4e89a97ea20a9eeee64b55d39a2192992a274fc1a836ba3c23a3feebbd454d4423643ce80e2a9ac94fa54ca49f := by decide +kernel
/-- SHAKE256 of the empty message, 32 bytes (FIPS 202). -/
theorem test_shake256 : (shake256 32 []).reverse.foldr (fun b n => b.toNat + 256 * n) 0 = 0x46b9dd2b0ba88d13233b3feb743eeb243fcd52ea62b81b82b50c27646ed5762f := by decide +kernel
/-- Philox4x32-10 with key and counter 0: the vector of its authors. -/
theorem test_philox : philox 0 0 ⟨0, 0, 0, 0⟩ = ⟨0x6627E8D5, 0xE169C58D, 0xBC57AC4C, 0x9B00DBD8⟩ := by decide +kernel

-- One ill-formed command for each check of `WellFormed`.

theorem test_frame_rows_refuse_an_align_frame : ∀ c ∈ (let r := rxOf 0 (mkFrame 0x02 0 0 0 0 0 0 0 [0])
    [Instr.admitRequest r, .admitReply r, .nonfiniteNotice r, .verdict r, .layerCounts r, .shardRatios r, .skipNotice r, .commit r, .skip r,
      .replay r, .halt r, .start r, .decisionQuery r, .hankSegment r, .rescale r, .scaleProposal r, .scaleAgreed r, .factorResult r,
      .paramSegment r, .paramEnd r, .paramResend r, .plyLeaf r, .plyLeafQuery r, .kvBlock r, .hello r, .linkCtrl r, .notReady r]),
    WellFormed.Instr.wf c = false := by decide +kernel
theorem test_frame_longer_than_its_length : WellFormed.Instr.wf (.hello (rxOf 0 { mkFrame 0x03 0 0 0 0 0 0 0 [0, 0] with len := 1 })) = false := by
  decide +kernel
theorem test_ill_formed_commands : ∀ c ∈ ([.bringupStart [0, 1, 2] 0, .bobbinPop 0 0 0 (.spool 0 0) [1, 2, 3] none,
      .bobbinPop 0 0 0 (.spool 0 1572865) [0, 0, 0, 0] none, .tileIssue 1 [.tile tileWork] none, .schedulerWaitTimeout 1 [.tile tileWork],
      .whorlOp { whorlWork with dst := 1572864 }, .copyIn [0] false none, .copyOut 63 none,
      .skeinRequest 0 false 255 (.read 2) [] none, .cxlMemRead 63 2 [] none, .cxlMemWrite 0 [] none, .scrub 0 31 .clean,
      .descriptorConsume 0 [0], .queueEnable 0 6, .queueDisable 0 0x80000000, .stateRequest .host 0, .reportRequest 0, .challenge 0 [],
      .getMeasurements 0 [], .getReport []] : List Instr), WellFormed.Instr.wf c = false := by decide +kernel
theorem test_ill_formed_command_faults : exec (.queueEnable 0 6) readyState = .fault .commandMalformed := rfl

end Sys2Proof.Tests
end

section
/-! Scope of the register space (family 00): the registers that store what is written, the accesses that no register takes, and
the copies that a SNAP register latches. -/

namespace Sys2Proof.Machine

-- BAR0 accesses (R14, R351, R352).

/-- A register stands wherever the block of the offset lists one. -/
theorem mapped_of_mem {s : State} {off : Nat} {v : Word} (h : (off, v) ∈ blockRegs s off) : mapped s off = true := by
  have found : ((blockRegs s off).find? fun r => r.1 == off).isSome = true := List.find?_isSome.2 ⟨_, h, beq_self_eq_true off⟩
  simp [mapped, liveReg, found]

/-- A write in the boot window reaches its register at any time. -/
theorem writeReg_boot {s : State} {off : Nat} (v : Word) (hb : inBootWindow off = true) (ha : off % 4 = 0) (hm : mapped s off = true) :
    writeReg off v s = writeBoot off v s := by
  simp [writeReg, hb, ha, hm]

/-- When READY, a write outside the boot window reaches its block. -/
theorem writeReg_block {s : State} {off : Nat} (v : Word) (hr : isReady s = true) (hb : inBootWindow off = false) (ha : off % 4 = 0)
    (hm : mapped s off = true) : writeReg off v s = writeBlock off v s := by
  simp [writeReg, hr, hb, ha, hm]

/-- The three registers that name a staged image are registers of the HUB_ block. -/
theorem mapped_warpSource (s : State) : mapped s 0x40C = true ∧ mapped s 0x410 = true ∧ mapped s 0x414 = true :=
  ⟨mapped_of_mem (v := s.warp.length) (by simp [blockRegs, warpRegs]),
    mapped_of_mem (v := s.warp.srcLo) (by simp [blockRegs, warpRegs]),
    mapped_of_mem (v := s.warp.srcHi) (by simp [blockRegs, warpRegs])⟩

theorem mapped_bootScratch (s : State) : mapped s 0xFC = true :=
  mapped_of_mem (v := s.hub.bootScratch) (by simp [blockRegs, identityRegs])

/-- An access of another size than four bytes or off a multiple of four is bad wherever it goes. -/
theorem accessBad_of_shape (s : State) {off size : Nat} (h : size ≠ 4 ∨ off % 4 ≠ 0) : accessBad s off size = true := by
  rcases h with h | h <;> simp [accessBad, h]

/-- When READY, a bad write is counted and does nothing else. -/
theorem badBarAccess_write {s : State} {off size : Nat} (hr : isReady s = true) (hbad : accessBad s off size = true) :
    badBarAccess true off size s = badAccess s := by
  simp [badBarAccess, hr, hbad]

/-- A bad read is counted and gives zeros. -/
theorem badBarAccess_read {s : State} {off size : Nat} (hbad : accessBad s off size = true) :
    badBarAccess false off size s = busRead (List.replicate size 0) false (badAccess s) := by
  simp [badBarAccess, hbad]

/-- Settles O9: each of the four registers is mapped, so its write reaches the block, which at a fixed offset computes to the store;
an access of a wrong shape is bad by itself, and `badAccess` is the count. -/
theorem registerAccessRows : Obligations.RegisterAccessRows := by
  intro off n v s
  refine ⟨?_, fun hr => ?_, fun hr hshape => ?_⟩
  · exact congrArg Host.Outcome.next (writeReg_boot v rfl rfl (mapped_bootScratch s))
  · obtain ⟨hlen, hlo, hhi⟩ := mapped_warpSource s
    exact ⟨congrArg Host.Outcome.next (writeReg_block v hr rfl rfl hlen), congrArg Host.Outcome.next (writeReg_block v hr rfl rfl hlo),
      congrArg Host.Outcome.next (writeReg_block v hr rfl rfl hhi)⟩
  · have hbad := accessBad_of_shape s hshape
    exact ⟨congrArg Host.Outcome.next (badBarAccess_write hr hbad), congrArg Host.Outcome.next (badBarAccess_read hbad), rfl⟩

-- SNAP (R13, R406).

/-- Putting values under other keys leaves a key's value. -/
theorem assocGet_foldl_assocPut_of_notMem {α : Type} (d : α) {k : Nat} (regs l : List (Nat × α)) (h : k ∉ regs.map Prod.fst) :
    assocGet d k (regs.foldl (fun l r => assocPut r.1 r.2 l) l) = assocGet d k l := by
  induction regs generalizing l with
  | nil => rfl
  | cons r rs ih =>
    rw [List.map_cons, List.mem_cons, not_or] at h
    obtain ⟨hk, hrs⟩ := h
    rw [List.foldl_cons, ih _ hrs, assocGet_assocPut, if_neg (Ne.symm hk)]

/-- After values under distinct keys are put in turn, each key gives its own. -/
theorem assocGet_foldl_assocPut_of_mem {α : Type} (d : α) {k : Nat} {v : α} (regs l : List (Nat × α))
    (nodup : (regs.map Prod.fst).Nodup) (h : (k, v) ∈ regs) :
    assocGet d k (regs.foldl (fun l r => assocPut r.1 r.2 l) l) = v := by
  induction regs generalizing l with
  | nil => cases h
  | cons r rs ih =>
    rw [List.map_cons, List.nodup_cons] at nodup
    obtain ⟨hr, hrs⟩ := nodup
    rw [List.foldl_cons]
    rcases List.mem_cons.1 h with rfl | h
    · rw [assocGet_foldl_assocPut_of_notMem d rs _ hr, assocGet_assocPut, if_pos rfl]
    · exact ih _ hrs h

/-- When READY, a write of 1 to a SNAP register latches what the register names. -/
theorem execSnap_latches {v : Word} {s : State} (r : SnapReg) (hr : isReady s = true) (hv : wbit v 0 = true) :
    execSnap r v s = .next (latch (snapRegs s r) s) := by
  simp [execSnap, gated, writeSnap, hr, hv]

/-- When READY, a latched register reads as it was at the SNAP whose copies the state still keeps. -/
theorem readReg_of_latched {s u : State} {off : Nat} {v : Word} {regs : List (Nat × Word)} (hr : isReady u = true)
    (hlat : isLatched u off = true) (nodup : (regs.map Prod.fst).Nodup) (hmem : (off, v) ∈ regs)
    (hkept : u.hub.latched = (latch regs s).hub.latched) : readReg u off = v := by
  calc readReg u off = assocGet ((liveReg State.reset off).getD 0) off u.hub.latched := by simp [readReg, hr, hlat]
    _ = v := by rw [hkept]; exact assocGet_foldl_assocPut_of_mem _ regs s.hub.latched nodup hmem

/-- The offsets that the SNAP of WEFT_ latches (R373), the same in every state. -/
def weftLatchedOffs : List Nat :=
  [0x10001C, 0x100020, 0x100128, 0x10012C, 0x100130, 0x100228, 0x10022C, 0x100230]

theorem weftLatched_offs (s : State) : (weftLatched s).map Prod.fst = weftLatchedOffs := rfl

/-- A register latched by the SNAP of WEFT_ is read from its copy. -/
theorem isLatched_of_weft (s : State) {off : Nat} (h : off ∈ weftLatchedOffs) : isLatched s off = true := by
  rw [← weftLatched_offs s] at h
  obtain ⟨x, hx, rfl⟩ := List.mem_map.1 h
  unfold isLatched
  exact List.any_eq_true.2 ⟨.weft, by simp, List.any_eq_true.2 ⟨x, hx, beq_self_eq_true x.1⟩⟩

/-- Every register that the SNAP of WEFT_ latches reads as it was at that SNAP while its copy is kept. -/
theorem readReg_weftLatched {s u : State} {off : Nat} {v : Word} (hr : isReady u = true)
    (hkept : u.hub.latched = (latch (snapRegs s .weft) s).hub.latched) (hmem : (off, v) ∈ weftLatched s) : readReg u off = v := by
  have hoff : off ∈ weftLatchedOffs := weftLatched_offs s ▸ List.mem_map_of_mem hmem
  have nodup : ((weftLatched s).map Prod.fst).Nodup := weftLatched_offs s ▸ by decide
  exact readReg_of_latched hr (isLatched_of_weft u hoff) nodup hmem hkept

/-- Settles O10: a SNAP is `latch`, which changes the latched copies alone; the offsets it latches for WEFT_ are distinct, so each
register reads its own copy. -/
theorem snapLatches : Obligations.SnapLatches := by
  intro v s u hr hv
  refine ⟨fun r => execSnap_latches r hr hv, fun hu hkept => ⟨?_, ?_⟩⟩
  · have low : (0x10001C, ctrLo s kEventsDropped) ∈ weftLatched s := by simp [weftLatched, evtRegs, kEventsDropped]
    exact readReg_weftLatched hu hkept low
  · have high : (0x100020, ctrHi s kEventsDropped) ∈ weftLatched s := by simp [weftLatched, evtRegs, kEventsDropped]
    exact readReg_weftLatched hu hkept high

end Sys2Proof.Machine
end

section
/-! Architecture of the device (family 01): every operation leaves the four memories in canonical form, resets give every block its reset
values, and a skein request is admitted by class and region and then reads or writes what stands there. -/

namespace Sys2Proof.Machine

-- The state carried by a fold beside other data.

/-- A fold whose steps keep the memories of the carried state in canonical form keeps them so. -/
theorem foldl_pair_wf {α β : Type} (p : β → State) (f : β → α → β) (h : ∀ x a, memsWf (p x).mems → memsWf (p (f x a)).mems) (l : List α) (x : β)
    (wf : memsWf (p x).mems) : memsWf (p (l.foldl f x)).mems :=
  List.foldlRecOn (motive := fun x => memsWf (p x).mems) l f wf fun x hx a _ => h x a hx

@[simp] theorem acc_writeWords_wf (s : State) (a : Nat) (ws : List Word) (wf : memsWf s.mems) :
    memsWf ({ s with acc := s.acc.writeWords a ws } : State).mems := by
  have ⟨h, _⟩ := wf
  exact acc_wf s _ wf (Memory.writeWords_wf h a ws)

@[simp] theorem spool_writeWords_wf (s : State) (a : Nat) (ws : List Word) (wf : memsWf s.mems) :
    memsWf ({ s with spool := s.spool.writeWords a ws } : State).mems := by
  have ⟨_, h, _⟩ := wf
  exact spool_wf s _ wf (Memory.writeWords_wf h a ws)

@[simp] theorem creel_writeWords_wf (s : State) (a : Nat) (ws : List Word) (wf : memsWf s.mems) :
    memsWf ({ s with creel := s.creel.writeWords a ws } : State).mems := by
  have ⟨_, _, h, _⟩ := wf
  exact creel_wf s _ wf (Memory.writeWords_wf h a ws)

-- Frames (R318 to R332).

theorem accepted_wf (k : Rx → State → State) (r : Rx) (s : State) (hk : ∀ x y, memsWf y.mems → memsWf (k x y).mems) (wf : memsWf s.mems) :
    memsWf (accepted k r s).mems := by
  unfold accepted
  dsimp only
  split
  · simpa using wf
  · split
    · exact endpoint_wf _ _ _ _ hk (by simpa using wf)
    · split
      · exact endpoint_wf _ _ _ _ hk (by simpa using wf)
      · split <;> simpa using wf

/-- Reception of a sequenced frame keeps the canonical form where the meaning of a delivered frame does. -/
theorem receive_wf (k : Rx → State → State) (r : Rx) (s : State) (hk : ∀ x y, memsWf y.mems → memsWf (k x y).mems) (wf : memsWf s.mems) :
    memsWf (receive k r s).mems := by
  unfold receive
  dsimp only
  split
  · simpa using wf
  · simpa using wf
  · split
    · simpa using wf
    · split
      · exact accepted_wf k r _ hk (by simpa using wf)
      · simpa using wf
  · exact wf

-- The spool window (R143, R144).

theorem windowAccess_wf (core : CoreIx) (word : Nat) (access : Access) (s : State) (wf : memsWf s.mems) :
    memsWf (windowAccess core word access s).mems := by
  unfold windowAccess
  split <;> simp [wf]

theorem spoolWindow_wf (core : CoreIx) (word : Nat) (access : Access) (s : State) (wf : memsWf s.mems) :
    memsWf (spoolWindow core word access s).mems := by
  unfold spoolWindow
  split
  · exact ite_wf _ _ _ (windowAccess_wf core word access s wf) (by simpa using wf)
  · split <;> simpa using wf

-- The treadle and bring-up.

@[simp] theorem hardwareTrip_wf (s : State) (wf : memsWf s.mems) : memsWf (hardwareTrip s).mems := by
  unfold hardwareTrip
  split
  · exact wf
  · exact enterLadder_wf _ _ _ (by split <;> (try split) <;> simpa using wf)

-- Boot stages (R441 to R449).

theorem readRecord_mems (kind generation : Nat) (body : List Byte) (o : Option DevRec) (s : State) :
    (readRecord kind generation body o s).2.mems = s.mems := by
  unfold readRecord
  split
  · rfl
  · split <;> simp

theorem readRecords_mems (s : State) : (readRecords s).mems = s.mems := by
  simp [readRecords, readRecord_mems]

theorem startDistaff_mems (pufOk : Bool) (s : State) : (startDistaff pufOk s).mems = s.mems := by
  simp [startDistaff, readRecords_mems]

theorem startStage_mems (st : BootStage) (stack : StackIx) (pufOk : Bool) (img : List Byte) (s : State) :
    (startStage st stack pufOk img s).mems = s.mems := by
  cases st with
  | distaff => simp [startStage, startDistaff_mems]
  | flyer => simp [startStage]
  | skeinBase => simp [startStage]

theorem bootStage_mems (st : BootStage) (stack : StackIx) (pufOk : Bool) (s : State) : (bootStage st stack pufOk s).mems = s.mems := by
  simp [bootStage, bootFrom, startStage_mems]

-- Skein reads (R292, R302, R306).

@[simp] theorem uncorrectable_wf (addr cls : Nat) (s : State) (wf : memsWf s.mems) : memsWf (uncorrectable addr cls s).mems := by
  unfold uncorrectable
  dsimp only
  split
  · simpa using wf
  · split
    · exact renewParams_wf _ _ _ (by simpa using wf)
    all_goals simpa using wf

theorem decodeWord_wf (cls : Nat) (x : State × Bool) (w : Nat × Ecc) (wf : memsWf x.1.mems) : memsWf (decodeWord cls x w).1.mems := by
  unfold decodeWord
  split
  · simp [wf]
  · split <;> simp [wf]

theorem decodeRead_wf (cls addr len : Nat) (ecc : List Ecc) (s : State) (wf : memsWf s.mems) :
    memsWf (decodeRead cls addr len ecc s).1.mems :=
  foldl_pair_wf Prod.fst _ (decodeWord_wf cls) _ _ wf

@[simp] theorem skeinTake_wf (cls addr n : Nat) (s : State) (wf : memsWf s.mems) : memsWf (skeinTake cls addr n s).1.mems := by
  unfold skeinTake
  split
  · simpa using wf
  · exact decodeRead_wf _ _ _ _ _ (by simpa using wf)

@[simp] theorem skeinTakes_wf (cls : Nat) (ps : List (Nat × Nat)) (s : State) (wf : memsWf s.mems) : memsWf (skeinTakes cls ps s).1.mems :=
  foldl_pair_wf Prod.fst _ (fun _ p h => skeinTake_wf cls p.1 p.2 _ h) _ _ wf

theorem skeinRead_wf (q : SkeinReq) (s : State) (wf : memsWf s.mems) : memsWf (skeinRead q s).mems := by
  have read (len : Nat) : memsWf (decodeRead q.cls q.addr len q.ecc (noteReads q.addr 1 s)).1.mems :=
    decodeRead_wf _ _ _ _ _ (by simpa using wf)
  unfold skeinRead
  split
  · exact ite_wf _ _ _ (by simpa using read _) (by simpa using read _)
  · exact ite_wf _ _ _ (State.storeAt_wf _ _ _ (read _)) (read _)
  · exact wf

@[simp] theorem sramRead_mems (l : Loc) (ecc : List Ecc) (s : State) : (sramRead l ecc s).1.mems = s.mems := by
  unfold sramRead
  dsimp only
  split <;> simp

theorem fromSram_wf (len : Nat) (src : Loc) (ecc : List Ecc) (k : List Byte → State → State) (s : State)
    (hk : ∀ bs t, memsWf t.mems → memsWf (k bs t).mems) (wf : memsWf s.mems) : memsWf (fromSram len src ecc k s).mems := by
  unfold fromSram
  split
  · exact ite_wf _ _ _ (hk _ _ (by simpa using wf)) (by simpa using wf)
  · exact wf

theorem serveRequest_wf (q : SkeinReq) (s : State) (wf : memsWf s.mems) : memsWf (serveRequest q s).mems := by
  unfold serveRequest
  split
  · simpa using wf
  · split
    · exact skeinWrite_wf _ _ _ _ wf
    · exact fromSram_wf _ _ _ _ _ (fun _ _ => skeinWrite_wf _ _ _ _) wf
    · exact fromSram_wf _ _ _ _ _ (fun _ _ => State.storeAt_wf _ _ _) wf
    · exact ite_wf _ _ _ (by simpa using wf) (skeinRead_wf q s wf)

theorem skeinRequest_wf (q : SkeinReq) (s : State) (wf : memsWf s.mems) : memsWf (skeinRequest q s).mems := by
  have serve := serveRequest_wf q s wf
  have refuse : memsWf (q.fails (refuseRequest q.addr q.cls s)).mems := by simpa using wf
  exact ite_wf _ _ _ serve (ite_wf _ _ _ wf (ite_wf _ _ _ refuse (ite_wf _ _ _ wf serve)))

/-- A tick keeps the canonical form: it makes the requests that waited. -/
theorem skeinTick_wf (s : State) (wf : memsWf s.mems) : memsWf (skeinTick s).mems :=
  foldl_wf _ (fun t q => serveRequest_wf q t) _ _ (by simpa using wf)

theorem tick_wf (s : State) (wf : memsWf s.mems) : memsWf (tick s).mems :=
  skeinTick_wf _ (by simpa using wf)

theorem cxlRead_wf (off len : Nat) (ecc : List Ecc) (parity : Option (Fin 8)) (s : State) (wf : memsWf s.mems) :
    memsWf (cxlRead off len ecc parity s).mems :=
  ite_wf _ _ _ (by simpa using wf) (serveRequest_wf _ s wf)

theorem scrubWord_mems (addr : Nat) (kind : ScrubKind) (s : State) : (scrubWord addr kind s).mems = s.mems := by
  unfold scrubWord
  split <;> simp

-- What protection finds in the units (R303 to R306).

theorem unitError_wf (a : AccRef) (e : UnitError) (s : State) (wf : memsWf s.mems) : memsWf (unitError a e s).mems := by
  cases e with
  | skein addr x => exact decodeWord_wf _ _ _ wf
  | accumulator => exact detect_wf _ _ _ _ (by simpa using wf)
  | spool bank => exact detect_wf _ _ _ _ (by simpa using wf)
  | creel bank => exact detect_wf _ _ _ _ (by simpa using wf)
  | parity b addr => exact detect_wf _ _ _ _ (by simpa using wf)
  | table n => simpa [unitError] using wf
  | nepKey g stream => simpa [unitError] using wf
  | corrected words => simpa [unitError] using wf

@[simp] theorem unitErrors_wf (a : AccRef) (e : Option UnitError) (s : State) (wf : memsWf s.mems) : memsWf (unitErrors a e s).mems := by
  cases e with
  | none => exact wf
  | some x => exact unitError_wf a x s wf

@[simp] theorem engineError_wf (cls cluster : Nat) (e : Option UnitError) (s : State) (wf : memsWf s.mems) :
    memsWf (engineError cls cluster e s).1.mems := by
  unfold engineError
  split
  case h_9 => exact decodeWord_wf _ _ _ wf
  all_goals simpa using wf

-- The bobbin (R187 to R194).

@[simp] theorem takeGrain_wf (stage : Nat) (g : Grain) (s : State) (wf : memsWf s.mems) : memsWf (takeGrain stage g s).1.mems := by
  unfold takeGrain
  split
  · exact wf
  · exact skeinTake_wf _ _ _ _ wf
  · exact wf

theorem takeGrains_wf (stage : Nat) (gs : List Grain) (s : State) (wf : memsWf s.mems) : memsWf (takeGrains stage gs s).1.mems := by
  refine foldl_pair_wf Prod.fst _ (fun x g h => ?_) _ _ wf
  exact takeGrain_wf stage g x.1 h

theorem takePieces_wf (ps : List (Loc × Nat)) (s : State) (wf : memsWf s.mems) : memsWf (takePieces ps s).1.mems := by
  refine foldl_pair_wf Prod.fst _ (fun x p h => ?_) _ _ wf
  dsimp only
  split
  · exact skeinTake_wf _ _ _ _ h
  · exact h

theorem pushRecord_wf (l : Layer) (mb : Nat) (p : PushSpec) (s : State) (wf : memsWf s.mems) : memsWf (pushRecord l mb p s).mems := by
  unfold pushRecord
  split
  next => exact wf
  next b f _ =>
    dsimp only
    split
    next => exact wf
    next ps _ =>
      have taken := takePieces_wf ps s wf
      have put (n : Nat) (bs : Nat → List Byte) (f : BobStage → BobStage) :
          memsWf ((List.range n).foldl (fun t i => addGrain l.stage b.pushes (bs i) t) (onBobbin l.stage f (takePieces ps s).1)).mems :=
        foldl_wf _ (fun t i h => addGrain_wf _ _ _ t h) _ _ (by simpa using taken)
      split
      · exact taken
      · exact ite_wf _ _ _ (by simpa using put _ _ _) (put _ _ _)

theorem prefetchGrain_wf (stage number i : Nat) (s : State) (wf : memsWf s.mems) : memsWf (prefetchGrain stage number i s).mems := by
  unfold prefetchGrain
  split
  · exact wf
  · split
    · exact wf
    · split
      · split
        · exact wf
        · dsimp only
          split <;> simp [wf]
      · exact wf

theorem prefetchNext_wf (stage mb : Nat) (s : State) (wf : memsWf s.mems) : memsWf (prefetchNext stage mb s).mems := by
  unfold prefetchNext
  split
  · exact foldl_wf _ (fun t i => prefetchGrain_wf stage _ i t) _ _ wf
  · exact wf

theorem popRecord_wf (stage mb layer : Nat) (dst : Loc) (damage : List Word) (err : Option UnitError) (s : State) (wf : memsWf s.mems) :
    memsWf (popRecord stage mb layer dst damage err s).mems := by
  unfold popRecord
  split
  · exact wf
  · split
    · dsimp only
      have taken (r : BobRecord) :=
        prefetchNext_wf stage mb (onBobbin stage (BobStage.pop mb) (takeGrains stage r.grains (engineError 1 (Loc.sram dst).1 err s).1).1)
          (by simpa using takeGrains_wf stage r.grains _ (engineError_wf 1 (Loc.sram dst).1 err s wf))
      split
      · exact taken _
      · exact ite_wf _ _ _ (State.storeAt_wf _ _ _ (by simpa using taken _)) (by simpa using taken _)
    · exact wf

-- Shards and initialisation (R200, R270).

@[simp] theorem readShard_wf (p : Hank) (s : State) (wf : memsWf s.mems) : memsWf (readShard p s).1.mems :=
  skeinTakes_wf 3 _ s wf

@[simp] theorem keyError_wf (e : Option UnitError) (s : State) (wf : memsWf s.mems) : memsWf (keyError e s).mems :=
  engineError_wf 3 tableUnit e s wf

-- Narrow and wide writes (R97, R145).

theorem streamDraws_mems (id : Word) (core n : Nat) (coord : Nat → Nat × Nat × Nat) (s : State) :
    (streamDraws id core n coord s).2.mems = s.mems := by
  unfold streamDraws
  split
  · rfl
  · split
    · exact State.onCore_mems ..
    · rfl

theorem writeNarrowRow_wf (w : Writer) (d : NarrowDest) (c : Layer) (wf : WriteFmt) (x : Wrote × Counts) (p : List Word × Nat)
    (h : memsWf x.1.st.mems) : memsWf (writeNarrowRow w d c wf x p).1.st.mems := by
  have drawn : memsWf (if w.draws then streamDraws (w.stream d) w.core p.1.length (w.coord x.1.st d.tokenAxis p.2) x.1.st
      else (none, x.1.st)).2.mems := by
    split
    · rw [streamDraws_mems]; exact h
    · exact h
  exact State.storeAt_wf _ _ _ (State.storeAt_wf _ _ _ (State.storeAt_wf _ _ _ drawn))

theorem writeNarrow_wf (w : Writer) (d : NarrowDest) (rows : List (List Word)) (x : Wrote) (wf : memsWf x.st.mems) :
    memsWf (writeNarrow w d rows x).st.mems := by
  unfold writeNarrow
  split
  · exact wf
  · split
    · exact wf
    · dsimp only
      rw [countFor_mems]
      exact foldl_pair_wf (fun y : Wrote × Counts => y.1.st) _ (writeNarrowRow_wf w d _ _) _ _ wf

theorem writeWide_wf (half : Bool) (base : Loc) (stride : Nat) (rows : List (List Word)) (x : Wrote) (wf : memsWf x.st.mems) :
    memsWf (writeWide half base stride rows x).st.mems :=
  foldl_pair_wf Wrote.st _ (fun _ _ h => State.storeAt_wf _ _ _ h) _ _ wf

theorem plyCheck_wf (u : PlyUnit) (rows : Nat → List ORow × List ORow) (re : Option ReExec) (s : State) (wf : memsWf s.mems) :
    memsWf (plyCheck u rows re s).mems := by
  unfold plyCheck
  split
  · dsimp only
    split
    · simpa using wf
    · split
      · simpa using wf
      · split
        · simpa using wf
        · exact plyMismatch_wf _ _ _ _ _ (by simpa using wf)
  · exact wf

-- Engine tiles (R116 to R137).

@[simp] theorem putRun_wf (a : AccRef) (r : TileRun) (s : State) (wf : memsWf s.mems) : memsWf (putRun a r s).mems := by
  simp [putRun, wf]

theorem loadStart_wf (a : AccRef) (t : TileWork) (s : State) (wf : memsWf s.mems) : memsWf (loadStart a t s).mems := by
  unfold loadStart
  split
  · rw [State.onTile_mems]; exact acc_writeWords_wf s _ _ wf
  · simp [wf]
  · split
    · simp [wf]
    · exact wf

theorem parkTile_wf (p : Option SlotRef) (a : AccRef) (s : State) (wf : memsWf s.mems) : memsWf (parkTile p a s).mems := by
  cases p with
  | none => exact wf
  | some r => simp [parkTile, wf]

theorem runPart_wf (a : AccRef) (t : TileWork) (l : Layer) (s : State) (wf : memsWf s.mems) : memsWf (runPart a t l s).mems := by
  simp [runPart, wf]

theorem issueTile_wf (a : AccRef) (t : TileWork) (err : Option UnitError) (s : State) (wf : memsWf s.mems) :
    memsWf (issueTile a t err s).mems := by
  unfold issueTile
  split
  · exact wf
  · have start : memsWf (loadStart a t (noteIssued t (beginB t.phase s))).mems := loadStart_wf _ _ _ (by simpa using wf)
    exact parkTile_wf _ _ _ (unitErrors_wf _ _ _ (ite_wf _ _ _ (faultTile_wf _ _ _ start) (runPart_wf _ _ _ _ start)))

theorem slubRun_wf (a : AccRef) (w : TileWork) (l : Layer) (parts : List TileWork) (s : State) (wf : memsWf s.mems) :
    memsWf (slubRun a w l parts s).mems := by
  simp [slubRun, wf]

theorem slubPass_wf (a : AccRef) (err : Option UnitError) (s : State) (wf : memsWf s.mems) : memsWf (slubPass a err s).mems := by
  unfold slubPass
  split
  · split
    · refine ite_wf _ _ _ (unitErrors_wf _ _ _ (ite_wf _ _ _ ?_ ?_)) wf
      · exact faultTile_wf _ _ _ (by simpa using wf)
      · exact slubRun_wf _ _ _ _ _ (by simpa using wf)
    · exact wf
  · exact wf

theorem drainDest_wf (d : DrainSpec) (w : TileWork) (l : Layer) (rows pre : List (List Word)) (x : Wrote) (dest : Dest)
    (wf : memsWf x.st.mems) : memsWf (drainDest d w l rows pre x dest).st.mems := by
  cases dest with
  | narrow nd => exact writeNarrow_wf _ _ _ _ wf
  | wide half base stride => exact writeWide_wf _ _ _ _ _ wf
  | preAct base stride => exact writeWide_wf _ _ _ _ _ wf
  | wire tag tile group => exact contribute_wf _ _ _ _ _ wf

theorem afterWork_wf (l : Layer) (p : Phase) (mb : Nat) (push : Option PushSpec) (ring : Option RingSend) (m : Option RingMove) (last : Bool)
    (before s : State) (wf : memsWf s.mems) : memsWf (afterWork l p mb push ring m last before s).mems := by
  have pushed : memsWf (match push with | some x => pushRecord l mb x s | none => s).mems := by
    split
    · exact pushRecord_wf _ _ _ _ wf
    · exact wf
  unfold afterWork
  rw [noteEnds_mems, sendNewFactors_mems, noteLast_mems]
  refine moveRing_wf _ _ _ _ ?_
  cases ring with
  | none => exact pushed
  | some r => rw [ringSend_mems]; exact pushed

theorem drainTile_wf (d : DrainSpec) (w : TileWork) (l : Layer) (s : State) (wf : memsWf s.mems) : memsWf (drainTile d w l s).mems := by
  have reported (fl : Flags) (sets : List InvalidAt) : memsWf (coreReports d.acc.core.val fl sets (unitErrors d.acc d.err s)).mems := by
    simp [wf]
  refine afterWork_wf _ _ _ _ _ _ _ _ _ ?_
  rw [layerTiles_mems, State.onTile_mems, drainFlags_mems]
  refine plyCheck_wf _ _ _ _ ?_
  rw [State.onTile_mems]
  split
  · exact faultTile_wf _ _ _ (reported _ _)
  · exact foldl_pair_wf Wrote.st _ (drainDest_wf d w l _ _) _ _ (reported _ _)

theorem tileDrain_wf (d : DrainSpec) (s : State) (wf : memsWf s.mems) : memsWf (tileDrain d s).mems := by
  unfold tileDrain
  split
  · dsimp only
    split
    · split
      · exact drainTile_wf _ _ _ _ (slubPass_wf _ _ _ wf)
      · exact wf
    · exact wf
  · exact wf

-- Whorl operations (R138 to R140, R198, R211).

theorem whorlError_wf (core : CoreIx) (e : Option UnitError) (s : State) (wf : memsWf s.mems) : memsWf (whorlError core e s).mems := by
  unfold whorlError
  split
  · exact wf
  · exact unitErrors_wf _ _ _ wf

theorem whorlSkein_wf (w : WhorlWork) (s : State) (wf : memsWf s.mems) : memsWf (whorlSkein w s).1.mems := by
  unfold whorlSkein
  split
  · exact skeinTake_wf _ _ _ _ wf
  · exact wf

theorem whorlOp_wf (w : WhorlWork) (l : Layer) (s : State) (wf : memsWf s.mems) : memsWf (whorlOp w l s).mems := by
  have read : memsWf (whorlSkein w (whorlError w.core w.err (beginB w.phase s))).1.mems :=
    whorlSkein_wf _ _ (whorlError_wf _ _ _ (by simpa using wf))
  refine ite_wf _ _ _ (by simpa using read) (afterWork_wf _ _ _ _ _ _ _ _ _ (plyCheck_wf _ _ _ _ ?_))
  rw [stepFlags_mems]
  refine foldl_pair_wf Wrote.st _ (fun y nd h => writeNarrow_wf _ _ _ _ h) _ _ ?_
  rw [coreReports_mems, readEvents_mems]
  exact State.storeAt_wf _ _ _ (whorlEffect_wf _ _ _ _ read)

-- Descriptors (R361 to R369).

theorem sampleRequest_mems (id : Word) (logits : List Word) (r : Request) (s : State) : (sampleRequest id logits r s).2.mems = s.mems := by
  unfold sampleRequest
  split <;> simp

theorem runInfer_wf (d : Desc) (b : BatchIn) (reqTable : List Word) (err : Option UnitError) (s : State) (wf : memsWf s.mems) :
    memsWf (runInfer d b reqTable err s).mems := by
  unfold runInfer
  rw [completeHead_mems, hostWrite_mems]
  refine foldl_pair_wf Prod.snd _ (fun acc i h => ?_) _ _ (keyError_wf err s wf)
  rw [sampleRequest_mems]
  exact h

theorem stepHead_wf (table tokens : List Word) (poison : Option Nat) (d : Desc) (s : State) (wf : memsWf s.mems) :
    memsWf (stepHead table tokens poison d s).mems :=
  ite_wf _ _ _ wf (checkedHead_wf _ _ _ _ (fun _ => acceptStep_wf _ _ _) wf)

theorem inferHead_wf (table tokens reqTable : List Word) (poison : Option Nat) (err : Option UnitError) (d : Desc) (s : State)
    (wf : memsWf s.mems) : memsWf (inferHead table tokens reqTable poison err d s).mems :=
  ite_wf _ _ _ wf (checkedHead_wf _ _ _ _ (fun _ => runInfer_wf _ _ _ _ _) wf)

theorem copyRun_wf (isIn poison : Bool) (k : Desc → Nat → State → State) (s : State) (hk : ∀ d n t, memsWf t.mems → memsWf (k d n t).mems)
    (wf : memsWf s.mems) : memsWf (copyRun isIn poison k s).mems := by
  unfold copyRun
  dsimp only
  split
  · exact ite_wf _ _ _ (hk _ _ _ wf) wf
  · exact atHead_wf _ _ _ _ (fun d t h => checkedHead_wf _ _ _ _ (fun u hu => hk _ _ _ (by simpa using hu)) h) wf

theorem windowPut_wf (err : Option UnitError) (off : Nat) (bs : List Byte) (s : State) (wf : memsWf s.mems) :
    memsWf (windowPut err off bs s).mems := by
  have made := engineError_wf 0 tableUnit err s wf
  exact ite_wf _ _ _ (windowWrite_wf _ _ _ made) made

theorem windowTake_wf (err : Option UnitError) (off n : Nat) (s : State) (wf : memsWf s.mems) : memsWf (windowTake err off n s).1.mems :=
  skeinTakes_wf _ _ _ (engineError_wf 0 tableUnit err s wf)

theorem copyInRun_wf (data : List Byte) (poisoned : Bool) (err : Option UnitError) (d : Desc) (moved : Nat) (s : State) (wf : memsWf s.mems) :
    memsWf (copyInRun data poisoned err d moved s).mems := by
  unfold copyInRun
  split
  · simpa using wf
  · simpa using windowPut_wf _ _ _ _ wf

theorem copyOutRun_wf (bytes : Nat) (err : Option UnitError) (d : Desc) (moved : Nat) (s : State) (wf : memsWf s.mems) :
    memsWf (copyOutRun bytes err d moved s).mems := by
  unfold copyOutRun
  dsimp only
  rw [copyMoved_mems]
  split
  · simpa using windowTake_wf _ _ _ _ wf
  · exact windowTake_wf _ _ _ _ wf

-- Checkpoints (R399 to R403).

theorem sealKey_mems (s : State) : (sealKey s).2.mems = s.mems := by
  unfold sealKey
  split <;> rfl

theorem readShards_wf (err : Option UnitError) (s : State) (wf : memsWf s.mems) : memsWf (readShards err s).1.mems := by
  refine foldl_pair_wf Prod.fst _ (fun x p h => ?_) _ _ (engineError_wf 3 tableUnit err s wf)
  exact readShard_wf p x.1 h

theorem saveHead_wf (err : Option UnitError) (d : Desc) (s : State) (wf : memsWf s.mems) : memsWf (saveHead err d s).mems := by
  unfold saveHead
  refine ite_wf _ _ _ wf (checkedHead_wf _ _ _ _ (fun t h => ?_) wf)
  have read := readShards_wf err t h
  have sealed : memsWf (if (readShards err t).2 then sealKey (readShards err t).1 else (none, (readShards err t).1)).2.mems := by
    split
    · rw [sealKey_mems]; exact read
    · exact read
  dsimp only
  split
  next im key t1 _ hseal =>
    rw [hseal] at sealed
    exact checkedHead_wf _ _ _ _ (fun u hu => by simpa using hu) sealed
  next => exact checkedHead_wf _ _ _ _ (fun _ hu => hu) sealed

theorem restoreFrom_wf (im : Image) (b : Bundle) (s : State) (wf : memsWf s.mems) : memsWf (restoreFrom im b s).mems := by
  unfold restoreFrom
  rw [raiseExec_mems, sendLeaves_mems]
  exact emitOwn_wf _ (by rw [awaitParams_mems]; exact initVectors_wf _ (restoreShards_wf _ _ _ wf))

theorem restoreHead_wf (buffer : List Byte) (poisoned : Bool) (d : Desc) (s : State) (wf : memsWf s.mems) :
    memsWf (restoreHead buffer poisoned d s).mems := by
  refine checkedHead_wf _ _ _ _ (fun t h => ?_) wf
  split
  · exact h
  · dsimp only
    split
    · simpa using h
    · split
      · rw [completeHead_mems]; exact restoreFrom_wf _ _ _ h
      · exact h

theorem readTimeout_wf (q : QueueIx) (table tokens reqTable : List Word) (word : Nat) (s : State) (wf : memsWf s.mems) :
    memsWf (readTimeout q table tokens reqTable word s).mems := by
  unfold readTimeout
  split
  · exact wf
  · split
    · exact ite_wf _ _ _ (copyInRun_wf _ _ _ _ _ _ (by simpa using wf)) wf
    all_goals simpa using wf

-- The loader and the registers.

theorem writeUnload_mems (cont : Bool) (s : State) : (writeUnload cont s).mems = s.mems := by
  unfold writeUnload
  split
  · simp
  · split <;> simp

theorem feasibilityStage_wf (s : State) (wf : memsWf s.mems) : memsWf (feasibilityStage s).mems := by
  unfold feasibilityStage
  split
  · exact checkPlaces_wf _ _ _ (fun t h => deadlineStage_wf _ _ h) wf
  · exact wf

theorem writeHub_mems (off : Nat) (val : Word) (s : State) : (writeHub off val s).mems = s.mems := by
  have ctrl : (writeWarpCtrl val s).mems = s.mems := by
    unfold writeWarpCtrl
    split <;> simp [writeUnload_mems]
  simp [writeHub, ctrl]

theorem writeSpd_wf (c : CoreIx) (r : Nat) (val : Word) (s : State) (wf : memsWf s.mems) : memsWf (writeSpd c r val s).mems := by
  have window := spoolWindow_wf c ((r - 0x8000) / 4) (.write val) s wf
  unfold writeSpd
  refine ite_wf _ _ _ ?_ (ite_wf _ _ _ ?_ (ite_wf _ _ _ ?_ (ite_wf _ _ _ ?_ (ite_wf _ _ _ ?_ (ite_wf _ _ _ window wf)))))
  all_goals simpa using wf

theorem writeBlock_wf (off : Nat) (val : Word) (s : State) (wf : memsWf s.mems) : memsWf (writeBlock off val s).mems := by
  unfold writeBlock
  refine ite_wf _ _ _ (by rw [writeHub_mems]; exact wf) ?_
  refine ite_wf _ _ _ (by simpa using wf) (ite_wf _ _ _ (writeTrd_wf _ _ _ wf) (ite_wf _ _ _ (by simpa using wf)
    (ite_wf _ _ _ (by simpa using wf) (ite_wf _ _ _ (by simpa using wf) (ite_wf _ _ _ (by simpa using wf) ?_)))))
  split
  · exact writeSpd_wf _ _ _ _ wf
  · simpa using wf
  · exact wf

theorem writeReg_wf (off : Nat) (val : Word) (s : State) (wf : memsWf s.mems) : memsWf (writeReg off val s).mems :=
  ite_wf _ _ _ (by simpa using wf) (ite_wf _ _ _ (by simpa using wf) (ite_wf _ _ _ (by simpa using wf) (writeBlock_wf _ _ _ wf)))

-- The readiness scheduler (R183 to R186).

theorem prefetch_wf (cl : ClusterIx) (ready : List Work) (issued : Work) (s : State) (wf : memsWf s.mems) :
    memsWf (prefetch cl ready issued s).mems :=
  foldl_pair_wf Prod.fst _ (fun _ _ h => by simpa [prefetchCore] using h) _ _ wf

theorem issueWork_wf (cl : ClusterIx) (err : Option UnitError) (s : State) (w : Work) (wf : memsWf s.mems) :
    memsWf (issueWork cl err s w).mems := by
  unfold issueWork
  split
  · split
    · rw [noteEnds_mems]; exact issueTile_wf _ _ _ _ wf
    · exact wf
  · exact tileDrain_wf _ _ wf
  · split
    · exact whorlOp_wf _ _ _ wf
    · exact wf

theorem tileIssue_wf (cl : ClusterIx) (ready : List Work) (err : Option UnitError) (s : State) (wf : memsWf s.mems) :
    memsWf (tileIssue cl ready err s).mems := by
  refine ite_wf _ _ _ wf (ite_wf _ _ _ (by simpa using wf) ?_)
  split
  · exact prefetch_wf _ _ _ _ (issueWork_wf _ _ _ _ wf)
  · exact wf

@[simp] theorem ite_memsWf (c : Prop) [Decidable c] (a b : Memory × Memory × Memory × Memory) (ha : memsWf a) (hb : memsWf b) :
    memsWf (if c then a else b) := by
  split
  · exact ha
  · exact hb

/-- Every next state that an outcome gives has its memories in canonical form. -/
def outWf (o : Out) : Prop := ∀ t, o = .next t → memsWf t.mems

theorem outWf_next {t : State} (h : memsWf t.mems) : outWf (.next t) := by
  rintro _ ⟨⟩
  exact h

theorem outWf_checked (ok : Bool) {t : State} (h : memsWf t.mems) : outWf (checked ok t) := by
  unfold checked
  split
  · exact outWf_next h
  · rintro _ ⟨⟩

-- Rows whose meaning splits on more than their operands' form.

theorem execUpdateShard_wf (tag : BitVec 20) (err : Option UnitError) (s : State) (wf : memsWf s.mems) : outWf (execUpdateShard tag err s) := by
  refine outWf_next ?_
  split
  next im p x h _ _ _ _ =>
    split
    · have read := readShard_wf p _ (engineError_wf 3 tableUnit err s wf)
      exact ite_wf _ _ _ (ite_wf _ _ _ (updateShard_wf _ _ _ _ _ read) read) wf
    · exact wf
  next => exact wf

theorem execUpdateSegmentCheck_wf (tag : BitVec 20) (segment : Nat) (faulty : Option (List Word)) (s : State) (wf : memsWf s.mems) :
    outWf (execUpdateSegmentCheck tag segment faulty s) := by
  refine outWf_next ?_
  split
  · exact segmentCheck_wf _ _ _ wf
  · exact wf

theorem execWhorlOp_wf (w : WhorlWork) (s : State) (wf : memsWf s.mems) : outWf (execWhorlOp w s) := by
  refine outWf_checked _ ?_
  split
  · exact ite_wf _ _ _ (whorlOp_wf _ _ _ wf) wf
  · exact wf

theorem execInitialisation_wf (err : Option UnitError) (s : State) (wf : memsWf s.mems) : outWf (execInitialisation err s) := by
  refine outWf_next (ite_wf _ _ _ ?_ wf)
  rw [sendLeaves_mems]
  exact emitOwn_wf _ (by rw [awaitParams_mems]; exact initJob_wf _ (keyError_wf err s wf))

theorem execDistribute_wf (s : State) (wf : memsWf s.mems) : outWf (execDistribute s) := by
  refine outWf_next ?_
  split
  · exact acceptLoad_wf _ _ wf
  · exact wf

theorem execCxlMemRead_wf (addr : BitVec 64) (len : Nat) (ecc : List Ecc) (parity : Option (Fin 8)) (s : State) (wf : memsWf s.mems) :
    outWf (execCxlMemRead addr len ecc parity s) := by
  refine outWf_checked _ ?_
  split
  · exact cxlRead_wf _ _ _ _ _ wf
  · exact wf

theorem execCxlMemWrite_wf (addr : BitVec 64) (data : List Byte) (parity : Option (Fin 8)) (s : State) (wf : memsWf s.mems) :
    outWf (execCxlMemWrite addr data parity s) := by
  refine outWf_checked _ ?_
  split
  · exact cxlWrite_wf _ _ _ _ wf
  · exact wf

theorem execStateRequest_wf (who : Requester) (val : Word) (s : State) (wf : memsWf s.mems) : outWf (execStateRequest who val s) := by
  cases who with
  | host => exact outWf_checked _ (ite_wf _ _ _ (writeTrdCtrl_wf _ _ _ wf) wf)
  | distaff => exact outWf_checked _ (managed_wf _ _ (fun _ => writeTrdCtrl_wf _ _ _) wf)

theorem execEmergencyCommand_wf (on : Bool) (s : State) (wf : memsWf s.mems) : outWf (execEmergencyCommand on s) := by
  refine outWf_next (managed_wf _ _ (fun t h => ?_) wf)
  cases on with
  | true => exact assertEmergency_wf _ _ h
  | false => exact releaseEmergency_wf _ _ h

theorem execHostWriteTimeout_wf (ring : HostRing) (s : State) (wf : memsWf s.mems) : outWf (execHostWriteTimeout ring s) := by
  cases ring with
  | completion q => exact outWf_next (by simp [wf])
  | eventRing => exact outWf_next (by simp [wf])
  | report => exact outWf_next (by simp [wf])

theorem execBootStageVerified_wf (stage : BootStage) (stack : StackIx) (pufOk : Bool) (s : State) (wf : memsWf s.mems) :
    outWf (execBootStageVerified stage stack pufOk s) := by
  refine outWf_next (ite_wf _ _ _ wf ?_)
  split <;> simp [bootStage_mems, wf]

theorem execGetMeasurements_wf (index : Nat) (nonce : List Byte) (s : State) (wf : memsWf s.mems) :
    outWf (execGetMeasurements index nonce s) := by
  refine outWf_checked _ ?_
  rw [whenReady_mems]
  · exact wf
  · intro t
    dsimp only
    split <;> simp

theorem execPhysicalTrainingDone_wf (port : PortIx) (lanes : BitVec 8) (rtt : Word) (s : State) (wf : memsWf s.mems) :
    outWf (execPhysicalTrainingDone port lanes rtt s) := by
  refine outWf_next (ite_wf _ _ _ wf ?_)
  split <;> simp [wf]

theorem execAlign_wf (port : PortIx) (num : Word) (s : State) (wf : memsWf s.mems) : outWf (execAlign port num s) := by
  refine outWf_next ?_
  split
  · split <;> simp [wf]
  · split <;> simp [wf]
  · exact wf

/-- Every command keeps the canonical form. Where a row changes a memory, it does so by an operation that keeps it. -/
theorem exec_wf (c : Instr) (s : State) (wf : memsWf s.mems) : outWf (exec c s) := by
  cases c with
  -- Frames: reel messages, decisions, verdict sets, and those that leave the memories.
  | hankSegment | rescale | scaleProposal | scaleAgreed | factorResult | paramSegment | paramEnd | paramResend | plyLeaf | plyLeafQuery
  | kvBlock => exact outWf_checked _ (receive_wf _ _ _ onReelFrame_wf wf)
  | commit | skip | replay | halt | start => exact outWf_checked _ (receive_wf _ _ _ onDecision_wf wf)
  | admitRequest => exact outWf_checked _ (receive_wf _ _ _ onAdmitRequest_wf wf)
  | verdict => exact outWf_checked _ (receive_wf _ _ _ onVerdict_wf wf)
  | layerCounts => exact outWf_checked _ (receive_wf _ _ _ onCounts_wf wf)
  | shardRatios => exact outWf_checked _ (receive_wf _ _ _ onRatios_wf wf)
  | admitReply | nonfiniteNotice | skipNotice | decisionQuery | hello | linkCtrl | notReady => exact outWf_checked _ (by simp [wf])
  -- Tiles, whorls, the bobbin and the update engines.
  | tileIssue cluster ready err => exact outWf_checked _ (tileIssue_wf _ _ _ _ wf)
  | slubPass acc err => exact outWf_next (ite_wf _ _ _ (by rw [noteEnds_mems]; exact slubPass_wf _ _ _ wf) wf)
  | tileDrain d => exact outWf_next (tileDrain_wf _ _ wf)
  | whorlOp w => exact execWhorlOp_wf w s wf
  | bobbinPop stage microBatch layer dst damage err => exact outWf_checked _ (popRecord_wf _ _ _ _ _ _ _ wf)
  | updateShard tag err => exact execUpdateShard_wf tag err s wf
  | updateSegmentCheck tag segment faulty => exact execUpdateSegmentCheck_wf tag segment faulty s wf
  | initialisation err => exact execInitialisation_wf err s wf
  -- Skein and the host's window.
  | skeinRequest cls byLoader addr op ecc parity => exact outWf_checked _ (ite_wf _ _ _ (skeinRequest_wf _ _ wf) wf)
  | cxlMemRead addr len ecc parity => exact execCxlMemRead_wf addr len ecc parity s wf
  | cxlMemWrite addr data parity => exact execCxlMemWrite_wf addr data parity s wf
  | scrub => exact outWf_checked _ (by simp [scrubWord_mems, wf])
  -- Registers, the loader and the descriptors.
  | registerWrite off val => exact outWf_next (writeReg_wf _ _ _ wf)
  | spoolWindowAccess core word access => exact outWf_next (spoolWindow_wf _ _ _ _ wf)
  | unload cont => exact outWf_next (by simp [writeUnload_mems, wf])
  | feasibility => exact outWf_next (ite_wf _ _ _ (feasibilityStage_wf _ wf) wf)
  | distribute => exact execDistribute_wf s wf
  | step seqTable tokens poisonAt => exact outWf_next (atHead_wf _ _ _ _ (stepHead_wf _ _ _) wf)
  | infer seqTable tokens reqTable poisonAt err => exact outWf_next (atHead_wf _ _ _ _ (inferHead_wf _ _ _ _ _) wf)
  | ckptSave err => exact outWf_next (atHead_wf _ _ _ _ (saveHead_wf err) wf)
  | ckptRestore buffer poisoned => exact outWf_next (atHead_wf _ _ _ _ (restoreHead_wf buffer poisoned) wf)
  | copyIn data poisoned err => exact outWf_checked _ (copyRun_wf _ _ _ _ (copyInRun_wf data poisoned err) wf)
  | copyOut bytes err => exact outWf_checked _ (copyRun_wf _ _ _ _ (copyOutRun_wf bytes err) wf)
  | dataReadTimeout q seqTable tokens reqTable word => exact outWf_next (readTimeout_wf _ _ _ _ _ _ wf)
  | hostWriteTimeout ring => exact execHostWriteTimeout_wf ring s wf
  -- The treadle, resets and bring-up.
  | stateRequest who val => exact execStateRequest_wf who val s wf
  | emergencyCommand on => exact execEmergencyCommand_wf on s wf
  | bootStageVerified stage stack pufOk => exact execBootStageVerified_wf stage stack pufOk s wf
  | bringupStart => exact outWf_checked _ (by split <;> simp [wf])
  -- SPDM and the ports.
  | getMeasurements index nonce => exact execGetMeasurements_wf index nonce s wf
  | keyExchange => exact outWf_next (by rw [whenReady_mems]; exacts [wf, fun t => by dsimp only; split <;> rfl])
  | physicalTrainingDone port lanes rtt => exact execPhysicalTrainingDone_wf port lanes rtt s wf
  | align port num => exact execAlign_wf port num s wf
  -- Rows that split on what a port, a hank or an arbiter holds, and change none of the memories.
  | scaleAgreementTimeout | hankTimeout | paramEndTimeout | nepTestDone | arbitration | burstLimit | trainingAttemptTimeout | idle | idleSend
  | alignSend | linkCtrlSend | vc0CreditTimeout | bootStageTimeout | samplePreload => exact outWf_next (by split <;> simp [wf])
  | kvBlockTimeout => exact outWf_next (ite_wf _ _ _ (by rw [noteEnds_mems]; split <;> simp [wf]) wf)
  -- Rows made of block updates and of operations that have a lemma, with and without a check of their operands' form.
  | schedulerWaitTimeout | descriptorConsume | queueEnable | queueDisable | challenge | getReport | reportRequest =>
    exact outWf_checked _ (by simp [wf])
  | _ => exact outWf_next (by simp [wf])

/-- Settles O3: with no command waiting the step is a tick, which keeps the canonical form; else it is the meaning of the front
command, which keeps it by `exec_wf`. -/
theorem stepKeepsMemoriesCanonical : Obligations.StepKeepsMemoriesCanonical := by
  intro s t wf h
  unfold step at h
  split at h
  next =>
    injection h with ht
    exact ht ▸ tick_wf s wf
  next c rest _ => exact exec_wf c { s with pending := rest } wf t h

/-- Settles O4: at reset the four memories are empty lists, which are in canonical form by computation. -/
theorem resetMemoriesCanonical : Obligations.ResetMemoriesCanonical :=
  ⟨⟨rfl, rfl, rfl, rfl⟩, rfl, rfl, rfl, rfl⟩

-- The tick on an empty queue (R41, R292).

/-- With no report being written, the report unit does nothing at a tick. -/
theorem reportTick_of_none {s : State} (h : s.sec.reporting = none) : reportTick s = s := by
  simp [reportTick, h]

/-- With no read waiting, a tick of the skein bases frees their outstanding granules and does nothing else. -/
theorem skeinTick_of_none {s : State} (h : s.skn.waiting = []) :
    skeinTick s = { s with skn := { s.skn with stk := s.skn.stk.map fun x => { x with outstanding := 0 } } } := by
  simp [skeinTick, h, State.onSkn]

/-- Settles O2: neither the report unit nor the skein bases have anything to serve, so the tick is the advance of the two clocks and
the freeing of the granules. -/
theorem emptyQueueTicks : Obligations.EmptyQueueTicks := by
  intro s hqueue hwaiting hreport
  have ticked : step s = .next (tick s) := by simp [step, hqueue]
  rw [ticked, tick, reportTick_of_none (by exact hreport), skeinTick_of_none (by exact hwaiting)]
  rfl

-- Resets (R468 to R470).

theorem leaveHalted_mod (s : State) : (leaveHalted s).mod = s.mod := by
  unfold leaveHalted
  split <;> rfl

theorem abortLoad_mod (s : State) : (abortLoad s).mod = s.mod := by
  unfold abortLoad
  split
  · exact leaveHalted_mod _
  · rfl

/-- The fall of the host link leaves the module's own state. -/
theorem linkFalls_mod (s : State) : (linkFalls s).mod = s.mod := by
  unfold linkFalls
  split
  · exact abortLoad_mod _
  · rfl

/-- With the host link down nothing falls with the module. -/
theorem linkFalls_of_down {s : State} (h : s.hub.linkUp = false) : linkFalls s = s := by
  simp [linkFalls, h]

/-- What a reset with `cause` makes of `s`: the module stands at `bring`, every block and memory is as after reset, and what does not
reset is as in `s`. -/
def IsReset (bring : Bring) (cause : Nat) (s t : State) : Prop :=
  t.mod.bring = bring ∧ t.mod.input.nextCause = cause ∧
    t.mod.input.boots = s.mod.input.boots ∧ t.flash = s.flash ∧ t.pending = s.pending ∧ (∀ p, (t.port p).st = .deaf) ∧
    t.warp = State.reset.warp ∧ t.stp = StpBlk.reset ∧ t.trd = State.reset.trd ∧ t.sec = SecBlk.reset ∧ t.spdm = State.reset.spdm ∧
    t.nep = NepBlk.reset ∧ t.mems = State.reset.mems ∧ t.hub = State.reset.hub ∧ t.weft = WeftBlk.reset ∧ t.i3c = State.reset.i3c ∧
    t.mod.recovery = false ∧ (cause = 1 → t.mod.resetAsserted = true) ∧ (s.hub.linkUp = false → t.tel.flash = s.tel.flash)

/-- Every port of a unit in reset is deaf. -/
theorem resetUnits_port (bring : Bring) (asserted : Bool) (cause : Nat) (s : State) (p : PortIx) :
    ((resetUnits bring asserted cause s).port p).st = .deaf := by
  have port : (resetUnits bring asserted cause s).port p = Port.reset := Vector.getElem_replicate p.isLt
  rw [port]
  rfl

/-- `resetUnits` is such a reset of `s`, also of what the fall of the host link has left of `s`. -/
theorem resetUnits_isReset (bring : Bring) {asserted : Bool} {cause : Nat} {s u : State} (hmod : u.mod = s.mod) (hlead : u.lead = s.lead)
    (htel : s.hub.linkUp = false → u = s) (hasserted : cause = 1 → asserted = true) : IsReset bring cause s (resetUnits bring asserted cause u) :=
  ⟨rfl, rfl, congrArg (fun m => m.input.boots) hmod, State.flash_of hlead, State.pending_of hlead, resetUnits_port bring asserted cause u,
    rfl, rfl, rfl, rfl, rfl, rfl, rfl, rfl, rfl, rfl, rfl, hasserted, fun h => congrArg (fun v => v.tel.flash) (htel h)⟩

theorem resetUnits_linkFalls_isReset (bring : Bring) {asserted : Bool} {cause : Nat} (s : State) (hasserted : cause = 1 → asserted = true) :
    IsReset bring cause s (resetUnits bring asserted cause (linkFalls s)) :=
  resetUnits_isReset bring (linkFalls_mod s) (linkFalls_lead s) linkFalls_of_down hasserted

-- The five rows, while the module is on.

theorem execModuleReset_on {s : State} (h : s.mod.bring ≠ .off) : execModuleReset s = .next (resetUnits .held true 1 (linkFalls s)) := by
  simp [execModuleReset, h]

theorem execWatchdogExpiry_running {s : State} (h : distaffRuns s = true) :
    execWatchdogExpiry s = .next (resetUnits .held s.mod.resetAsserted 5 (linkFalls s)) := by
  simp [execWatchdogExpiry, h]

theorem execInputLoss_on {s : State} (h : s.mod.bring ≠ .off) :
    execInputLoss s = .next (resetUnits .off s.mod.resetAsserted 2 (linkFalls s)) := by
  simp [execInputLoss, h]

theorem execOvervoltage_on {s : State} (h : s.mod.bring ≠ .off) :
    execOvervoltage s = .next (resetUnits .off s.mod.resetAsserted 3 (linkFalls s)) := by
  simp [execOvervoltage, h]

theorem execRailFault_rails {s : State} (h : s.mod.bring = .rails) :
    execRailFault s = .next (resetUnits .off s.mod.resetAsserted 4 s) := by
  simp [execRailFault, h]

-- Time zero (R464, R473, R482).

/-- The module state at time zero. -/
def ModBlk.timeZero (straps : List (Fin 4)) (slot : BitVec 5) (now : Nat) (m : ModBlk) : ModBlk :=
  { m with bring := .rails, resetAsserted := false, zeroTick := now, dieStraps := straps, slot := slot, railFault := false, spiExternal := false,
           input := { nextCause := 0, cause := m.input.nextCause, boots := min 0xFFFF (m.input.boots + 1) } }

theorem execBringupStart_down {straps : List (Fin 4)} (slot : BitVec 5) {s : State} (hlen : straps.length = 4)
    (h : s.mod.bring = .held ∨ s.mod.bring = .off) :
    execBringupStart straps slot s = .next (s.onMod (ModBlk.timeZero straps slot s.clk.refTimer)) := by
  rcases h with h | h <;> simp [execBringupStart, checked, hlen, h] <;> rfl

theorem execBringupStart_up {straps : List (Fin 4)} (slot : BitVec 5) {s : State} (hlen : straps.length = 4) (held : s.mod.bring ≠ .held)
    (off : s.mod.bring ≠ .off) : execBringupStart straps slot s = .next s := by
  unfold execBringupStart
  split
  · contradiction
  · contradiction
  · simp [checked, hlen]

-- The external flash path (R475).

theorem execSpiExternalEnable_inReset {s : State} (h : s.mod.resetAsserted = true) :
    execSpiExternalEnable s = .next (s.onMod fun m => { m with spiExternal := true }) := by
  simp [execSpiExternalEnable, h]

theorem execSpiExternalEnable_running {s : State} (h : s.mod.resetAsserted = false) (hd : distaffRuns s = true) :
    execSpiExternalEnable s = .next (raise 0x6006 [] s) := by
  simp [execSpiExternalEnable, h, hd]

theorem execSpiExternalEnable_early {s : State} (h : s.mod.resetAsserted = false) (hd : distaffRuns s = false) :
    execSpiExternalEnable s = .next (s.onMod fun m => { m with spiIgnoredEarly := true }) := by
  simp [execSpiExternalEnable, h, hd]

/-- Settles O54: each of the five rows is one `resetUnits`, time zero one update of the module state, and the SPI row follows its three
branches. -/
theorem resetRows : Obligations.ResetRows := by
  intro s
  refine ⟨fun c b n hmem hon hwatch hrail => ?_, fun straps slot hlen => ⟨fun h => ?_, execBringupStart_up slot hlen⟩, fun h => ?_, fun h hd => ?_,
    fun h hd => ?_⟩
  · simp only [List.mem_cons, Prod.mk.injEq, List.not_mem_nil, or_false] at hmem
    obtain ⟨rfl, rfl, rfl⟩ | ⟨rfl, rfl, rfl⟩ | ⟨rfl, rfl, rfl⟩ | ⟨rfl, rfl, rfl⟩ | ⟨rfl, rfl, rfl⟩ := hmem
    · exact ⟨_, execModuleReset_on hon, resetUnits_linkFalls_isReset .held s fun _ => rfl⟩
    · exact ⟨_, execWatchdogExpiry_running (hwatch rfl), resetUnits_linkFalls_isReset .held s nofun⟩
    · exact ⟨_, execInputLoss_on hon, resetUnits_linkFalls_isReset .off s nofun⟩
    · exact ⟨_, execOvervoltage_on hon, resetUnits_linkFalls_isReset .off s nofun⟩
    · exact ⟨_, execRailFault_rails (hrail rfl), resetUnits_isReset .off rfl rfl (fun _ => rfl) nofun⟩
  · exact ⟨_, execBringupStart_down slot hlen h, rfl, rfl, rfl, rfl, rfl, rfl, rfl, rfl, rfl⟩
  · exact execSpiExternalEnable_inReset h
  · exact execSpiExternalEnable_running h hd
  · exact execSpiExternalEnable_early h hd

-- What a skein request may change.

/-- `t` differs from `s` in the step block, telemetry and the skein bases only: where reports of a request go. -/
def ReportsOnly (s t : State) : Prop := ∃ stp tel skn, t = { s with stp := stp, tel := tel, skn := skn }

namespace ReportsOnly
variable {s t u : State}

theorem refl (s : State) : ReportsOnly s s := ⟨_, _, _, rfl⟩

theorem trans (h : ReportsOnly s t) (h' : ReportsOnly t u) : ReportsOnly s u := by
  obtain ⟨_, _, _, rfl⟩ := h
  obtain ⟨stp, tel, skn, rfl⟩ := h'
  exact ⟨stp, tel, skn, rfl⟩

theorem eq (h : ReportsOnly s t) : t = { s with stp := t.stp, tel := t.tel, skn := t.skn } := by
  obtain ⟨_, _, _, rfl⟩ := h
  rfl

theorem eq_of_stp (h : ReportsOnly s t) (hstp : t.stp = s.stp) : t = { s with tel := t.tel, skn := t.skn } := by
  obtain ⟨_, _, _, rfl⟩ := h
  obtain rfl : _ = s.stp := hstp
  rfl

theorem skein (h : ReportsOnly s t) : t.skein = s.skein := by
  obtain ⟨_, _, _, rfl⟩ := h
  rfl

theorem regionOf (h : ReportsOnly s t) (addr : Nat) : regionOf t addr = regionOf s addr := by
  obtain ⟨_, _, _, rfl⟩ := h
  rfl

end ReportsOnly

theorem onStp_reportsOnly (s : State) (f : StpBlk → StpBlk) : ReportsOnly s (s.onStp f) := ⟨_, s.tel, s.skn, rfl⟩

theorem onTel_reportsOnly (s : State) (f : TelBlk → TelBlk) : ReportsOnly s (s.onTel f) := ⟨s.stp, _, s.skn, rfl⟩

theorem onSkn_reportsOnly (s : State) (f : SknBlk → SknBlk) : ReportsOnly s (s.onSkn f) := ⟨s.stp, s.tel, _, rfl⟩

theorem raiseIf_reportsOnly (c : Bool) (code : Half) (p : List Nat) (s : State) : ReportsOnly s (raiseIf c code p s) := by
  unfold raiseIf
  split
  · exact onTel_reportsOnly s _
  · exact .refl s

theorem faultWith_reportsOnly (cause : Nat) (s : State) : ReportsOnly s (faultWith cause s) := onStp_reportsOnly s _

theorem raise_reportsOnly (code : Half) (p : List Nat) (s : State) : ReportsOnly s (raise code p s) := onTel_reportsOnly s _

theorem count_reportsOnly (bits key n : Nat) (s : State) : ReportsOnly s (count bits key n s) := onTel_reportsOnly s _

theorem onStack_reportsOnly (s : State) (k : StackIx) (f : Stack → Stack) : ReportsOnly s (s.onStack k f) := onSkn_reportsOnly s _

theorem noteError_reportsOnly (addr kind : Nat) (byScrub : Bool) (cls symbol : Nat) (s : State) :
    ReportsOnly s (noteError addr kind byScrub cls symbol s) := by
  unfold noteError
  exact onStack_reportsOnly s _ _

theorem noteReads_reportsOnly (addr n : Nat) (s : State) : ReportsOnly s (noteReads addr n s) := by
  unfold noteReads
  exact onStack_reportsOnly s _ _

theorem refuseRequest_reportsOnly (addr cls : Nat) (s : State) : ReportsOnly s (refuseRequest addr cls s) :=
  (noteError_reportsOnly addr 5 false cls 0x3F s).trans <| (count_reportsOnly 16 _ 1 _).trans <| (raise_reportsOnly _ _ _).trans <|
    faultWith_reportsOnly 1 _

theorem pathParity_reportsOnly (boundary addr cls : Nat) (s : State) : ReportsOnly s (pathParity boundary addr cls s) := by
  refine ReportsOnly.trans ?_ ((raise_reportsOnly _ _ _).trans (faultWith_reportsOnly 1 _))
  split
  · exact (noteError_reportsOnly addr 4 false cls 0x3F s).trans (count_reportsOnly 16 _ 1 _)
  · exact .refl s

theorem sramCorrected_reportsOnly (cluster words : Nat) (s : State) : ReportsOnly s (sramCorrected cluster words s) :=
  (onSkn_reportsOnly s _).trans <| (count_reportsOnly _ _ _ _).trans (raiseIf_reportsOnly _ _ _ _)

theorem correctedWord_reportsOnly (addr : Nat) (byScrub : Bool) (cls symbol : Nat) (s : State) :
    ReportsOnly s (correctedWord addr byScrub cls symbol s) :=
  (noteError_reportsOnly addr 1 byScrub cls symbol s).trans <| (onStack_reportsOnly _ _ _).trans <| (count_reportsOnly 48 _ 1 _).trans <|
    raiseIf_reportsOnly _ _ _ _

@[simp] theorem correctedWord_stp (addr : Nat) (byScrub : Bool) (cls symbol : Nat) (s : State) :
    (correctedWord addr byScrub cls symbol s).stp = s.stp := by
  unfold correctedWord raiseIf
  dsimp only
  split <;> rfl

@[simp] theorem correctedWord_bad (addr : Nat) (byScrub : Bool) (cls symbol : Nat) (s : State) :
    (correctedWord addr byScrub cls symbol s).skn.bad = s.skn.bad := by
  unfold correctedWord raiseIf
  dsimp only
  split <;> rfl

@[simp] theorem pathParity_fault (boundary addr cls : Nat) (s : State) : (pathParity boundary addr cls s).stp.fault = true := rfl

-- Requests without a result (R306, R355).

theorem SkeinReq.fails_stp (q : SkeinReq) (s : State) : (q.fails s).stp = s.stp := by
  unfold SkeinReq.fails
  split
  · split <;> rfl
  · rfl

theorem SkeinReq.fails_eq (q : SkeinReq) {s t : State} (h : ReportsOnly s t) :
    q.fails t = { s with stp := (q.fails t).stp, tel := (q.fails t).tel, skn := (q.fails t).skn, out := (q.fails t).out } := by
  obtain ⟨_, _, _, rfl⟩ := h
  unfold SkeinReq.fails
  split
  · split <;> rfl
  · rfl

/-- A read of the device that fails gives the bus no data. -/
theorem SkeinReq.fails_read {q : SkeinReq} {n : Nat} (hop : q.op = .read n) (hcls : q.cls ≠ 4) (s : State) : q.fails s = noData s := by
  simp [SkeinReq.fails, hop, hcls]

/-- A read of the host that fails is answered poisoned. -/
theorem SkeinReq.fails_hostRead {q : SkeinReq} {n : Nat} (hop : q.op = .read n) (hcls : q.cls = 4) (s : State) :
    q.fails s = busRead [] true s := by
  simp [SkeinReq.fails, hop, hcls]

-- The stacks.

theorem State.stack_onStack (s : State) (j k : StackIx) (f : Stack → Stack) :
    (s.onStack k f).stack j = if k = j then f (s.stack j) else s.stack j := by
  unfold State.stack State.onStack State.onSkn
  by_cases h : k = j
  · subst h; simp
  · have hv : k.val ≠ j.val := fun e => h (Fin.ext e)
    simp [h, hv, Vector.getElem_set_ne]

theorem stack_raiseIf (c : Bool) (code : Half) (p : List Nat) (s : State) (k : StackIx) : (raiseIf c code p s).stack k = s.stack k := by
  unfold raiseIf
  split <;> rfl

theorem stack_countEvt (key : Nat) (s : State) (k : StackIx) : (countEvt key s).stack k = s.stack k := rfl

/-- A change of one stack that keeps its mark of lost state keeps it in every stack. -/
theorem State.stateLost_onStack (s : State) (j k : StackIx) (f : Stack → Stack) (h : ∀ x, (f x).stateLost = x.stateLost) :
    ((s.onStack j f).stack k).stateLost = (s.stack k).stateLost := by
  rw [State.stack_onStack]
  split
  · exact h _
  · rfl

theorem correctedWord_stateLost (addr : Nat) (byScrub : Bool) (cls symbol : Nat) (s : State) (k : StackIx) :
    ((correctedWord addr byScrub cls symbol s).stack k).stateLost = (s.stack k).stateLost := by
  unfold correctedWord
  dsimp only
  rw [stack_raiseIf, stack_countEvt, State.stateLost_onStack _ _ _ _ (by exact fun _ => rfl)]
  unfold noteError
  exact State.stateLost_onStack s _ _ _ (by exact fun _ => rfl)

-- The words of a read (R278, R302).

/-- Every word of a request within one granule stands in the stack of the request's address. -/
theorem skeinStack_of_mem_wordsOf {a n w : Nat} (hn : 1 ≤ n ∧ a % 256 + n ≤ 256) (hw : w ∈ wordsOf a n) : skeinStack w = skeinStack a := by
  obtain ⟨hpos, hfit⟩ := hn
  have nonzero : (n == 0) = false := by simp; omega
  simp only [wordsOf, nonzero, Bool.false_eq_true, if_false, List.mem_map, List.mem_range] at hw
  obtain ⟨i, hi, rfl⟩ := hw
  have same : (a / 32 + i) * 32 / 2 ^ 37 = a / 2 ^ 37 := by omega
  unfold skeinStack
  rw [same]

/-- A word of a read with what its decoder answers. -/
theorem mem_decoded {a n : Nat} {e : List Ecc} {w : Nat × Ecc}
    (h : w ∈ (wordsOf a n).zipIdx.map fun w => (w.1, e.getD w.2 .good)) : w.1 ∈ wordsOf a n ∧ (w.2 ∈ e ∨ w.2 = .good) := by
  obtain ⟨⟨x, i⟩, hx, rfl⟩ := List.mem_map.1 h
  refine ⟨List.fst_mem_of_mem_zipIdx hx, ?_⟩
  rcases Nat.lt_or_ge i e.length with hi | hi
  · exact .inl (by simp [List.getD, hi])
  · exact .inr (by simp [List.getD, hi])

-- A read that meets good and corrected words only (R302, R303).

/-- A read of `s` that goes on with data: no word has been uncorrectable so far. -/
structure ReadsOn (s : State) (x : State × Bool) : Prop where
  usable : x.2 = true
  reports : ReportsOnly s x.1
  stp : x.1.stp = s.stp
  bad : x.1.skn.bad = s.skn.bad

theorem ReadsOn.noteReads (s : State) (addr n : Nat) : ReadsOn s (noteReads addr n s, true) :=
  ⟨rfl, noteReads_reportsOnly addr n s, rfl, rfl⟩

theorem ReadsOn.decodeWord {s : State} {x : State × Bool} (h : ReadsOn s x) (cls : Nat) {w : Nat × Ecc} (hbad : s.skn.bad.contains w.1 = false)
    (hecc : w.2 ≠ .uncorrectable) : ReadsOn s (decodeWord cls x w) := by
  unfold Machine.decodeWord
  rw [h.bad, hbad]
  cases e : w.2 with
  | good => exact h
  | corrected sym =>
    exact ⟨h.usable, h.reports.trans (correctedWord_reportsOnly _ _ _ _ _), (correctedWord_stp _ _ _ _ _).trans h.stp,
      (correctedWord_bad _ _ _ _ _).trans h.bad⟩
  | uncorrectable => exact absurd e hecc

/-- A read whose words all have good check bits and are good or corrected gives its data. -/
theorem decodeRead_readsOn (cls : Nat) {addr n : Nat} {e : List Ecc} (k : Nat) (s : State)
    (hbad : ∀ w ∈ wordsOf addr n, s.skn.bad.contains w = false) (hecc : Ecc.uncorrectable ∉ e) :
    ReadsOn s (decodeRead cls addr n e (noteReads addr k s)) := by
  refine List.foldlRecOn (motive := ReadsOn s) _ _ (.noteReads s addr k) fun x h w hw => ?_
  obtain ⟨hword, hans⟩ := mem_decoded hw
  refine h.decodeWord cls (hbad _ hword) fun hunc => ?_
  rcases hans with hmem | hgood
  · exact hecc (hunc ▸ hmem)
  · exact Ecc.noConfusion (hunc.symm.trans hgood)

-- A read that meets an uncorrectable word in committed state (R306, R307).

/-- The loss of committed state is outstanding in `t`: a fault with cause 2, unless a graver one stands, and the mark of the stack. -/
structure Lost (s : State) (k : StackIx) (t : State) : Prop where
  fault : t.stp.fault = true
  cause : s.stp.faultCause ≤ 2 → t.stp.faultCause = 2
  mark : (t.stack k).stateLost = true

/-- A read of committed words of stack `k` by a device that is not halted: it is unharmed, or the state is lost. -/
structure ReadsCommitted (s : State) (k : StackIx) (x : State × Bool) : Prop where
  reports : ReportsOnly s x.1
  bad : ∀ w, s.skn.bad.contains w = true → x.1.skn.bad.contains w = true
  unharmed : x.2 = true → x.1.stp = s.stp
  lost : x.2 = false → Lost s k x.1

/-- The device is not halted, nor was it as the load that runs began (R307). -/
def NotHalted (s : State) : Prop := s.warp.state ≠ .halted ∧ (loadRunning s = true → s.warp.began ≠ .halted)

theorem ReportsOnly.notHalted {s t : State} (h : ReportsOnly s t) (hs : NotHalted s) : NotHalted t := by
  obtain ⟨_, _, _, rfl⟩ := h
  exact hs

/-- A device that is not halted keeps its job when committed state is lost. -/
theorem stateLost_of_notHalted {s : State} (h : NotHalted s) (addr : Nat) (byScrub : Bool) (cls : Nat) : stateLost addr byScrub cls s =
    faultWith 2 (raise 0x2403 [addr, cls]
      ((noteError addr 3 byScrub cls 0x3F s).onStack (skeinStack addr) fun x => { x with stateLost := true })) := by
  obtain ⟨hstate, hbegan⟩ := h
  have goesOn : (s.warp.state == .halted || (loadRunning s && s.warp.began == .halted)) = false := by
    cases hl : loadRunning s <;> simp_all
  exact if_neg (Bool.eq_false_iff.1 goesOn)

/-- An uncorrectable word of committed state: the state is lost. -/
theorem uncorrectable_committed {s : State} (h : NotHalted s) {addr : Nat} (hr : (regionOf s addr).committed = true) (cls : Nat) :
    uncorrectable addr cls s = faultWith 2 (raise 0x2403 [addr, cls]
      ((noteError addr 3 false cls 0x3F (countErr (sknReg addr 0x18) s)).onStack (skeinStack addr) fun x => { x with stateLost := true })) := by
  unfold uncorrectable
  rw [if_pos hr]
  exact stateLost_of_notHalted (s := countErr (sknReg addr 0x18) s) h addr false cls

theorem faultWith_two_cause (s : State) (h : s.stp.faultCause ≤ 2) : (faultWith 2 s).stp.faultCause = 2 := by
  have cause : (faultWith 2 s).stp.faultCause = if s.stp.faultCause < 2 then max s.stp.faultCause 2 else s.stp.faultCause := rfl
  rw [cause]
  split <;> omega

theorem uncorrectable_readsCommitted {s : State} {k : StackIx} {x : State × Bool} (h : ReadsCommitted s k x) (hs : NotHalted s) {addr : Nat}
    (hk : skeinStack addr = k) (hr : (regionOf s addr).committed = true) (cls : Nat) (u : State) (hu : ReportsOnly x.1 u) (hstp : u.stp = x.1.stp)
    (hbad : ∀ w, x.1.skn.bad.contains w = true → u.skn.bad.contains w = true) :
    ReadsCommitted s k (uncorrectable addr cls u, false) := by
  have frame := h.reports.trans hu
  rw [uncorrectable_committed (frame.notHalted hs) (by rw [frame.regionOf]; exact hr)]
  refine ⟨frame.trans ?_, fun w hw => hbad w (h.bad w hw), nofun, fun _ => ⟨rfl, fun hc => ?_, ?_⟩⟩
  · exact (count_reportsOnly 16 _ 1 _).trans <| (noteError_reportsOnly _ _ _ _ _ _).trans <| (onStack_reportsOnly _ _ _).trans <|
      (raise_reportsOnly _ _ _).trans (faultWith_reportsOnly _ _)
  · refine faultWith_two_cause _ ?_
    have before : x.1.stp.faultCause ≤ 2 := by
      cases e : x.2 with
      | true => rw [h.unharmed e]; exact hc
      | false => rw [(h.lost e).cause hc]
    exact hstp ▸ before
  · have marked := State.stack_onStack (noteError addr 3 false cls 0x3F (countErr (sknReg addr 0x18) u)) k (skeinStack addr)
      fun x => { x with stateLost := true }
    rw [if_pos hk] at marked
    exact congrArg Stack.stateLost marked

theorem ReadsCommitted.decodeWord {s : State} {k : StackIx} {x : State × Bool} (h : ReadsCommitted s k x) (hs : NotHalted s) (cls : Nat)
    {w : Nat × Ecc} (hk : skeinStack w.1 = k) (hr : (regionOf s w.1).committed = true) : ReadsCommitted s k (decodeWord cls x w) := by
  unfold Machine.decodeWord
  split
  · exact uncorrectable_readsCommitted h hs hk hr cls x.1 (.refl _) rfl fun _ hw => hw
  · split
    · exact h
    · refine ⟨h.reports.trans (correctedWord_reportsOnly _ _ _ _ _), fun w hw => ?_, fun e => ?_, fun e => ⟨?_, fun hc => ?_, ?_⟩⟩
      · rw [correctedWord_bad]; exact h.bad w hw
      · rw [correctedWord_stp]; exact h.unharmed e
      · rw [correctedWord_stp]; exact (h.lost e).fault
      · rw [correctedWord_stp]; exact (h.lost e).cause hc
      · rw [correctedWord_stateLost]; exact (h.lost e).mark
    · refine uncorrectable_readsCommitted h hs hk hr cls (markBad w.1 x.1) (onSkn_reportsOnly _ _) rfl fun v hv => ?_
      rw [List.contains_iff_mem] at hv ⊢
      by_cases same : v = w.1 / 32 * 32
      · exact List.mem_cons.2 (.inl same)
      · exact List.mem_cons.2 (.inr (List.mem_filter.2 ⟨hv, by simpa using same⟩))

/-- A word without data, and every word after it, leaves the read without data. -/
theorem decodeWord_unusable (cls : Nat) {x : State × Bool} {w : Nat × Ecc}
    (h : x.1.skn.bad.contains w.1 = true ∨ w.2 = .uncorrectable ∨ x.2 = false) : (decodeWord cls x w).2 = false := by
  unfold decodeWord
  split
  · rfl
  next hgood =>
    rcases h with h | h | h
    · exact absurd h hgood
    · rw [h]
    · split
      · exact h
      · exact h
      · rfl

theorem foldl_decodeWord_committed {s : State} {k : StackIx} (hs : NotHalted s) (cls : Nat) (l : List (Nat × Ecc)) (x : State × Bool)
    (h : ReadsCommitted s k x) (hl : ∀ w ∈ l, skeinStack w.1 = k ∧ (regionOf s w.1).committed = true) :
    ReadsCommitted s k (l.foldl (decodeWord cls) x) ∧
      (x.2 = false ∨ (∃ w ∈ l, s.skn.bad.contains w.1 = true ∨ w.2 = .uncorrectable) → (l.foldl (decodeWord cls) x).2 = false) := by
  induction l generalizing x with
  | nil => exact ⟨h, fun hx => hx.resolve_right fun ⟨_, hw, _⟩ => nomatch hw⟩
  | cons w ws ih =>
    obtain ⟨hk, hr⟩ := hl w (List.mem_cons_self ..)
    obtain ⟨after, unusable⟩ := ih _ (h.decodeWord hs cls hk hr) fun v hv => hl v (List.mem_cons_of_mem _ hv)
    refine ⟨after, fun hx => unusable ?_⟩
    rcases hx with hx | ⟨v, hv, hfail⟩
    · exact .inl (decodeWord_unusable cls (.inr (.inr hx)))
    · rcases List.mem_cons.1 hv with rfl | hv
      · exact .inl (decodeWord_unusable cls (hfail.imp (h.bad _) .inl))
      · exact .inr ⟨v, hv, hfail⟩

/-- A read of committed state that meets a word with bad check bits, or whose first word decodes as uncorrectable, gives no data, and the
state is lost. -/
theorem decodeRead_lost (cls : Nat) {addr n : Nat} {e : List Ecc} (k : Nat) {s : State} (hs : NotHalted s) (hn : 1 ≤ n ∧ addr % 256 + n ≤ 256)
    (hr : ∀ w ∈ wordsOf addr n, (regionOf s w).committed = true)
    (hfail : (∃ w ∈ wordsOf addr n, s.skn.bad.contains w = true) ∨ e.head? = some .uncorrectable) :
    ∃ t, decodeRead cls addr n e (noteReads addr k s) = (t, false) ∧ ReportsOnly s t ∧ Lost s (skeinStack addr) t := by
  have start : ReadsCommitted s (skeinStack addr) (noteReads addr k s, true) :=
    ⟨noteReads_reportsOnly addr k s, fun _ h => h, fun _ => rfl, nofun⟩
  obtain ⟨done, unusable⟩ := foldl_decodeWord_committed hs cls ((wordsOf addr n).zipIdx.map fun w => (w.1, e.getD w.2 .good)) _ start fun w hw =>
    ⟨skeinStack_of_mem_wordsOf hn (mem_decoded hw).1, hr _ (mem_decoded hw).1⟩
  have failed := unusable <| .inr <| by
    rcases hfail with ⟨w, hw, hbad⟩ | hhead
    · obtain ⟨i, hi, rfl⟩ := List.getElem_of_mem hw
      exact ⟨_, List.mem_map_of_mem (List.mk_mem_zipIdx_iff_getElem?.2 (List.getElem?_eq_getElem hi)), .inl hbad⟩
    · have first : (wordsOf addr n)[0]? = some (addr / 32 * 32) := by
        have nonzero : (n == 0) = false := by simp; omega
        simp [wordsOf, nonzero]
      refine ⟨_, List.mem_map_of_mem (List.mk_mem_zipIdx_iff_getElem?.2 first), .inr ?_⟩
      simp [List.getD, ← List.head?_eq_getElem?, hhead]
  exact ⟨_, Prod.ext rfl failed, done.reports, done.lost failed⟩

-- Which way a request goes (R284, log entries 181 and 196).

/-- A request with the form of its row, while the skein bases run. -/
theorem exec_skeinRequest {s : State} (hrun : unitsRun s = true) {c : ClassIx} {l : Bool} {a : BitVec 40} {op : SkeinOp} (e : List Ecc)
    (p : Option (Fin 8)) (hform : requestShaped a.toNat op = true) :
    exec (.skeinRequest c l a op e p) s = .next (skeinRequest ⟨c.val, l, a.toNat, op, e, p⟩ s) := by
  simp [exec, execSkeinRequest, checked, hform, hrun]

section
variable {q : SkeinReq} {s : State}

theorem skeinRequest_local (h : q.local = true) : skeinRequest q s = serveRequest q s := if_pos h

/-- A request that is not local to the clusters, for a trained stack. -/
def SkeinReq.goesToBase (q : SkeinReq) (s : State) : Prop := q.local = false ∧ (s.stack (skeinStack q.addr)).trained = true

theorem skeinRequest_forbidden (h : q.goesToBase s)
    (hforbid : mayReach q.cls q.byLoader q.isWrite (skeinStack q.addr).val (regionOf s q.addr) = false) :
    skeinRequest q s = q.fails (refuseRequest q.addr q.cls s) := by
  obtain ⟨hlocal, htrained⟩ := h
  simp [skeinRequest, hlocal, htrained, hforbid]

theorem skeinRequest_untimely (h : q.goesToBase s)
    (hmay : mayReach q.cls q.byLoader q.isWrite (skeinStack q.addr).val (regionOf s q.addr) = true) (hlate : q.untimely s = true) :
    skeinRequest q s = s := by
  obtain ⟨hlocal, htrained⟩ := h
  simp [skeinRequest, hlocal, htrained, hmay, hlate]

theorem skeinRequest_admitted (h : q.goesToBase s)
    (hmay : mayReach q.cls q.byLoader q.isWrite (skeinStack q.addr).val (regionOf s q.addr) = true) (htimely : q.untimely s = false) :
    skeinRequest q s = serveRequest q s := by
  obtain ⟨hlocal, htrained⟩ := h
  simp [skeinRequest, hlocal, htrained, hmay, htimely]

end

theorem SkeinReq.local_of_ne_move {q : SkeinReq} (h : ∀ n src dst, q.op ≠ .move n src dst) : q.local = false := by
  unfold SkeinReq.local
  split
  · exact absurd ‹_› (h _ _ _)
  · rfl

-- The access rights of the classes (R284).

/-- The five rows of the table of R284. -/
theorem mayReach_iff (l w : Bool) (k : Nat) (r : Rgn) : (mayReach 1 l w k r = true ↔ r = .bobbin) ∧ (mayReach 4 l w k r = true ↔ r = .window) ∧
    (mayReach 0 l w k r = true ↔ r = .working ∨ r = .retention ∨ r = .window ∨ (∃ n, r = .params n ∧ w = false) ∨ (r = .loader ∧ l = true)) ∧
    (mayReach 2 l w k r = true ↔ (∃ n, r = .params n ∧ w = true) ∨ (r = .system ∧ k = 0)) ∧
    (mayReach 3 l w k r = true ↔ (∃ n, r = .params n ∧ w = true) ∨ r = .master ∨ r = .shadow ∨ r = .optimiser ∨ r = .system) := by
  cases r <;> simp [mayReach]

-- What spool and creel give (R303, R306).

theorem sramRead_good (l : Loc) {e : List Ecc} (s : State) (h : ∀ x ∈ e, x = Ecc.good) : sramRead l e s = (s, true) := by
  rw [List.eq_replicate_iff.2 ⟨rfl, h⟩]
  simp [sramRead]

/-- An uncorrectable word of spool or creel: no data, and a fault outstanding. -/
theorem sramRead_uncorrectable (l : Loc) {e : List Ecc} (s : State) (h : Ecc.uncorrectable ∈ e) :
    (sramRead l e s).2 = false ∧ (sramRead l e s).1.stp.fault = true ∧ ReportsOnly s (sramRead l e s).1 := by
  have met : e.contains .uncorrectable = true := List.contains_iff_mem.2 h
  have frame (n : Nat) : ReportsOnly s (if n == 0 then s else sramCorrected (Loc.sram l).1 n s) := by
    split
    · exact .refl s
    · exact sramCorrected_reportsOnly _ _ s
  unfold sramRead
  dsimp only
  rw [if_pos met]
  exact ⟨rfl, rfl, (frame _).trans <| (raise_reportsOnly _ _ _).trans (faultWith_reportsOnly 1 _)⟩

theorem fromSram_good {n : Nat} {src : Loc} {e : List Ecc} (k : List Byte → State → State) {s : State} (hres : s.resident src n = true)
    (h : ∀ x ∈ e, x = Ecc.good) : fromSram n src e k s = k (s.readAt src n) s := by
  simp [fromSram, hres, sramRead_good src s h]

theorem fromSram_uncorrectable {n : Nat} {src : Loc} {e : List Ecc} (k : List Byte → State → State) {s : State} (hres : s.resident src n = true)
    (h : Ecc.uncorrectable ∈ e) : fromSram n src e k s = (sramRead src e s).1 := by
  simp [fromSram, hres, (sramRead_uncorrectable src s h).1]

-- What an admitted request does.

/-- A write that the guard of the staged image does not stop (R285). -/
theorem skeinWrite_unguarded {cls a : Nat} {d : List Byte} {s : State} (h : cls = 4 → guarded s (windowOff a) d.length = false) :
    skeinWrite cls a d s = s.putSkein a d := by
  unfold skeinWrite
  by_cases hc : cls = 4
  · simp [hc, h hc]
  · simp [hc]

/-- A read for which the stack has a slot. -/
theorem serveRequest_read {cls a : Nat} {l : Bool} {e : List Ecc} {op : SkeinOp} {s : State} (hop : (∃ n, op = .read n) ∨ ∃ n dst, op = .fetch n dst)
    (hslot : (s.stack (skeinStack a)).outstanding < 8192) : serveRequest ⟨cls, l, a, op, e, none⟩ s = skeinRead ⟨cls, l, a, op, e, none⟩ s := by
  rcases hop with ⟨n, rfl⟩ | ⟨n, dst, rfl⟩ <;> simp [serveRequest, readSlots, Nat.not_le.2 hslot]

/-- A read that finds no slot waits (R292). -/
theorem serveRequest_waits {cls a : Nat} {l : Bool} {e : List Ecc} {op : SkeinOp} {s : State}
    (hop : (∃ n, op = .read n) ∨ ∃ n dst, op = .fetch n dst) (hfull : 8192 ≤ (s.stack (skeinStack a)).outstanding) :
    serveRequest ⟨cls, l, a, op, e, none⟩ s = s.onSkn fun k => { k with waiting := k.waiting ++ [⟨cls, l, a, op, e, none⟩] } := by
  rcases hop with ⟨n, rfl⟩ | ⟨n, dst, rfl⟩ <;> simp [serveRequest, readSlots, hfull]

/-- A read whose words can all be used returns the bytes that stand there. -/
theorem skeinRead_read_good {cls a n : Nat} {l : Bool} {e : List Ecc} {p : Option (Fin 8)} {s : State}
    (hbad : ∀ w ∈ wordsOf a n, s.skn.bad.contains w = false) (hecc : Ecc.uncorrectable ∉ e) :
    ∃ t, skeinRead ⟨cls, l, a, .read n, e, p⟩ s = t ∧ t.out.lastRead = some ⟨s.skein.readBytes a n, false⟩ ∧
      t = { s with tel := t.tel, skn := t.skn, out := t.out } := by
  have read := decodeRead_readsOn cls 1 s hbad hecc
  refine ⟨_, rfl, ?_, ?_⟩
  · simp [skeinRead, read.usable, read.reports.skein, busRead]
  · have only := read.reports.eq_of_stp read.stp
    simp only [skeinRead, read.usable, if_true, busRead, State.onOut]
    rw [only]

/-- A fetch whose words can all be used puts the bytes that stand there into spool or creel. -/
theorem skeinRead_fetch_good {cls a n : Nat} {l : Bool} {e : List Ecc} {p : Option (Fin 8)} {s : State} (dst : Loc)
    (hbad : ∀ w ∈ wordsOf a n, s.skn.bad.contains w = false) (hecc : Ecc.uncorrectable ∉ e) :
    ∃ u : State, skeinRead ⟨cls, l, a, .fetch n dst, e, p⟩ s = u.storeAt dst (s.skein.readBytes a n) ∧ u = { s with tel := u.tel, skn := u.skn } := by
  have read := decodeRead_readsOn cls 1 s hbad hecc
  refine ⟨(decodeRead cls a n e (noteReads a 1 s)).1, ?_, read.reports.eq_of_stp read.stp⟩
  simp [skeinRead, read.usable, read.reports.skein]

/-- A read of the device that meets an uncorrectable word of committed state gives nothing, and the state is lost. -/
theorem skeinRead_lost {cls a n : Nat} {l : Bool} {e : List Ecc} {p : Option (Fin 8)} {s : State} (hcls : cls ≠ 4) (hs : NotHalted s)
    (hn : 1 ≤ n ∧ a % 256 + n ≤ 256) (hr : ∀ w ∈ wordsOf a n, (regionOf s w).committed = true)
    (hfail : (∃ w ∈ wordsOf a n, s.skn.bad.contains w = true) ∨ e.head? = some .uncorrectable) :
    ∃ t, skeinRead ⟨cls, l, a, .read n, e, p⟩ s = noData t ∧ ReportsOnly s t ∧ Lost s (skeinStack a) t := by
  obtain ⟨t, hread, frame, lost⟩ := decodeRead_lost cls 1 hs hn hr hfail
  refine ⟨t, ?_, frame, lost⟩
  simp only [skeinRead, hread, Bool.false_eq_true, if_false]
  exact SkeinReq.fails_read rfl hcls t

-- The clauses of O45 that need more than one rule.

section
variable {s : State}

/-- A request that the class may not make leaves a fault outstanding, changes nothing else but reports, and gives nothing. -/
theorem SkeinReq.fails_refuseRequest (c : ClassIx) (l : Bool) (a : Nat) (e : List Ecc) (op : SkeinOp) (p : Option (Fin 8)) (s : State) :
    let q : SkeinReq := ⟨c.val, l, a, op, e, p⟩
    let t := q.fails (refuseRequest a c.val s)
    t.stp.fault = true ∧ ((∃ n, op = .read n) → c ≠ 4 → t.out.lastRead = none) ∧ ((∃ n, op = .read n) → c = 4 → t.out.lastRead = some ⟨[], true⟩) ∧
      t = { s with stp := t.stp, tel := t.tel, skn := t.skn, out := t.out } := by
  intro q t
  refine ⟨?_, fun ⟨n, hop⟩ hc => ?_, fun ⟨n, hop⟩ hc => ?_, SkeinReq.fails_eq q (refuseRequest_reportsOnly a c.val s)⟩
  · have stp : t.stp = _ := SkeinReq.fails_stp q _
    rw [stp]
    rfl
  · have none : t = _ := SkeinReq.fails_read (q := q) hop (fun h => hc (Fin.ext h)) _
    rw [none]
    rfl
  · have poisoned : t = _ := SkeinReq.fails_hostRead (q := q) hop (congrArg Fin.val hc) _
    rw [poisoned]
    rfl

/-- A parity failure on the way leaves a fault outstanding and changes nothing else but reports. -/
theorem serveRequest_parity (cls a : Nat) (l : Bool) (e : List Ecc) (op : SkeinOp) (b : Fin 8) (s : State) :
    let t := serveRequest ⟨cls, l, a, op, e, some b⟩ s
    t.stp.fault = true ∧ t = { s with stp := t.stp, tel := t.tel, skn := t.skn, out := t.out } := by
  refine ⟨?_, SkeinReq.fails_eq _ (pathParity_reportsOnly b.val a cls s)⟩
  have stp : (serveRequest ⟨cls, l, a, op, e, some b⟩ s).stp = _ := SkeinReq.fails_stp _ (pathParity b.val a cls s)
  rw [stp, pathParity_fault]

/-- A write puts its bytes at its address and leaves every other byte. -/
theorem State.putSkein_bytes (h : s.memWf) (a : Nat) (d : List Byte) : (s.putSkein a d).skein.readBytes a d.length = d ∧
    (∀ x, x < a ∨ a + d.length ≤ x → (s.putSkein a d).skein.readByte x = s.skein.readByte x) := by
  obtain ⟨-, -, -, hskein⟩ := h
  refine ⟨Memory.readBytes_writeBytes hskein a d, fun x hx => (Memory.readByte_writeBytes s.skein a d x).trans (if_neg (by omega))⟩

/-- A store of the cluster DMA, which is not held to the guard of the host's class. -/
theorem serveRequest_store {cls n : Nat} {src : Loc} {e : List Ecc} (l : Bool) (a : Nat) (hcls : cls ≠ 4) (hres : s.resident src n = true) :
    ((∀ x ∈ e, x = Ecc.good) → serveRequest ⟨cls, l, a, .store n src, e, none⟩ s = s.putSkein a (s.readAt src n)) ∧
    (Ecc.uncorrectable ∈ e → ∃ t, serveRequest ⟨cls, l, a, .store n src, e, none⟩ s = t ∧ t.stp.fault = true ∧
      t = { s with stp := t.stp, tel := t.tel, skn := t.skn }) := by
  refine ⟨fun hgood => ?_, fun hunc => ?_⟩
  · exact (fromSram_good (skeinWrite cls a) hres hgood).trans (skeinWrite_unguarded fun h => absurd h hcls)
  · obtain ⟨-, fault, frame⟩ := sramRead_uncorrectable src s hunc
    exact ⟨_, fromSram_uncorrectable (skeinWrite cls a) hres hunc, fault, frame.eq⟩

/-- A read of committed state that is lost, as its requester sees it: no data. -/
theorem noData_lost {t : State} {k : StackIx} (frame : ReportsOnly s t) (lost : Lost s k t) :
    (noData t).out.lastRead = none ∧ (noData t).stp.fault = true ∧ (s.stp.faultCause ≤ 2 → (noData t).stp.faultCause = 2) ∧
      ((noData t).stack k).stateLost = true ∧
      noData t = { s with stp := (noData t).stp, tel := (noData t).tel, skn := (noData t).skn, out := (noData t).out } := by
  obtain ⟨_, _, _, rfl⟩ := frame
  exact ⟨rfl, lost.fault, lost.cause, lost.mark, rfl⟩

end

/-- Settles O45: which way a request goes, then one rule for each operation of an admitted request. -/
theorem skeinAccessRows : Obligations.SkeinAccessRows := by
  unfold Obligations.SkeinAccessRows
  intro s hrun
  refine ⟨mayReach_iff, fun l a e n src dst hform hres hgood => ?_, fun c l a e op htrained hform hmove => ?_⟩
  · rw [exec_skeinRequest hrun e none hform, skeinRequest_local rfl]
    exact congrArg Host.Outcome.next (fromSram_good (fun bs t => t.storeAt dst bs) hres hgood)
  have toBase (p : Option (Fin 8)) : SkeinReq.goesToBase ⟨c.val, l, a.toNat, op, e, p⟩ s := ⟨SkeinReq.local_of_ne_move hmove, htrained⟩
  refine ⟨fun p hforbid => ?_, fun p hmay hlate => ?_, fun hmay htimely => ?_⟩
  · rw [exec_skeinRequest hrun e p hform, skeinRequest_forbidden (toBase p) hforbid]
    exact ⟨_, rfl, SkeinReq.fails_refuseRequest c l a.toNat e op p s⟩
  · rw [exec_skeinRequest hrun e p hform, skeinRequest_untimely (toBase p) hmay hlate]
  have served (p : Option (Fin 8)) :
      exec (.skeinRequest c l a op e p) s = .next (serveRequest ⟨c.val, l, a.toNat, op, e, p⟩ s) := by
    rw [exec_skeinRequest hrun e p hform, skeinRequest_admitted (toBase p) hmay htimely]
  have notHost (hc : c ≠ 4) : c.val ≠ 4 := fun h => hc (Fin.ext h)
  refine ⟨fun b => ?parity, fun d hop hwf hguard => ?write, fun n src hop hres hc => ?store, fun n hop hslot => ⟨?good, ?lost⟩,
    fun n dst hop hslot hbad hecc => ?fetch, fun hop hfull => ?waits⟩
  case parity =>
    rw [served]
    exact ⟨_, rfl, serveRequest_parity c.val a.toNat l e op b s⟩
  case write =>
    subst hop
    have put : serveRequest ⟨c.val, l, a.toNat, .write d, e, none⟩ s = s.putSkein a.toNat d :=
      skeinWrite_unguarded fun h => hguard (Fin.ext h)
    obtain ⟨there, elsewhere⟩ := State.putSkein_bytes hwf a.toNat d
    rw [served, put]
    exact ⟨_, rfl, there, elsewhere, rfl⟩
  case store =>
    subst hop
    obtain ⟨good, bad⟩ := serveRequest_store l a.toNat (notHost hc) hres
    rw [served]
    exact ⟨fun h => congrArg Host.Outcome.next (good h), fun h => (bad h).imp fun t ⟨eq, rest⟩ => ⟨congrArg Host.Outcome.next eq, rest⟩⟩
  case good =>
    intro hbad hecc
    obtain ⟨t, eq, data, frame⟩ := skeinRead_read_good (cls := c.val) (l := l) (p := none) hbad hecc
    rw [served, serveRequest_read (.inl ⟨n, hop⟩) hslot, hop, eq]
    exact ⟨t, rfl, data, frame⟩
  case lost =>
    intro hfail hr hc hstate hbegan
    subst hop
    obtain ⟨t, eq, frame, lost⟩ := skeinRead_lost (l := l) (p := none) (notHost hc) ⟨hstate, hbegan⟩ (of_decide_eq_true hform) hr hfail
    rw [served, serveRequest_read (.inl ⟨n, rfl⟩) hslot, eq]
    exact ⟨_, rfl, noData_lost frame lost⟩
  case fetch =>
    obtain ⟨u, eq, frame⟩ := skeinRead_fetch_good (cls := c.val) (l := l) (p := none) dst hbad hecc
    rw [served, serveRequest_read (.inr ⟨n, dst, hop⟩) hslot, hop, eq]
    exact ⟨u, rfl, frame⟩
  case waits =>
    rw [served, serveRequest_waits hop hfull]
    rfl

end Sys2Proof.Machine
end

section
/-! Admission (family 02): the manager answers a request by hash and serial, a worker takes the reply and asks again (R72, R334, R343). -/

namespace Sys2Proof.Machine

/-- Where the keyed list of ranks holds one record for the rank put last, a search finds it. -/
theorem find?_rank_put (r n : Nat) (l : List (Nat × Nat)) :
    ((l.filter fun k => k.1 != r) ++ [(r, n)]).find? (fun x => x.1 == r) = some (r, n) := by
  have none : (l.filter fun k => k.1 != r).find? (fun x => x.1 == r) = none := by
    simp [List.find?_eq_none]
  simp [List.find?_append, none]

-- The answer to a request (R72).

theorem admission_otherHash {s : State} {hash : List Byte} (rank serial : Nat) (h : hash ≠ s.warp.logicalHash) :
    admission s rank hash serial = 2 := by
  simp [admission, h]

theorem admission_known {s : State} {hash : List Byte} {rank k : Nat} (serial : Nat) (h : hash = s.warp.logicalHash)
    (hk : s.job.knownSerials.find? (fun x => x.1 == rank) = some (rank, k)) :
    admission s rank hash serial = if k = serial then 1 else 3 := by
  simp [admission, h, hk]

theorem admission_unknown {s : State} {hash : List Byte} {rank : Nat} (serial : Nat) (h : hash = s.warp.logicalHash)
    (hk : s.job.knownSerials.find? (fun x => x.1 == rank) = none) : admission s rank hash serial = 1 := by
  simp [admission, h, hk]

/-- The answer depends on the image and on the admitted job alone, which an arriving frame leaves. -/
theorem admission_arrived (rx : Rx) (s : State) (rank : Nat) (hash : List Byte) (serial : Nat) :
    admission (arrived rx s) rank hash serial = admission s rank hash serial := by
  simp only [admission, arrived_warp, arrived_job]

theorem admitRank_keys (r n : Nat) (s : State) :
    (admitRank r n s).job.admittedRanks.find? (fun x => x.1 == r) = some (r, n) ∧
      (admitRank r n s).job.knownSerials.find? (fun x => x.1 == r) = some (r, n) :=
  ⟨find?_rank_put r n _, find?_rank_put r n _⟩

/-- No START goes out while a rank lacks (R334). -/
theorem formJob_incomplete {s : State} (h : s.job.admittedRanks.length ≠ deviceCount s) : formJob s = s := by
  simp [formJob, h]

theorem onAdmitRequest_arrived (rx : Rx) (s : State) : onAdmitRequest rx (arrived rx s) =
    let serial := leNat (slice (wordsBytes rx.frame.payload) 64 8)
    let a := admission s rx.frame.src.toNat ((wordsBytes rx.frame.payload).take 64) serial
    formJob (sendUnicast (mkFrame 0x21 0 0 0 rx.frame.src.toNat (rankOf s) 0 0 [w32 (a * 2 ^ 28)])
      (if a = 1 then admitRank rx.frame.src.toNat serial (arrived rx s) else arrived rx s)) := by
  simp only [onAdmitRequest, admission_arrived, rankOf_arrived, ftAdmitReply, beq_iff_eq]

-- The rows.

/-- A row of a frame that arrives acts on the state that took it. -/
theorem checked_receive {k : Rx → State → State} {rx : Rx} {s : State} {ok : Bool} (hok : ok = true) (ha : Arrives rx s) :
    checked ok (receive k rx s) = .next (k rx (arrived rx s)) := by
  rw [checked, if_pos hok, receive_arrives k rx s ha]

theorem exec_admitRequest {rx : Rx} {s : State} (ha : Arrives rx s) (hf : frameOf 0x20 rx = true) :
    exec (.admitRequest rx) s = .next (onAdmitRequest rx (arrived rx s)) := checked_receive hf ha

theorem exec_admitReply {rx : Rx} {s : State} (ha : Arrives rx s) (hf : frameOf 0x21 rx = true) :
    exec (.admitReply rx) s = .next (onAdmitReply rx (arrived rx s)) := checked_receive hf ha

theorem onAdmitReply_admitted {rx : Rx} (s : State) (h : wfield (wordAt rx.frame.payload 0) 31 28 = 1) :
    onAdmitReply rx s = s.onJob fun j => { j with admitted := true, answered := true } := by
  simp [onAdmitReply, h, raiseIf]

theorem onAdmitReply_refused {rx : Rx} (s : State) (h : wfield (wordAt rx.frame.payload 0) 31 28 ≠ 1) :
    onAdmitReply rx s = raise 0x5010 [rankOf s, wfield (wordAt rx.frame.payload 0) 31 28]
      (s.onJob fun j => { j with admitted := false, answered := true }) := by
  simp [onAdmitReply, bne, beq_eq_false_iff_ne.2 h, raiseIf]

/-- A worker that waits for its reply asks the manager again (R343). -/
theorem exec_admitRetry_waiting {s : State} (hl : standing s = .loaded ∨ standing s = .halted) (had : s.job.admitted = false)
    (han : s.job.answered = false) (hm : isManager s = false) :
    exec .admitRetry s = .next (sendUnicast (mkFrame 0x20 0 0 0 (managerRank s) (rankOf s) 0 0
      (bytesWords 16 s.warp.logicalHash ++ words64 moduleSerial)) s) := by
  have waits : ((standing s == .loaded || standing s == .halted) && !s.job.admitted && !s.job.answered && !isManager s) = true := by
    simpa [had, han, hm] using hl
  show execAdmitRetry s = _
  rw [execAdmitRetry, if_pos waits, askAdmission, hm]
  rfl

theorem exec_admitRetry_answered {s : State} (h : s.job.answered = true ∨ s.job.admitted = true) : exec .admitRetry s = .next s := by
  show execAdmitRetry s = _
  rcases h with h | h <;> simp [execAdmitRetry, h]

/-- Settles O34: the row of each frame on the state that took it, then the answer by hash and serial. -/
theorem admissionRows : Obligations.AdmissionRows := by
  unfold Obligations.AdmissionRows
  intro rx s
  refine ⟨fun ha hf => ?request, fun r n u => ?admits, fun u h => formJob_incomplete h, fun f u => State.rest_of (sendUnicast_quiet f u),
    fun ha hf => ?reply, exec_admitRetry_waiting, exec_admitRetry_answered⟩
  case request =>
    refine ⟨admission s rx.frame.src.toNat ((wordsBytes rx.frame.payload).take 64) (leNat (slice (wordsBytes rx.frame.payload) 64 8)),
      ?_, admission_otherHash _ _, fun k => admission_known _, admission_unknown _⟩
    rw [exec_admitRequest ha hf, onAdmitRequest_arrived]
  case admits =>
    obtain ⟨ranks, serials⟩ := admitRank_keys r n u
    exact ⟨by rw [ranks]; rfl, serials, rfl⟩
  case reply =>
    rw [exec_admitReply ha hf]
    exact ⟨fun h => by rw [onAdmitReply_admitted _ h], fun h => by rw [onAdmitReply_refused _ h, rankOf_arrived]⟩

end Sys2Proof.Machine
end

section
/-! Halt and start (family 02): what the halt decision and START leave of a device (R73, R202, R206, R338, R339, R485). -/

namespace Sys2Proof.Machine

theorem arrived_cases (rx : Rx) (s : State) : ∃ rov tel, arrived rx s = { s with rov := rov, tel := tel } := ⟨_, _, arrived_rest rx s⟩

-- Completion of the running STEP (R359, R364).

/-- A completion record goes to host memory, and its interrupt with it. -/
theorem complete_tel (q : QueueIx) (d : Desc) (c : Compl) (s : State) : complete q d c s = { s with tel := (complete q d c s).tel } := by
  unfold complete
  dsimp only
  split <;> rfl

/-- The STEP that completes leaves its queue; nothing else but the reports changes. -/
theorem completeStep_rest (status batch : Nat) (s : State) : ∃ tel weft, completeStep status batch s = { s with tel := tel, weft := weft } := by
  unfold completeStep completeRunning
  split
  · exact ⟨_, _, rfl⟩
  · rw [complete_tel]
    exact ⟨_, _, rfl⟩

-- HALT.

/-- The hanks are made ready in their block; the shards there stay. -/
theorem renewHanks_rest (keep : Bool) (s : State) : ∃ hanks lowRank, renewHanks keep s =
    { s with reel := { s.reel with hanks := hanks, lowRank := lowRank } } := ⟨_, _, rfl⟩

/-- The step controller once the undecided execution has ended (R206, R427). -/
def StpBlk.ended (b : StpBlk) : StpBlk :=
  { b.idleAgain with exec := 0, desc := none, inStep := b.pActive, begun := false, aged := [] }

/-- A shard without its shadow copy (R202). -/
def Shard.unshadowed (x : Shard) : Shard := { x with shadowReady := false, abandoned := false, shadowLeaf := [] }

/-- The end of an execution drops scratch and shadow copies, and leaves what is committed. -/
theorem endExecution_rest (s : State) : ∃ cores bob res ply hanks lowRank, endExecution s =
    { s with cores := cores, bob := bob, res := res, ply := ply, stp := s.stp.ended
             reel := { s.reel with hanks := hanks, lowRank := lowRank, kv := [], shards := s.reel.shards.map Shard.unshadowed } } := by
  unfold endExecution
  generalize hu : (s.onStp fun x => _).onPly _ = u
  obtain ⟨hanks, lowRank, renews⟩ := renewHanks_rest false u
  rw [renews]
  subst hu
  exact ⟨_, _, _, _, hanks, lowRank, rfl⟩

theorem unshadowed_shards (l : List Shard) :
    (l.map Shard.unshadowed).map (fun x => (x.tag, x.leaf)) = l.map (fun x => (x.tag, x.leaf)) ∧
      ∀ x ∈ l.map Shard.unshadowed, x.shadowReady = false := by
  constructor
  · simp [Shard.unshadowed, Function.comp_def]
  · simp [Shard.unshadowed]

/-- The state that the end of the execution is taken on when a HALT comes. -/
def haltNoted (d : DecHdr) (s : State) : State := noteDecision d s.stp.batch (nameMode d (noteOutcome 5 s))

/-- The loader block of a LOADED device that halts: the structure goes where a placed core is quarantined (R72). -/
def WarpBlk.halt (lost : Bool) (w : WarpBlk) : WarpBlk :=
  { w with state := .halted, dist := w.dist && !lost, templates := if lost then [] else w.templates }

/-- A LOADED device that has lost no committed state ends its execution and stands in HALTED. -/
theorem actHalt_loaded {s : State} (d : DecHdr) (hl : s.warp.state = .loaded) (hk : s.skn.stk.any (·.stateLost) = false) :
    ∃ tel weft cores bob res ply hanks lowRank, actHalt d s = { haltNoted d s with
      tel := tel, weft := weft, warp := s.warp.halt (structureLost s), cores := cores, bob := bob, res := res, ply := ply
      stp := (haltNoted d s).stp.ended
      reel := { s.reel with hanks := hanks, lowRank := lowRank, kv := [], shards := s.reel.shards.map Shard.unshadowed } } := by
  have idle : loadRunning s = false := by simp [loadRunning, hl]
  obtain ⟨tel, weft, done⟩ := completeStep_rest 0x11 s.stp.batch (endExecution (haltNoted d s))
  obtain ⟨cores, bob, res, ply, hanks, lowRank, ends⟩ := endExecution_rest (haltNoted d s)
  have drops : dropExecution (noteDecision d s.stp.batch (nameMode d (noteOutcome 5 s))) = _ := done
  refine ⟨tel, weft, cores, bob, res, ply, hanks, lowRank, ?_⟩
  simp only [actHalt, hk, idle, drops, ends, Bool.false_eq_true, if_false]
  rfl

-- START.

/-- The job as a START forms it, with the batch, step index and mode that it names (R338, R485). -/
def started (d : DecHdr) (batch : Nat) (s : State) : State :=
  let keepMode := s.stp.nextSettled && s.stp.nextReason == 3
  (noteDecision d batch <| s.onJob fun j =>
    { j with formed := true, haltedJob := false, acted := [], kept := [], resumed := standing s == .halted }).onStp fun b =>
      { b with batch := batch, stepIndex := d.step, exec := 0, nextSettled := d.nextSettled || keepMode
               nextReason := if d.nextSettled || !keepMode then d.reason else 3 }

theorem actStart_starts {s : State} (d : DecHdr) (batch : Nat) (h : standing s = .halted ∨ standing s = .loaded ∧ s.job.formed = false) :
    actStart d batch s = releaseHeld (renewHanks false (leaveHalted (started d batch s))) :=
  if_pos (by simpa using h)

theorem actStart_formed {s : State} (d : DecHdr) (batch : Nat) (hl : s.warp.state = .loaded) (hf : s.job.formed = true) :
    actStart d batch s = s :=
  if_neg (by simp [standing, hl, hf])

/-- A device whose START has come leaves HALTED with its distributed structure. -/
theorem leaveHalted_leaves {s : State} (hr : s.job.resumed = true) (hs : s.warp.state = .halted) (hd : s.warp.dist = true) :
    leaveHalted s = { s with warp := { s.warp with state := .loaded }, job := { s.job with resumed := false } } :=
  if_pos (by simp [hr, hs, hd])

theorem leaveHalted_stays {s : State} (h : s.job.resumed = false ∨ s.warp.state ≠ .halted ∨ s.warp.dist = false) : leaveHalted s = s :=
  if_neg (by rcases h with h | h | h <;> simp [h])

-- Decisions at a worker (R339).

theorem decisionOf_kind {k : Nat} {rx : Rx} (h : decisionOf k rx = true) : (readDec rx.frame.payload).kind = k := by
  simp only [decisionOf, Bool.and_eq_true, beq_iff_eq] at h
  exact h.2

theorem exec_halt {rx : Rx} {s : State} (ha : Arrives rx s) (hd : decisionOf 4 rx = true) :
    exec (.halt rx) s = .next (onDecision rx (arrived rx s)) := checked_receive hd ha

theorem exec_start {rx : Rx} {s : State} (ha : Arrives rx s) (hd : decisionOf 5 rx = true) :
    exec (.start rx) s = .next (onDecision rx (arrived rx s)) := checked_receive hd ha

section
variable {rx : Rx} {s : State}

theorem onDecision_start (hd : decisionOf 5 rx = true) :
    onDecision rx s = stopIfPlaced (actStart (readDec rx.frame.payload) rx.frame.batch.toNat s) := by
  simp only [onDecision, carryOut, decisionOf_kind hd]
  rfl

/-- The first halt decision of the present execution is noted and carried out. -/
theorem onDecision_halt (hd : decisionOf 4 rx = true) (hp : presentExec s rx.frame = true)
    (hn : s.job.acted.find? (fun y => y.batch == rx.frame.batch.toNat && y.exec == rx.frame.exec.toNat) = none) :
    ∃ acted, onDecision rx s = actHalt (readDec rx.frame.payload) (s.onJob fun j => { j with acted := acted }) := by
  refine ⟨(⟨rx.frame.batch.toNat, rx.frame.exec.toNat, rx.frame.payload⟩ :: s.job.acted).take 4, ?_⟩
  simp only [onDecision, carryOut, decisionOf_kind hd, hn, hp]
  rfl

/-- A second decision for an execution is ignored; one that differs is reported. -/
theorem onDecision_again {y : Decision} (hd : decisionOf 4 rx = true)
    (hy : s.job.acted.find? (fun y => y.batch == rx.frame.batch.toNat && y.exec == rx.frame.exec.toNat) = some y) :
    onDecision rx s = if y.payload = rx.frame.payload then s
      else raise 0x4021 [rx.frame.src.toNat, rx.frame.batch.toNat, rx.frame.exec.toNat] s := by
  simp only [onDecision, decisionOf_kind hd, hy]
  by_cases h : y.payload = rx.frame.payload <;> simp [h, raiseIf]

end

/-- Settles O38: the decision is read on the state that took its frame, then the halt and the start are what `actHalt_loaded` and
`actStart_starts` say. -/
theorem haltAndStartRows : Obligations.HaltAndStartRows := by
  unfold Obligations.HaltAndStartRows
  intro rx s ha
  refine ⟨fun hd hp hl hk hn => ?halt, fun hd hs => ?start, fun hd hl hf => ?formed, fun y hd hy => ?again⟩
  case halt =>
    rw [exec_halt ha hd]
    obtain ⟨rov, tel, eq⟩ := arrived_cases rx s
    rw [eq]
    obtain ⟨acted, first⟩ := onDecision_halt (s := { s with rov := rov, tel := tel }) hd hp hn
    obtain ⟨tel', weft, cores, bob, res, ply, hanks, lowRank, halts⟩ := actHalt_loaded
      (s := ({ s with rov := rov, tel := tel } : State).onJob fun j => { j with acted := acted }) (readDec rx.frame.payload) hl hk
    rw [first, halts]
    obtain ⟨leaves, shadows⟩ := unshadowed_shards s.reel.shards
    exact ⟨_, rfl, rfl, rfl, rfl, rfl, rfl, rfl, rfl, rfl, rfl, rfl, leaves, shadows, rfl, rfl, rfl, rfl, rfl⟩
  case start =>
    rw [exec_start ha hd, onDecision_start hd]
    obtain ⟨rov, tel, eq⟩ := arrived_cases rx s
    rw [eq, actStart_starts (s := { s with rov := rov, tel := tel }) _ _ hs]
    refine ⟨_, rfl, ?_⟩
    by_cases leaves : s.warp.state = .halted ∧ s.warp.dist = true
    · obtain ⟨hst, hdist⟩ := leaves
      have resumed : (standing s == .halted) = true := by simp [standing, hst]
      rw [leaveHalted_leaves (s := started (readDec rx.frame.payload) rx.frame.batch.toNat { s with rov := rov, tel := tel }) resumed hst hdist]
      exact ⟨rfl, fun _ _ => rfl, fun h => (not_and_or.2 (h.imp_right Bool.eq_false_iff.1)).elim ⟨hst, hdist⟩, rfl, rfl, rfl, rfl, rfl, rfl,
        rfl, rfl, rfl, rfl, rfl⟩
    · have stays : s.warp.state ≠ .halted ∨ s.warp.dist = false := (not_and_or.1 leaves).imp_right Bool.eq_false_iff.2
      rw [leaveHalted_stays (s := started (readDec rx.frame.payload) rx.frame.batch.toNat { s with rov := rov, tel := tel }) (.inr stays)]
      exact ⟨rfl, fun h h' => absurd ⟨h, h'⟩ leaves, fun _ => ⟨rfl, fun h => beq_iff_eq.2 h⟩, rfl, rfl, rfl, rfl, rfl, rfl, rfl, rfl, rfl,
        rfl, rfl⟩
  case formed =>
    rw [exec_start ha hd, onDecision_start hd, actStart_formed _ _ (by rw [arrived_warp]; exact hl) (by rw [arrived_job]; exact hf)]
  case again =>
    rw [exec_halt ha hd, onDecision_again hd (by rw [arrived_job]; exact hy)]

end Sys2Proof.Machine
end

section
/-! The head of a descriptor queue (families 02 and 11): which row treats it, what refuses it, and the acceptance of STEP and SEED
(R56, R356, R361 to R369). -/

namespace Sys2Proof.Machine

-- Queues.

/-- Two changes of a queue that agree on what it holds are one. -/
theorem State.onQueue_congr {s : State} {q : QueueIx} {f g : Queue → Queue} (h : f (s.queue q) = g (s.queue q)) :
    s.onQueue q f = s.onQueue q g := by
  unfold State.queue at h
  unfold State.onQueue State.onWeft
  split at h <;> simp_all

/-- The descriptor that a queue treats next: fetched, and its turn (R356, R367). -/
structure AtTurn (q : QueueIx) (d : Desc) (ds : List Desc) (s : State) : Prop where
  fetched : (s.queue q).fetched = d :: ds
  enabled : (s.queue q).st = .enabled
  units : unitsRun s = true
  free : (s.queue q).running = none

section
variable {q : QueueIx} {ty : Nat} {k : Desc → State → State} {d : Desc} {ds : List Desc} {s : State}

/-- A queue without a descriptor whose turn it is treats nothing. -/
theorem atHead_idle (h : (s.queue q).fetched = [] ∨ (s.queue q).st ≠ .enabled ∨ (s.queue q).running.isSome = true ∨ unitsRun s = false) :
    atHead q ty k s = s := by
  unfold atHead
  dsimp only
  split
  · rfl
  · rename_i d ds hf
    have waits : ((s.queue q).st != .enabled || (s.queue q).running.isSome || !unitsRun s) = true := by
      rcases h with h | h | h | h
      · simp [hf] at h
      all_goals simp [h]
    rw [if_pos waits]

theorem atHead_turn (h : AtTurn q d ds s) :
    atHead q ty k s = if carries q d.type = false then refuseHead q 1 0 s else if d.type = ty then k d s else s := by
  obtain ⟨fetched, enabled, units, free⟩ := h
  simp only [atHead, fetched, enabled, units, free]
  simp

theorem atHead_wrongType (h : AtTurn q d ds s) (hc : carries q d.type = false) : atHead q ty k s = refuseHead q 1 0 s := by
  rw [atHead_turn h, if_pos hc]

theorem atHead_otherRow (h : AtTurn q d ds s) (hc : carries q d.type = true) (ht : d.type ≠ ty) : atHead q ty k s = s := by
  rw [atHead_turn h, if_neg (by simp [hc]), if_neg ht]

theorem atHead_ownRow (h : AtTurn q d ds s) (hc : carries q d.type = true) (ht : d.type = ty) : atHead q ty k s = k d s := by
  rw [atHead_turn h, if_neg (by simp [hc]), if_pos ht]

end

/-- A refusal takes the descriptor, counts, reports and completes it (R368). -/
theorem refuseHead_eq {q : QueueIx} {d : Desc} {ds : List Desc} {s : State} (st det : Nat) (hf : (s.queue q).fetched = d :: ds) :
    refuseHead q st det s = complete q d { status := st, detail := det, batch := s.stp.batch }
      ((raise 0x5021 [q.val, d.slot, st, det] (count 16 (queueBase q + 0x30) 1 s)).onQueue q fun x => { x with fetched := ds }) := by
  have head : ((raise 0x5021 [q.val, d.slot, st, det] (countErr (queueBase q + 0x30) s)).queue q).fetched = d :: ds := hf
  simp only [refuseHead, completeHead, hf, head]
  exact congrArg _ (State.onQueue_congr (by simp only [head]; rfl))

-- The first status that applies (R368).

theorem firstStatus_none {l : List (Nat × Option Nat)} : firstStatus l = none ↔ ∀ c ∈ l, c.2 = none := by
  induction l with
  | nil => simp [firstStatus]
  | cons c cs ih => cases h : c.2 <;> simp [firstStatus, h, ih]

/-- Where a check fails, the status found is the one of that check or of one before it. -/
theorem firstStatus_upTo {n : Nat} (c : Nat × Option Nat) (after : List (Nat × Option Nat)) (hc : c.2.isSome = true) (hn : c.1 ≤ n) :
    ∀ before : List (Nat × Option Nat), (∀ x ∈ before, x.1 ≤ n) →
      ∃ st det, firstStatus (before ++ c :: after) = some (st, det) ∧ st ≤ n := by
  intro before
  induction before with
  | nil =>
    intro _
    obtain ⟨det, h⟩ := Option.isSome_iff_exists.1 hc
    exact ⟨c.1, det, by simp [firstStatus, h], hn⟩
  | cons x xs ih =>
    intro hx
    cases h : x.2 with
    | none => simpa [firstStatus, h] using ih fun y hy => hx y (List.mem_cons_of_mem _ hy)
    | some det => exact ⟨x.1, det, by simp [firstStatus, h], hx x List.mem_cons_self⟩

theorem checkedHead_refused {q : QueueIx} {cs : List (Nat × Option Nat)} {k : State → State} {s : State} {x : Nat × Nat}
    (h : firstStatus cs = some x) : checkedHead q cs k s = refuseHead q x.1 x.2 s := by
  simp only [checkedHead, h]

theorem checkedHead_passed {q : QueueIx} {cs : List (Nat × Option Nat)} {k : State → State} {s : State}
    (h : firstStatus cs = none) : checkedHead q cs k s = k s := by
  simp only [checkedHead, h]

-- The rows of queue 0.

/-- A row of queue 0 with the type of the descriptors that it treats. -/
def rowOfQueue0 (ty : Nat) (c : Instr) : Prop :=
  (ty, c) = (3, .seed) ∨ (∃ e, (ty, c) = (4, .ckptSave e)) ∨ (∃ a b p, (ty, c) = (1, .step a b p)) ∨
    (∃ a b r p e, (ty, c) = (2, .infer a b r p e)) ∨ (∃ b p, (ty, c) = (5, .ckptRestore b p))

theorem rowOfQueue0.exec_eq {ty : Nat} {c : Instr} (h : rowOfQueue0 ty c) (s : State) : ∃ k, exec c s = .next (atHead 0 ty k s) := by
  rcases h with h | ⟨_, h⟩ | ⟨_, _, _, h⟩ | ⟨_, _, _, _, _, h⟩ | ⟨_, _, h⟩ <;> cases h <;> exact ⟨_, rfl⟩

-- The rows of queue 1 (R348, R367).

/-- The type of descriptor that a copy row treats. -/
def copyType (isIn : Bool) : Nat := if isIn then 0x10 else 0x11

/-- The start of a copy that meets no refusal. -/
def copyStart (isIn poison : Bool) (k : Desc → Nat → State → State) (d : Desc) (s : State) : State :=
  checkedHead 1 (copyChecks s d isIn poison)
    (fun u => k d 0 (u.onQueue 1 fun y => { y with fetched := y.fetched.drop 1, running := some d, moved := 0 })) s

/-- A row of queue 1 with its type. -/
def rowOfQueue1 (ty : Nat) (c : Instr) : Prop :=
  (∃ b p e, wholeLinesLong b.length = true ∧ (ty, c) = (0x10, .copyIn b p e)) ∨
    (∃ n e, wholeLinesLong n = true ∧ (ty, c) = (0x11, .copyOut n e))

theorem rowOfQueue1.exec_eq {ty : Nat} {c : Instr} (h : rowOfQueue1 ty c) (s : State) :
    ∃ isIn p k, exec c s = .next (copyRun isIn p k s) ∧ ty = copyType isIn := by
  rcases h with ⟨b, p, e, hl, h⟩ | ⟨n, e, hl, h⟩ <;> cases h
  · exact ⟨true, p, copyInRun b p e, if_pos hl, rfl⟩
  · exact ⟨false, false, copyOutRun n e, if_pos hl, rfl⟩

section
variable {isIn p : Bool} {k : Desc → Nat → State → State} {s : State}

/-- With no copy running that could go on, the head of the queue is treated. -/
theorem copyRun_head (h : (s.queue 1).running = none ∨ (s.queue 1).st ≠ .enabled ∨ unitsRun s = false) :
    copyRun isIn p k s = atHead 1 (copyType isIn) (copyStart isIn p k) s := by
  unfold copyRun
  dsimp only
  split
  · rename_i d hst hrun
    have on : unitsRun s = true ∧ (s.queue 1).st = .enabled := by
      by_cases hu : unitsRun s = true
      · exact ⟨hu, by simpa [hu] using hst⟩
      · simp [hu] at hst
    simp [on, hrun] at h
  · rfl

theorem copyRun_running {d : Desc} (hst : (s.queue 1).st = .enabled) (hu : unitsRun s = true) (hr : (s.queue 1).running = some d) :
    copyRun isIn p k s = if (d.type == 0x10) = isIn then k d (s.queue 1).moved s else s := by
  simp only [copyRun, hst, hu, hr, if_true, beq_iff_eq]

end

-- STEP (R361 to R364).

section
variable {s : State} {d : Desc} {b : BatchIn}

theorem stepChecks_noImage (h : s.warp.state ≠ .loaded) : ∃ st det, firstStatus (stepChecks s d b) = some (st, det) ∧ st ≤ 4 :=
  firstStatus_upTo (4, noImage s) _ (by simp [noImage, failIf, h]) le_rfl [_, _] (by simp)

theorem stepChecks_noSeed (h : s.nep.seed = none) : ∃ st det, firstStatus (stepChecks s d b) = some (st, det) ∧ st ≤ 5 :=
  firstStatus_upTo (5, failIf s.nep.seed.isNone) _ (by simp [failIf, h]) le_rfl [_, _, _] (by simp)

theorem stepChecks_otherBatch (h : stepBatch d ≠ s.stp.batch) : ∃ st det, firstStatus (stepChecks s d b) = some (st, det) ∧ st ≤ 8 :=
  firstStatus_upTo (8, failIf (stepBatch d != s.stp.batch)) _ (by simp [failIf, h]) le_rfl [_, _, _, _] (by simp)

/-- A STEP that passes its checks names the present batch. -/
theorem stepBatch_of_passed (h : firstStatus (stepChecks s d b) = none) : stepBatch d = s.stp.batch := by
  by_contra other
  obtain ⟨st, det, fails, -⟩ := stepChecks_otherBatch (b := b) other
  rw [h] at fails
  cases fails

/-- What an accepted STEP brings: its batch in the step block, its tokens in the free half, and itself as the one that runs. -/
theorem acceptStep_rest {ds : List Desc} (hf : (s.queue 0).fetched = d :: ds) :
    (acceptStep d b s).stp.desc = some ⟨stepBatch d, b.es, s.stp.nextHalf, wbit (wordAt d.words 0) 0⟩ ∧
      (acceptStep d b s).stp.nextHalf = !s.stp.nextHalf ∧ ((acceptStep d b s).queue 0).running = some d ∧
      ((acceptStep d b s).queue 0).fetched = ds ∧
      (acceptStep d b s).skein = s.skein.writeWords (tokenHalf s s.stp.nextHalf) (batchTokens s b) ∧
      acceptStep d b s = { s with stp := (acceptStep d b s).stp, job := (acceptStep d b s).job, weft := (acceptStep d b s).weft
                                  skein := (acceptStep d b s).skein, skn := (acceptStep d b s).skn } := by
  unfold acceptStep
  dsimp only
  split
  · exact ⟨rfl, rfl, rfl, congrArg (·.drop 1) hf, rfl, rfl⟩
  · exact ⟨rfl, rfl, rfl, congrArg (·.drop 1) hf, rfl, rfl⟩

theorem stepHead_free {a t : List Word} {p : Option Nat} (hd : s.stp.desc = none) (hr : s.stp.running = false) :
    stepHead a t p d s = checkedHead 0 (stepChecks s d (stepIn d a t p)) (acceptStep d (stepIn d a t p)) s := by
  simp [stepHead, hd, hr]

end

-- SEED (R56, R366).

/-- The reserved fields of a SEED descriptor are clear. -/
structure SeedClear (d : Desc) : Prop where
  header : hdrClear (wordAt d.words 0) = true
  bit : wbit (wordAt d.words 0) 0 = false
  words : ∀ i, 6 ≤ i → i < 32 → wordAt d.words i = 0

section
variable {s : State} {d : Desc}

theorem zeroFrom_clear {n : Nat} {ws : List Word} (h : ∀ i, n ≤ i → i < 32 → wordAt ws i = 0) : firstBad (zeroFrom n ws) = none := by
  have clear : ∀ c ∈ zeroFrom n ws, c.2 = true := by
    intro c hc
    obtain ⟨i, hi, rfl⟩ := List.mem_map.1 hc
    obtain ⟨j, hj, rfl⟩ := List.mem_drop_iff_getElem.1 hi
    simp only [List.getElem_range, beq_iff_eq]
    exact h _ (by omega) (by simpa [Nat.add_comm] using hj)
  simp only [firstBad, Option.map_eq_none_iff, List.find?_eq_none]
  intro c hc
  simp [clear c hc]

theorem seedFields_clear (h : SeedClear d) :
    firstBad ((0, hdrClear (wordAt d.words 0) && !wbit (wordAt d.words 0) 0) :: zeroFrom 6 d.words) = none := by
  have words := zeroFrom_clear h.words
  simpa [firstBad, h.header, h.bit] using words

/-- A SEED of the right form on a LOADED device meets the checks of its commitment alone. -/
theorem seedHead_clear (h : SeedClear d) (hl : s.warp.state = .loaded) :
    seedHead d s = checkedHead 0 [(0x06, failIf (seedCommitment (seedBytes d) != imageCommitment s)), (0x07, failIf s.nep.seed.isSome)]
      (fun t => completeHead 0 { status := 0, batch := t.stp.batch } (t.onNep fun n => { n with seed := some (seedBytes d) }))
      (raiseIf (seedCommitment (seedBytes d) != imageCommitment s) 0x5005 [] s) := by
  have loaded : standing s = .loaded := by simp [standing, hl]
  simp [seedHead, seedFields_clear h, loaded, checkedHead, firstStatus, noImage, failIf, hl]

end

-- Reads that are not answered (R369).

/-- A read that fails refuses the descriptor with the first status that applies. -/
theorem readTimeout_refused {q : QueueIx} {a b r : List Word} {w : Nat} {s : State} {d : Desc} {x : Nat × Nat} (hn : readsNow q s = some d)
    (hr : (s.queue q).running = none) (hx : firstStatus (readChecks q a b r w d s) = some x) :
    readTimeout q a b r w s = refuseHead q x.1 x.2 (if x.1 = 0x10 then raise 0x5023 [q.val, d.slot] s else s) := by
  obtain ⟨st, det⟩ := x
  simp only [readTimeout, hn, hr, hx]
  by_cases h : st = 0x10
  · subst h; rfl
  · simp [h]

/-- One that fails while a COPY_IN runs ends it as poisoned data does. -/
theorem readTimeout_copyIn {a b r : List Word} {w : Nat} {s : State} {d : Desc} (hst : (s.queue 1).st = .enabled)
    (hr : (s.queue 1).running = some d) (ht : d.type = 0x10) :
    readTimeout 1 a b r w s = copyInRun [] true none d (s.queue 1).moved (raise 0x5023 [1, d.slot] s) := by
  have now : readsNow 1 s = some d := by simp [readsNow, hst, hr]
  simp [readTimeout, now, hr, ht]

/-- Settles O51: what a queue treats, by `atHead` and `copyRun`; then STEP, SEED and the failed reads on the descriptor at the head. -/
theorem descriptorHeadRows : Obligations.DescriptorHeadRows := by
  unfold Obligations.DescriptorHeadRows
  intro s
  refine ⟨fun ty c row => ?queue0, fun ty c row => ?queue1, fun q d ds st det hf => refuseHead_eq st det hf, fun q d c u => ?frame,
    fun d ds a b p hf hst hu hr ht hd hrun => ?step, fun d ds hf hst hu hr ht hh hb hw hl => ?seed, fun q a b r w => ?timeout,
    fun d a b r w hst hu hr ht => ?copy⟩
  case queue0 =>
    obtain ⟨k, eq⟩ := rowOfQueue0.exec_eq row s
    rw [eq]
    refine ⟨fun h => by rw [atHead_idle h], fun d ds hf hst hu hr => ?_⟩
    have turn : AtTurn 0 d ds s := ⟨hf, hst, hu, hr⟩
    exact ⟨fun hc => by rw [atHead_wrongType turn hc], fun hc ht => by rw [atHead_otherRow turn hc ht]⟩
  case queue1 =>
    obtain ⟨isIn, p, k, eq, rfl⟩ := rowOfQueue1.exec_eq row s
    rw [eq]
    refine ⟨fun h => ?idle, fun d hst hu hr ht => ?other, fun d ds hf hst hu hr => ?head⟩
    case idle =>
      rw [copyRun_head (by tauto), atHead_idle (by tauto)]
    case other =>
      rw [copyRun_running hst hu hr, if_neg fun h => ht ?_]
      cases isIn <;> simpa [copyType] using h
    case head =>
      have turn : AtTurn 1 d ds s := ⟨hf, hst, hu, hr⟩
      rw [copyRun_head (.inl hr)]
      exact ⟨fun hc => by rw [atHead_wrongType turn hc], fun hc ht => by rw [atHead_otherRow turn hc ht]⟩
  case frame =>
    rw [complete_tel q d c u]
  case step =>
    have carried : carries 0 d.type = true := by rw [ht]; rfl
    have row : exec (.step a b p) s = .next (stepHead a b p d s) := congrArg Host.Outcome.next (atHead_ownRow ⟨hf, hst, hu, hr⟩ carried ht)
    rw [row, stepHead_free hd hrun]
    refine ⟨stepChecks_noImage, stepChecks_noSeed, stepChecks_otherBatch, fun st det h => by rw [checkedHead_refused h], fun h => ?_⟩
    obtain ⟨desc, half, running, fetched, skein, frame⟩ := acceptStep_rest (b := stepIn d a b p) hf
    rw [checkedHead_passed h]
    exact ⟨_, rfl, by rw [desc, stepBatch_of_passed h], half, running, fetched, skein, frame⟩
  case seed =>
    have carried : carries 0 d.type = true := by rw [ht]; rfl
    have row : exec .seed s = .next (seedHead d s) := congrArg Host.Outcome.next (atHead_ownRow ⟨hf, hst, hu, hr⟩ carried ht)
    rw [row, seedHead_clear ⟨hh, hb, hw⟩ hl]
    refine ⟨fun same hs => ?_, fun same hs => ?_, fun differs => ?_⟩
    · simp [same, hs, failIf, raiseIf, checkedHead, firstStatus, State.onNep]
    · simp [same, hs, failIf, raiseIf, checkedHead, firstStatus]
    · simp [differs, failIf, raiseIf, checkedHead, firstStatus]
  case timeout =>
    refine ⟨fun hn => ?_, fun d x hn hr hx => congrArg Host.Outcome.next (readTimeout_refused hn hr hx)⟩
    refine congrArg Host.Outcome.next ?_
    simp only [readTimeout, hn]
  case copy =>
    have again : copyRun true true (copyInRun [] true none) (raise 0x5023 [1, d.slot] s) =
        copyInRun [] true none d (s.queue 1).moved (raise 0x5023 [1, d.slot] s) :=
      (copyRun_running (s := raise 0x5023 [1, d.slot] s) hst hu hr).trans (if_pos (by simp [ht]))
    exact congrArg Host.Outcome.next ((readTimeout_copyIn hst hr ht).trans again.symm)

end Sys2Proof.Machine
end

section
/-! What a reel frame leaves of the loader, E, the committed state and the execution (R66, R332): the frames held for a job that forms
change none of them. -/

namespace Sys2Proof.Machine

/-- What a reel frame leaves of a job that has just formed: the loader, E with its clean steps, the stacks whose committed state is lost,
the execution, and that the job is formed. -/
def State.course (s : State) := (s.warp, s.num.e, s.num.clean, (fun k => (s.stack k).stateLost), s.stp.exec, s.job.formed)

theorem course_of_quiet {s t : State} (h : t.quiet = s.quiet) : t.course = s.course := by
  rw [State.rest_of h]; rfl

section
variable (s : State)

@[simp] theorem State.onRov_course (f : RovBlk → RovBlk) : (s.onRov f).course = s.course := rfl
@[simp] theorem State.onPly_course (f : PlyBlk → PlyBlk) : (s.onPly f).course = s.course := rfl
@[simp] theorem State.onReel_course (f : ReelBlk → ReelBlk) : (s.onReel f).course = s.course := rfl
@[simp] theorem State.onSec_course (f : SecBlk → SecBlk) : (s.onSec f).course = s.course := rfl
@[simp] theorem State.onBob_course (f : BobBlk → BobBlk) : (s.onBob f).course = s.course := rfl
@[simp] theorem State.onStp_course (f : StpBlk → StpBlk) (h : (f s.stp).exec = s.stp.exec) : (s.onStp f).course = s.course := by
  unfold State.course
  rw [State.onStp_stp, h]
  rfl
@[simp] theorem State.onJob_course (f : JobBlk → JobBlk) (h : (f s.job).formed = s.job.formed) : (s.onJob f).course = s.course := by
  unfold State.course
  rw [State.onJob_job, h]
  rfl
@[simp] theorem State.onNum_course (f : NumBlk → NumBlk) (he : (f s.num).e = s.num.e) (hc : (f s.num).clean = s.num.clean) :
    (s.onNum f).course = s.course := by
  unfold State.course
  rw [State.onNum_num, he, hc]
  rfl
@[simp] theorem State.onStack_course (k : StackIx) (f : Stack → Stack) (h : ∀ x, (f x).stateLost = x.stateLost) :
    (s.onStack k f).course = s.course := by
  have lost : (fun j => ((s.onStack k f).stack j).stateLost) = fun j => (s.stack j).stateLost :=
    funext fun j => State.stateLost_onStack s k j f h
  unfold State.course
  rw [lost]
  rfl
@[simp] theorem raise_course (c : Half) (p : List Nat) : (raise c p s).course = s.course := rfl
@[simp] theorem raiseIf_course (b : Bool) (c : Half) (p : List Nat) : (raiseIf b c p s).course = s.course := by cases b <;> rfl
@[simp] theorem count_course (b k n : Nat) : (count b k n s).course = s.course := rfl
@[simp] theorem countEvt_course (k : Nat) : (countEvt k s).course = s.course := rfl
@[simp] theorem countErr_course (k : Nat) : (countErr k s).course = s.course := rfl
@[simp] theorem faultNow_course : (faultNow s).course = s.course := rfl
@[simp] theorem giveBack_course (p : PortIx) (v n : Nat) : (giveBack p v n s).course = s.course := rfl
@[simp] theorem sendUnicast_course (f : Frame) : (sendUnicast f s).course = s.course := course_of_quiet (sendUnicast_quiet f s)
@[simp] theorem broadcast_course (f : Frame) : (broadcast f s).course = s.course := course_of_quiet (broadcast_quiet f s)
@[simp] theorem dropRevoked_course (b e : Nat) : (dropRevoked b e s).course = s.course := course_of_quiet (dropRevoked_quiet b e s)
@[simp] theorem sendOn_course (p : Option PortIx) (f : Frame) : (sendOn p f s).course = s.course := course_of_quiet (sendOn_quiet p f s)
@[simp] theorem noteError_course (addr kind : Nat) (byScrub : Bool) (cls symbol : Nat) :
    (noteError addr kind byScrub cls symbol s).course = s.course := by
  simp [noteError]

end

@[simp] theorem ite_course (c : Prop) [Decidable c] (a b : State) : (if c then a else b).course = if c then a.course else b.course := by
  split <;> rfl

@[simp] theorem foldl_course {α : Type} (f : State → α → State) (h : ∀ s x, (f s x).course = s.course) (l : List α) (s : State) :
    (l.foldl f s).course = s.course := by
  induction l generalizing s with
  | nil => rfl
  | cons x xs ih => rw [List.foldl_cons, ih, h]

-- The arrival of a frame at its endpoint.
@[simp] theorem batchKhz_course (scaled tick : Nat) (s : State) : (batchKhz scaled tick s).course = s.course := rfl
@[simp] theorem frameParity_course (boundary : Fin 8) (s : State) : (frameParity boundary s).course = s.course := rfl
@[simp] theorem endpoint_course (first : Bool) (k : Rx → State → State) (r : Rx) (s : State) (hk : ∀ x y, (k x y).course = y.course) :
    (endpoint first k r s).course = s.course := by
  unfold endpoint
  dsimp only
  (repeat' split) <;> simp [*]
@[simp] theorem holdSkip_course (s : State) : (holdSkip s).course = s.course := rfl
@[simp] theorem managerNotice_course (s : State) : (managerNotice s).course = s.course := by simp [managerNotice]
@[simp] theorem noteNonfinite_course (s : State) : (noteNonfinite s).course = s.course := by
  unfold noteNonfinite
  dsimp only
  (repeat' split) <;> simp

-- Hanks (chapter 6): contributions, adders, shards and the requests between owners.
@[simp] theorem State.putPlaces_course (s : State) (ps : List (Nat × Nat)) (bs : List Byte) :
    (State.putPlaces s ps bs).course = s.course := rfl
@[simp] theorem State.onHank_course (s : State) (tag : Nat) (f : HankRt → HankRt) : (State.onHank s tag f).course = s.course := rfl
@[simp] theorem sendReel_course (marker : BitVec 4) (role par dest : Nat) (h : RHdr) (body : List Word) (s : State) :
    (sendReel marker role par dest h body s).course = s.course := by
  simp [sendReel]
@[simp] theorem distribute_course (marker : BitVec 4) (owner : Nat) (h : RHdr) (body : List Word) (s : State) :
    (distribute marker owner h body s).course = s.course := by
  simp [distribute]
@[simp] theorem readSources_course (tag : Nat) (c : Contribution) (s : State) :
    (readSources tag c s).course = s.course := by
  unfold readSources
  split <;> simp
@[simp] theorem readRetained_course (h : HankRt) (s : State) : (readRetained h s).course = s.course := by simp [readRetained]
@[simp] theorem countClips_course (tag : Nat) (c : Contribution) (s : State) :
    (countClips tag c s).course = s.course := by
  unfold countClips
  split <;> simp
@[simp] theorem forwardPartial_course (tag : Nat) (h : HankRt) (second : Bool) (tile seg : Nat) (contributors : Nat) (c : Checked) (s : State) :
    (forwardPartial tag h second tile seg contributors c s).course = s.course := by
  unfold forwardPartial
  split <;> simp
@[simp] theorem finishAdder_course (tag : Nat) (second : Bool) (tile seg : Nat) (s : State) :
    (finishAdder tag second tile seg s).course = s.course := by
  unfold finishAdder
  (repeat' split) <;> simp
@[simp] theorem enterTile_course (tag : Nat) (second : Bool) (tile : Nat) (s : State) :
    (enterTile tag second tile s).course = s.course := by
  refine foldl_course _ (fun t seg => ?_) _ s
  split <;> simp
@[simp] theorem enterHank_course (tag : Nat) (second : Bool) (s : State) :
    (enterHank tag second s).course = s.course := by
  unfold enterHank
  split <;> simp
@[simp] theorem capture_course (comparator : Nat) (c : Capture) (s : State) : (capture comparator c s).course = s.course := rfl
@[simp] theorem comparePaths_course (p : Hank) (h : HankRt) (s : State) : (comparePaths p h s).course = s.course := by
  unfold comparePaths
  dsimp only
  split
  · simp
  · rw [raise_course, countErr_course, capture_course, State.onPly_course, State.onStp_course _ _ rfl, countEvt_course,
      State.onHank_course]
@[simp] theorem abandonShard_course (tag : Nat) (s : State) : (abandonShard tag s).course = s.course := rfl
@[simp] theorem beginU_course (s : State) : (beginU s).course = s.course := by
  refine State.onStp_course s _ ?_; dsimp only; split <;> rfl
@[simp] theorem hankProgress_course (tag : Nat) (s : State) : (hankProgress tag s).course = s.course := by
  unfold hankProgress
  (repeat' split) <;> simp
@[simp] theorem secondPath_course (tag : Nat) (was : HankSt) (s : State) :
    (secondPath tag was s).course = s.course := by
  unfold secondPath
  split <;> simp
@[simp] theorem advanceHank_course (tag : Nat) (s : State) : (advanceHank tag s).course = s.course := by unfold advanceHank; split <;> simp
@[simp] theorem restartHank_course (tag : Nat) (s : State) :
    (restartHank tag s).course = s.course := by
  unfold restartHank
  dsimp only
  split <;> simp
@[simp] theorem markHank_course (tag : Nat) (s : State) : (markHank tag s).course = s.course := by simp [markHank]
@[simp] theorem ownerRescale_course (tag attempt detector : Nat) (s : State) :
    (ownerRescale tag attempt detector s).course = s.course := by
  unfold ownerRescale
  split <;> simp
@[simp] theorem askRescale_course (tag : Nat) (s : State) : (askRescale tag s).course = s.course := by
  unfold askRescale
  (repeat' split) <;> simp
@[simp] theorem settleHank_course (tag : Nat) (s : State) : (settleHank tag s).course = s.course := by simp [settleHank]
@[simp] theorem openHank_course (tag : Nat) (s : State) : (openHank tag s).course = s.course := rfl
@[simp] theorem beginG_course (s : State) : (beginG s).course = s.course := by
  refine State.onStp_course s _ ?_; dsimp only; split <;> rfl
@[simp] theorem startG_course (s : State) : (startG s).course = s.course := by
  unfold startG
  split
  · rfl
  · refine foldl_course _ (fun t p => ?_) _ s
    split
    · split <;> simp
    · rfl
@[simp] theorem reelInvalid_course (r : Rx) (s : State) : (reelInvalid r s).course = s.course := rfl
@[simp] theorem useSegment_course (h : RHdr) (ws : List Word) (s : State) : (useSegment h ws s).course = s.course := by simp [useSegment]
@[simp] theorem takeSegment_course (r : Rx) (s : State) :
    (takeSegment r s).course = s.course := by
  unfold takeSegment
  dsimp only
  split <;> simp
@[simp] theorem onSegment_course (r : Rx) (s : State) : (onSegment r s).course = s.course := by simp [onSegment]
@[simp] theorem releaseSegments_course (tag : Nat) (s : State) :
    (releaseSegments tag s).course = s.course := by
  unfold releaseSegments
  split <;> simp
@[simp] theorem onRescale_course (r : Rx) (s : State) : (onRescale r s).course = s.course := by
  unfold onRescale
  dsimp only
  (repeat' split) <;> simp

-- Low-rank factors, the phase spans and the scale proposals.
@[simp] theorem State.onLowRank_course (s : State) (layer : Nat) (f : LowRankRt → LowRankRt) :
    (State.onLowRank s layer f).course = s.course := rfl
@[simp] theorem takeFactor_course (layer kind tile seg : Nat) (vals : List Word) (s : State) :
    (takeFactor layer kind tile seg vals s).course = s.course := by
  unfold takeFactor
  dsimp only
  split
  · rfl
  · split
    · split <;> rfl
    · split
      · rfl
      · split
        · refine (foldl_course _ (fun _ _ => ?_) _ _).trans ?_ <;> rfl
        · rfl
@[simp] theorem sendFactor_course (tag : Nat) (s : State) : (sendFactor tag s).course = s.course := by unfold sendFactor; split <;> simp
@[simp] theorem sendNewFactors_course (before : State) (s : State) : (sendNewFactors before s).course = s.course := by
  unfold sendNewFactors
  refine foldl_course _ (fun t p => ?_) _ s
  dsimp only
  (repeat' split) <;> simp
@[simp] theorem tellReduced_course (s : State) : (tellReduced s).course = s.course := by simp [tellReduced]
@[simp] theorem endF_course (s : State) : (endF s).course = s.course := by unfold endF; split <;> simp
@[simp] theorem endB_course (s : State) : (endB s).course = s.course := by
  unfold endB
  dsimp only
  (repeat' split) <;> simp
@[simp] theorem startU_course (s : State) : (startU s).course = s.course := by simp [startU]
@[simp] theorem noteSpans_course (s : State) : (noteSpans s).course = s.course := by
  unfold noteSpans
  dsimp only
  rw [State.onStp_course _ _ rfl]
  simp
@[simp] theorem noteEnds_course (s : State) : (noteEnds s).course = s.course := by simp [noteEnds]
@[simp] theorem noteUpdateOvf_course (tag n : Nat) (s : State) : (noteUpdateOvf tag n s).course = s.course := by
  unfold noteUpdateOvf
  split
  · rfl
  · exact (raiseIf_course ..).trans rfl
@[simp] theorem agreeScale_course (tag : Nat) (rho : Int) (s : State) : (agreeScale tag rho s).course = s.course := rfl
@[simp] theorem tryAgree_course (tag : Nat) (s : State) : (tryAgree tag s).course = s.course := by
  unfold tryAgree
  dsimp only
  (repeat' split) <;> simp
@[simp] theorem addProposal_course (tag source : Nat) (rho : Int) (s : State) :
    (addProposal tag source rho s).course = s.course := by
  simp [addProposal]
@[simp] theorem onProposal_course (r : Rx) (s : State) : (onProposal r s).course = s.course := by simp [onProposal]
@[simp] theorem passOn_course (r : Rx) (s : State) : (passOn r s).course = s.course := by simp [passOn]
@[simp] theorem onAgreed_course (r : Rx) (s : State) : (onAgreed r s).course = s.course := by
  unfold onAgreed
  dsimp only
  split
  · refine (foldl_course _ (fun _ _ => ?_) _ _).trans (passOn_course r s)
    rfl
  · rfl
@[simp] theorem onFactor_course (r : Rx) (s : State) : (onFactor r s).course = s.course := by unfold onFactor; dsimp only; split <;> simp
@[simp] theorem renewHanks_course (keep : Bool) (s : State) : (renewHanks keep s).course = s.course := rfl

-- Parameters, leaves, and key and value blocks.
@[simp] theorem placeSegment_course (p : Hank) (copy fmt tile seg : Nat) (bytes : List Byte) (s : State) :
    (placeSegment p copy fmt tile seg bytes s).course = s.course := by
  unfold placeSegment
  (repeat' split) <;> simp
@[simp] theorem emitAll_course (p : Hank) (es : List Emitted) (s : State) : (emitAll p es s).course = s.course := by simp [emitAll]
@[simp] theorem emitHank_course (p : Hank) (s : State) : (emitHank p s).course = s.course := by
  unfold emitHank
  (repeat' split) <;> simp
@[simp] theorem reEmit_course (p : Hank) (s : State) : (reEmit p s).course = s.course := by simp [reEmit]
@[simp] theorem State.onParam_course (s : State) (tag : Nat) (f : ParamRt → ParamRt) : (State.onParam s tag f).course = s.course := rfl
@[simp] theorem onParamSegment_course (r : Rx) (s : State) :
    (onParamSegment r s).course = s.course := by
  unfold onParamSegment
  dsimp only
  split <;> simp
@[simp] theorem requestResend_course (tag : Nat) (s : State) : (requestResend tag s).course = s.course := by simp [requestResend]
@[simp] theorem askResend_course (tag : Nat) (s : State) : (askResend tag s).course = s.course := by simp [askResend]
@[simp] theorem onParamEnd_course (r : Rx) (s : State) : (onParamEnd r s).course = s.course := by
  unfold onParamEnd
  dsimp only
  (repeat' split) <;> simp
@[simp] theorem onParamResend_course (r : Rx) (s : State) :
    (onParamResend r s).course = s.course := by
  unfold onParamResend
  dsimp only
  split <;> simp
@[simp] theorem formPairs_course (n : Nat) (s : State) : (formPairs n s).course = s.course := by
  induction n generalizing s with
  | zero => rfl
  | succ n ih => unfold formPairs; dsimp only; split <;> simp [ih]
@[simp] theorem holdLeaf_course (step tag : Nat) (leaf : List Byte) (s : State) : (holdLeaf step tag leaf s).course = s.course := by
  simp [holdLeaf]
@[simp] theorem passLeaf_course (r : Rx) (step tag : Nat) (s : State) : (passLeaf r step tag s).course = s.course := by simp [passLeaf]
@[simp] theorem onLeaf_course (r : Rx) (s : State) : (onLeaf r s).course = s.course := by simp [onLeaf]
@[simp] theorem onLeafQuery_course (r : Rx) (s : State) :
    (onLeafQuery r s).course = s.course := by
  unfold onLeafQuery
  dsimp only
  split <;> simp
@[simp] theorem sendBlock_course (k : KvHdr) (n : Nat) (bs : List Byte) (s : State) : (sendBlock k n bs s).course = s.course := by
  induction n generalizing k bs s with
  | zero => rfl
  | succ n ih => unfold sendBlock; dsimp only; split <;> simp [ih]
@[simp] theorem ringOut_course (k : KvHdr) (bs : List Byte) (s : State) : (ringOut k bs s).course = s.course := by
  unfold ringOut; split <;> simp
@[simp] theorem kvDeliver_course (n : Nat) (s : State) : (kvDeliver n s).course = s.course := by
  induction n generalizing s with
  | zero => rfl
  | succ n ih =>
    unfold kvDeliver
    split
    · rfl
    · dsimp only; rw [ih]; split <;> simp
@[simp] theorem onKv_course (r : Rx) (s : State) : (onKv r s).course = s.course := by simp [onKv]
@[simp] theorem noteP_course (s : State) : (noteP s).course = s.course := by
  unfold noteP
  dsimp only
  (repeat' split) <;> simp
@[simp] theorem onReelFrame_course (r : Rx) (s : State) : (onReelFrame r s).course = s.course := by
  unfold onReelFrame
  dsimp only
  (repeat' split) <;> simp
@[simp] theorem releaseHeld_course (s : State) : (releaseHeld s).course = s.course := by simp [releaseHeld]

end Sys2Proof.Machine
end

section
/-! Acceptance of a load (family 02): the registers and E stay through the admission that follows, also where the manager forms the job at
once and a placed core then halts it (R52, R64, R66, R67, R72, R397). -/

namespace Sys2Proof.Machine

/-- What Distribute and acceptance store and no later step of the same command may change. -/
def State.accepted (s : State) :=
  (s.warp.image, s.warp.pending, s.warp.refusal, s.warp.imageHash, s.warp.logicalHash, s.warp.deadlineUs, s.num.e, s.num.clean)

/-- No stack has lost committed state. -/
def State.whole (s : State) : Prop := ∀ k, (s.stack k).stateLost = false

section
variable {s t : State} (h : t.course = s.course)
include h

theorem State.warp_of_course : t.warp = s.warp := congrArg (·.1) h
theorem State.exec_of_course : t.stp.exec = s.stp.exec := congrArg (·.2.2.2.2.1) h
theorem State.formed_of_course : t.job.formed = s.job.formed := congrArg (·.2.2.2.2.2) h

theorem State.accepted_of_course : t.accepted = s.accepted := by
  simp only [State.course, Prod.mk.injEq] at h
  obtain ⟨warp, e, clean, -⟩ := h
  simp only [State.accepted, warp, e, clean]

theorem State.whole_of_course (hs : s.whole) : t.whole := by
  intro k
  simp only [State.course, Prod.mk.injEq] at h
  obtain ⟨-, -, -, lost, -⟩ := h
  rw [← hs k]
  exact congrFun lost k

end

theorem State.whole_iff (s : State) : s.whole ↔ s.skn.stk.any (·.stateLost) = false := by
  simp [State.whole, State.stack, Vector.any_eq_false, Fin.forall_iff]

-- A decision reads back.

/-- A decision with its fields in range names its kind (R336). -/
theorem readDec_words_kind (d : DecHdr) (body : List Word) (hk : d.kind < 16) (hx : d.exec < 4) (hr : d.reason < 8) (hh : d.haltReason < 16)
    (hm : d.mapLayers < 2 ^ 15) : (readDec (d.words ++ body)).kind = d.kind := by
  have settled : b2n d.nextSettled < 2 := by unfold b2n; split <;> decide
  have word : wordAt (d.words ++ body) 0 =
      w32 (d.kind * 2 ^ 28 + d.exec * 2 ^ 26 + b2n d.nextSettled * 2 ^ 25 + d.reason * 2 ^ 22 + d.haltReason * 2 ^ 18 + d.mapLayers) := rfl
  show wfield (wordAt (d.words ++ body) 0) 31 28 = d.kind
  rw [word]
  simp only [wfield, field, w32, BitVec.toNat_ofNat]
  omega

theorem carryOut_halt {num : Option NumNext} {batch : Nat} {ws : List Word} {s : State} (h : (readDec ws).kind = 4) :
    carryOut num batch ws s = actHalt (readDec ws) s := by
  simp [carryOut, h]

theorem carryOut_start {num : Option NumNext} {batch : Nat} {ws : List Word} {s : State} (h : (readDec ws).kind = 5) :
    carryOut num batch ws s = actStart (readDec ws) batch s := by
  simp [carryOut, h]

-- HALT.

section
variable (s : State)

theorem endExecution_warp : (endExecution s).warp = s.warp := by obtain ⟨_, _, _, _, _, _, ends⟩ := endExecution_rest s; rw [ends]
theorem endExecution_num : (endExecution s).num = s.num := by obtain ⟨_, _, _, _, _, _, ends⟩ := endExecution_rest s; rw [ends]
theorem endExecution_quarantineHalt : (endExecution s).ply.quarantineHalt = false := rfl

theorem dropExecution_rest : ∃ tel weft, dropExecution s = { endExecution s with tel := tel, weft := weft } :=
  completeStep_rest 0x11 s.stp.batch (endExecution s)

theorem haltNoted_warp (d : DecHdr) : (haltNoted d s).warp = s.warp := rfl
theorem haltNoted_num (d : DecHdr) : (haltNoted d s).num = s.num := rfl

@[simp] theorem keepDecision_course (x : Decision) : (keepDecision x s).course = s.course := rfl
@[simp] theorem haltJob_course (reason : Nat) : (haltJob reason s).course = s.course := rfl
@[simp] theorem sendDecision_course (kind exec batch : Nat) (payload : List Word) :
    (sendDecision kind exec batch payload s).course = s.course := by
  unfold sendDecision
  split <;> simp

end

/-- A halt of a device that has lost no committed state keeps what acceptance stored, and its integrity block no longer stops the job. -/
theorem actHalt_accepted (d : DecHdr) {s : State} (hs : s.whole) :
    (actHalt d s).accepted = s.accepted ∧ (actHalt d s).ply.quarantineHalt = false := by
  obtain ⟨tel, weft, drops⟩ := dropExecution_rest (haltNoted d s)
  have warp := endExecution_warp (haltNoted d s)
  have num := endExecution_num (haltNoted d s)
  have ended := endExecution_quarantineHalt (haltNoted d s)
  unfold actHalt
  dsimp only
  rw [(State.whole_iff s).1 hs, if_neg Bool.false_ne_true]
  generalize hu : endExecution (haltNoted d s) = u at drops warp num ended
  change ((dropExecution (haltNoted d s)).onWarp _).accepted = _ ∧ ((dropExecution (haltNoted d s)).onWarp _).ply.quarantineHalt = false
  rw [drops]
  refine ⟨?_, ended⟩
  simp only [State.accepted, State.onWarp, warp, num, haltNoted_warp, haltNoted_num]

/-- A halt decision that the manager issues is carried out on a state of the same course. -/
theorem issue_halt {d : DecHdr} (hk : d.kind = 4) (hr : (readDec (d.words ++ [])).kind = d.kind) (s : State) :
    ∃ v, v.course = s.course ∧ issue d [] none s = actHalt (readDec (d.words ++ [])) v := by
  refine ⟨(haltJob d.haltReason (sendDecision d.kind s.stp.exec s.stp.batch (d.words ++ [])
    (keepDecision ⟨s.stp.batch, s.stp.exec, d.words ++ []⟩ (dropRevoked s.stp.batch s.stp.exec s)))).onJob fun j =>
      { j with acted := (⟨s.stp.batch, s.stp.exec, d.words ++ []⟩ :: j.acted).take 4 }, ?_, ?_⟩
  · rw [State.onJob_course _ _ rfl, haltJob_course, sendDecision_course, keepDecision_course, dropRevoked_course]
  · rw [issue, carryOut_halt (hr.trans hk), hk]
    rfl

/-- A set that a quarantined placed core gave decides for a halt (R393, R397). -/
theorem decideKind_quarantined {x : Nat} {sets : List VerdictSet} (h : ∃ v ∈ sets, v.cause = 3) :
    ∃ r, r < 16 ∧ decideKind x sets = (4, r) := by
  have stopped : (sets.any fun v => v.cause == 3) = true := by simpa using h
  rw [decideKind, if_pos stopped]
  split
  · exact ⟨2, by decide, rfl⟩
  · exact ⟨1, by decide, rfl⟩

/-- The manager that has such a set either waits for other sets or halts. -/
theorem decideOnce_quarantined {s : State} (hx : s.stp.exec = 0) (h : ∃ v ∈ s.job.sets, v.cause = 3) :
    decideOnce s = s ∨ ∃ d v, v.course = s.course ∧ decideOnce s = actHalt d v := by
  obtain ⟨r, hr, kind⟩ := decideKind_quarantined (x := s.stp.exec) h
  unfold decideOnce
  split
  · right
    have named := readDec_words_kind { decHdr s 4 with haltReason := r } [] (show 4 < 16 by decide) (show s.stp.exec < 4 by omega)
      (show 0 < 8 by decide) hr (show 0 < 2 ^ 15 by decide)
    obtain ⟨v, course, halts⟩ := issue_halt rfl named (raiseIf (r == 0) 0x2112 [s.stp.exec] s)
    simp only [kind]
    exact ⟨_, v, course.trans (raiseIf_course ..), halts⟩
  · exact .inl rfl

theorem tryDecide_quarantined {s : State} (hx : s.stp.exec = 0) (hs : s.whole) (h : ∃ v ∈ s.job.sets, v.cause = 3) :
    (tryDecide s).accepted = s.accepted := by
  rcases decideOnce_quarantined hx h with waits | ⟨d, v, course, halts⟩
  · simp [tryDecide, waits]
  · obtain ⟨kept, ended⟩ := actHalt_accepted d (State.whole_of_course course hs)
    simp only [tryDecide, halts, ended, Bool.false_eq_true, if_false]
    rw [kept, State.accepted_of_course course]

@[simp] theorem sendSet_course (v : VerdictSet) (s : State) : (sendSet v s).course = s.course := by simp [sendSet]

/-- The set of a quarantined placed core, handed to the manager, keeps what acceptance stored. -/
theorem deliverSet_quarantined {v : VerdictSet} {s : State} (hv : v.cause = 3) (hx : s.stp.exec = 0) (hs : s.whole) :
    (deliverSet v s).accepted = s.accepted := by
  unfold deliverSet
  split
  · exact tryDecide_quarantined hx hs ⟨v, List.mem_append_right _ (List.mem_singleton_self v), hv⟩
  · exact State.accepted_of_course (sendSet_course v s)

/-- A placed core that is out of service stops the job; what acceptance stored stays (R67, R397). -/
theorem quarantineStop_accepted {s : State} (hx : s.stp.exec = 0) (hs : s.whole) : (quarantineStop s).accepted = s.accepted := by
  unfold quarantineStop
  split
  · dsimp only
    split
    · rfl
    · exact deliverSet_quarantined rfl hx hs
  · rfl

theorem stopIfPlaced_accepted {s : State} (hx : s.stp.exec = 0) (hs : s.whole) : (stopIfPlaced s).accepted = s.accepted := by
  unfold stopIfPlaced
  split
  · exact quarantineStop_accepted hx hs
  · rfl

-- START, and the admission that brings it.

theorem leaveHalted_accepted (s : State) : (leaveHalted s).accepted = s.accepted := by
  unfold leaveHalted
  split <;> rfl

theorem leaveHalted_whole {s : State} (hs : s.whole) : (leaveHalted s).whole := by
  unfold leaveHalted
  split <;> exact hs

theorem leaveHalted_exec (s : State) : (leaveHalted s).stp.exec = s.stp.exec := by
  unfold leaveHalted
  split <;> rfl

/-- A START forms the job on a state that keeps what acceptance stored, at execution 0. -/
theorem actStart_accepted {s : State} (d : DecHdr) (batch : Nat) (h : standing s = .halted ∨ standing s = .loaded ∧ s.job.formed = false)
    (hs : s.whole) :
    (actStart d batch s).accepted = s.accepted ∧ (actStart d batch s).stp.exec = 0 ∧ (actStart d batch s).whole := by
  have course : (actStart d batch s).course = (leaveHalted (started d batch s)).course := by
    rw [actStart_starts d batch h, releaseHeld_course, renewHanks_course]
  have whole : (started d batch s).whole := hs
  exact ⟨(State.accepted_of_course course).trans (leaveHalted_accepted _), (State.exec_of_course course).trans (leaveHalted_exec _),
    State.whole_of_course course (leaveHalted_whole whole)⟩

theorem standing_of_course {s t : State} (h : t.course = s.course) : standing t = standing s := by
  rw [standing, standing, State.warp_of_course h]

/-- The manager forms or resumes the job; what acceptance stored stays. -/
theorem formJob_accepted {s : State} (hs : s.whole) : (formJob s).accepted = s.accepted := by
  unfold formJob
  split
  case isFalse => rfl
  case isTrue admits =>
    have stands : standing s = .halted ∨ standing s = .loaded ∧ s.job.formed = false := by
      simp only [Bool.and_eq_true, Bool.or_eq_true, beq_iff_eq, Bool.not_eq_true'] at admits
      exact admits.2.symm.imp_left fun h => h.1.1
    dsimp only
    set d : DecHdr := { decHdr s 5 with exec := 0, nextSettled := _, reason := _ }
    have course : (sendDecision 5 0 s.stp.batch d.words s).course = s.course := sendDecision_course ..
    have reason : d.reason < 8 := by
      show (if standing s == .halted then 4 else if s.stp.nextSettled && s.stp.nextReason == 3 then 3 else 0) < 8
      (repeat' split) <;> decide
    have start : (readDec d.words).kind = 5 :=
      readDec_words_kind d [] (show 5 < 16 by decide) (show 0 < 4 by decide) reason (show 0 < 16 by decide) (show 0 < 2 ^ 15 by decide)
    rw [carryOut_start start]
    obtain ⟨kept, exec, whole⟩ := actStart_accepted (s := sendDecision 5 0 s.stp.batch d.words s) (readDec d.words) s.stp.batch
      (by rwa [standing_of_course course, State.formed_of_course course]) (State.whole_of_course course hs)
    rw [stopIfPlaced_accepted exec whole, kept, State.accepted_of_course course]

theorem askAdmission_accepted {s : State} (hs : s.whole) : (askAdmission s).accepted = s.accepted := by
  unfold askAdmission
  split
  · exact formJob_accepted hs
  · exact State.accepted_of_course (sendUnicast_course ..)

end Sys2Proof.Machine
end

section
/-! The loader's rows (family 02): LOAD and UNLOAD, the four stages, acceptance and refusal (R52, R62 to R67, R70, R73, R484). -/

namespace Sys2Proof.Machine

-- A refusal (R64).

/-- The loader block after a load that Distribute has not reached is refused: it stands where the load began, REFUSED from EMPTY. -/
def WarpBlk.refuse (code sect ent now : Nat) (w : WarpBlk) : WarpBlk :=
  { w with state := if w.began = .empty ∨ w.began = .refused then .refused else w.began
           pending := none, pendingBytes := [], loadUs := w32 ((now - w.loadTick) / 100)
           refusal := BitVec.ofNat 16 code, detail := w32 (sect * 2 ^ 24 + ent) }

section
variable {u : State} (code sect ent : Nat)

theorem endLoad_early (hd : u.warp.state ≠ .distribute) : endLoad .refused u = leaveHalted (u.onWarp fun w =>
    { w with state := if w.began = .empty ∨ w.began = .refused then .refused else w.began
             pending := none, pendingBytes := [], loadUs := w32 ((u.clk.refTimer - w.loadTick) / 100) }) := by
  have early : (u.warp.state == .distribute) = false := by simpa using hd
  unfold endLoad State.onWarp
  dsimp only
  split
  · simp [*]
  · simp [*]
  · next notEmpty notRefused => simp [early, if_neg (not_or.2 ⟨notEmpty, notRefused⟩)]

/-- Where the job does not resume, a refusal changes the loader and the reports alone. -/
theorem refuseLoad_stays (hd : u.warp.state ≠ .distribute) (h : u.warp.began ≠ .halted ∨ u.job.resumed = false ∨ u.warp.dist = false) :
    refuseLoad code sect ent u =
      raise 0x5002 [code, (w32 (sect * 2 ^ 24 + ent)).toNat] (u.onWarp (WarpBlk.refuse code sect ent u.clk.refTimer)) := by
  rw [refuseLoad, endLoad_early hd, leaveHalted_stays]
  · rfl
  · rcases h with h | h | h
    · right; left
      show (if _ then _ else _) ≠ _
      split <;> simp [h]
    · exact .inl h
    · exact .inr (.inr h)

/-- A START that came while the load ran from HALTED takes effect as the load ends (log entry 180). -/
theorem refuseLoad_leaves (hd : u.warp.state ≠ .distribute) (hb : u.warp.began = .halted) (hr : u.job.resumed = true)
    (ht : u.warp.dist = true) : refuseLoad code sect ent u =
      raise 0x5002 [code, (w32 (sect * 2 ^ 24 + ent)).toNat]
        ((u.onWarp fun w => { w.refuse code sect ent u.clk.refTimer with state := .loaded }).onJob fun j => { j with resumed := false }) := by
  rw [refuseLoad, endLoad_early hd, leaveHalted_leaves]
  · rfl
  · exact hr
  · show (if _ then _ else _) = _
    simp [hb]
  · exact ht

theorem refuseLoad_rest (hd : u.warp.state ≠ .distribute) :
    (refuseLoad code sect ent u).warp.refusal = BitVec.ofNat 16 code ∧
    (refuseLoad code sect ent u).warp.detail = w32 (sect * 2 ^ 24 + ent) ∧
    (refuseLoad code sect ent u).warp.image = u.warp.image ∧
    ∃ w k b, refuseLoad code sect ent u = { u with warp := w, tel := k, job := b } := by
  by_cases leaves : u.warp.began = .halted ∧ u.job.resumed = true ∧ u.warp.dist = true
  · obtain ⟨hb, hr, ht⟩ := leaves
    rw [refuseLoad_leaves code sect ent hd hb hr ht]
    exact ⟨rfl, rfl, rfl, _, _, _, rfl⟩
  · rw [refuseLoad_stays code sect ent hd (by simpa only [not_and_or, Bool.not_eq_true] using leaves)]
    exact ⟨rfl, rfl, rfl, _, _, _, rfl⟩

end

/-- The code reported is one that holds at the place (log entry 47). -/
theorem refuseAt_mem {p : RulePlace} (hp : p.codes ≠ []) (u : State) :
    ∃ c v, c ∈ p.codes ∧ v = { u with freeCtr := v.freeCtr } ∧ refuseAt p u = refuseLoad c p.sect p.ent v := by
  unfold refuseAt
  split
  next c hc => exact ⟨c, u, by simp [hc], rfl, rfl⟩
  next =>
    have pos : 0 < p.codes.length := List.length_pos_iff.2 hp
    have inRange : (freePick (max 1 p.codes.length) u).1 < p.codes.length := by
      have bound : (freePick (max 1 p.codes.length) u).1 < max 1 p.codes.length := Nat.mod_lt _ (by omega)
      omega
    refine ⟨_, (freePick (max 1 p.codes.length) u).2, ?_, rfl, rfl⟩
    rw [List.getD_eq_getElem _ _ inRange]
    exact List.getElem_mem inRange

-- LOAD and UNLOAD (R62, R65 to R67).

section
variable {s : State} (hready : isReady s = true)
include hready

theorem exec_load_busy (hb : loaderBusy s = true) (c : Bool) :
    exec (.load c) s = .next { s with warp := { s.warp with cont := c, busyReject := true } } := by
  show execLoad c s = _
  rw [execLoad, gated, if_pos hready, writeLoad, if_pos hb]
  rfl

theorem exec_unload_busy (hb : loaderBusy s = true) (c : Bool) :
    exec (.unload c) s = .next { s with warp := { s.warp with cont := c, busyReject := true } } := by
  show execUnload c s = _
  rw [execUnload, gated, if_pos hready, writeUnload, if_pos hb]
  rfl

theorem exec_load_idle (hb : loaderBusy s = false) (c : Bool) :
    exec (.load c) s = .next (startLoad c (s.onWarp fun w => { w with cont := c })) := by
  show execLoad c s = _
  rw [execLoad, gated, if_pos hready, writeLoad, if_neg (by simp [hb])]

theorem exec_load_starts (hb : loaderBusy s = false) {c : Bool} (hc : c = false ∨ s.warp.state = .halted) :
    exec (.load c) s = .next { s with warp := { s.warp with
      cont := c, began := s.warp.state, loadCont := c, latSrc := pairAddr s.warp.srcLo s.warp.srcHi
      latLength := s.warp.length.toNat, loadTick := s.clk.refTimer, snap := takeSnap s, state := .verify } } := by
  rw [exec_load_idle hready hb, startLoad, if_neg]
  · rfl
  · rcases hc with rfl | hc
    · simp
    · simp [State.onWarp, hc]

/-- A continuation that no HALTED device can take is refused, and leaves the loader where it stood (R66, R73). -/
theorem exec_load_notHalted (hb : loaderBusy s = false) (hs : s.warp.state ≠ .halted) :
    ∃ t, exec (.load true) s = .next t ∧ t.warp.refusal = 0x5182 ∧ t.warp.image = s.warp.image ∧
      t.warp.state = (if s.warp.state = .empty ∨ s.warp.state = .refused then .refused else s.warp.state) ∧
      t = { s with warp := t.warp, tel := t.tel } := by
  have early : s.warp.state ≠ .distribute := by
    intro h
    simp [loaderBusy, loadRunning, h] at hb
  rw [exec_load_idle hready hb, startLoad, if_pos (by simpa [State.onWarp] using hs)]
  refine ⟨_, rfl, ?_⟩
  rw [refuseLoad_stays]
  · exact ⟨rfl, rfl, rfl, rfl⟩
  · exact early
  · exact .inl hs

end

/-- The STEP that ran completes HALTED, and the frames of the job go; nothing else changes before the job is discarded. -/
theorem haltStep_dropJobFrames_rest (s : State) : ∃ rov tel weft stp, haltStep (dropJobFrames s) =
    { s with rov := rov, tel := tel, weft := weft, stp := stp } := by
  have drops : dropJobFrames s = { s with rov := (dropJobFrames s).rov } := State.rov_rest (dropFrames_noRov _ s)
  generalize (dropJobFrames s).rov = rov at drops
  rw [drops, haltStep]
  split
  · obtain ⟨tel, weft, completes⟩ := completeStep_rest 0x11 s.stp.batch (noteEnd 5 { s with rov := rov })
    exact ⟨rov, tel, weft, _, completes⟩
  · exact ⟨rov, s.tel, s.weft, s.stp, rfl⟩

/-- What goes with an image: the job, the seed and the structure. The shards stay, and of the loader all but its standing. -/
theorem dropImage_drops (st : Loader) (s : State) :
    (dropImage st s).warp = { s.warp with state := st, image := none, dist := false, templates := [] } ∧
    (dropImage st s).reel.shards = s.reel.shards ∧ (dropImage st s).nep.seed = none ∧ (dropImage st s).stp.batch = 0 ∧
    (dropImage st s).stp.stepIndex = 0 ∧ (dropImage st s).job = JobBlk.reset := by
  obtain ⟨rov, tel, weft, stp, halts⟩ := haltStep_dropJobFrames_rest s
  have warp : (haltStep (dropJobFrames s)).warp = s.warp := by rw [halts]
  have shards : (haltStep (dropJobFrames s)).reel.shards = s.reel.shards := by rw [halts]
  refine ⟨?_, shards, rfl, rfl, rfl, rfl⟩
  show { (haltStep (dropJobFrames s)).warp with state := st, image := none, dist := false, templates := [] } = _
  rw [warp]

/-- An event and the HELLO to every port change the reports and the ports alone. -/
theorem helloAll_raise_rest (c : Half) (p : List Nat) (s : State) : ∃ rov tel, helloAll (raise c p s) = { s with rov := rov, tel := tel } :=
  ⟨_, _, State.rest_of ((helloAll_quiet _).trans (raise_quiet c p s))⟩

section
variable {s : State} (hready : isReady s = true) (hb : loaderBusy s = false)
include hready hb

theorem exec_unload_empties {c : Bool} (hs : s.warp.state = .loaded ∨ s.warp.state = .halted) :
    exec (.unload c) s = .next (helloAll (raise 0x5003 [] (dropImage .empty (s.onWarp fun w => { w with cont := c })))) := by
  show execUnload c s = _
  rw [execUnload, gated, if_pos hready, writeUnload, hb]
  rcases hs with h | h <;> simp [h]

theorem exec_unload_nothing {c : Bool} (hs : s.warp.state = .empty ∨ s.warp.state = .refused) :
    exec (.unload c) s = .next { s with warp := { s.warp with cont := c, busyReject := true } } := by
  show execUnload c s = _
  rw [execUnload, gated, if_pos hready, writeUnload, hb, if_neg Bool.false_ne_true]
  split
  · next loaded => simp [loaded] at hs
  · next halted => simp [halted] at hs
  · rfl

/-- UNLOAD takes image, seed and job, and keeps the memories with the shards. -/
theorem exec_unload_leaves {c : Bool} (hs : s.warp.state = .loaded ∨ s.warp.state = .halted) :
    ∃ t, exec (.unload c) s = .next t ∧ t.warp.state = .empty ∧ t.warp.image = none ∧ t.nep.seed = none ∧ t.stp.batch = 0 ∧
      t.stp.stepIndex = 0 ∧ t.job = JobBlk.reset ∧ t.reel.shards = s.reel.shards ∧ t.mems = s.mems ∧ t.flash = s.flash := by
  obtain ⟨warp, shards, seed, batch, step, job⟩ := dropImage_drops .empty (s.onWarp fun w => { w with cont := c })
  have mems : (dropImage .empty (s.onWarp fun w => { w with cont := c })).mems = s.mems := by simp
  have flash : (dropImage .empty (s.onWarp fun w => { w with cont := c })).flash = s.flash := State.flash_of (by simp)
  obtain ⟨rov, tel, hello⟩ := helloAll_raise_rest 0x5003 [] (dropImage .empty (s.onWarp fun w => { w with cont := c }))
  rw [exec_unload_empties hready hb hs, hello]
  generalize dropImage .empty (s.onWarp fun w => { w with cont := c }) = u at *
  exact ⟨_, rfl, by rw [warp], by rw [warp], seed, batch, step, job, shards, mems, flash⟩

end

-- The stages (R63, R484).

/-- The stages check in order: the first place where a rule fails refuses. -/
theorem checkPlaces_some {ps : List RulePlace} {p : RulePlace} (h : firstPlace ps = some p) (k : State → State) (s : State) :
    checkPlaces ps k s = refuseAt p s := by
  rw [checkPlaces, h]

theorem checkPlaces_none {ps : List RulePlace} (h : firstPlace ps = none) (k : State → State) (s : State) :
    checkPlaces ps k s = k s := by
  rw [checkPlaces, h]

section
variable {s : State}

theorem exec_verify (hs : s.warp.state = .verify) : exec .verify s = .next (verifyStage s) := by
  show execVerify s = _
  rw [execVerify, if_pos (by simp [hs])]

theorem exec_validate (hs : s.warp.state = .validate) : exec .validate s = .next (validateStage s) := by
  show execValidate s = _
  rw [execValidate, if_pos (by simp [hs])]

theorem exec_feasibility (hs : s.warp.state = .feasibility) {im : Image} (hp : s.warp.pending = some im) :
    exec .feasibility s = .next (checkPlaces (feasibilityPlaces s im) (deadlineStage im) s) := by
  show execFeasibility s = _
  rw [execFeasibility, if_pos (by simp [hs]), feasibilityStage, hp]

theorem exec_distribute (hs : s.warp.state = .distribute) {im : Image} (hp : s.warp.pending = some im) :
    exec .distribute s = .next (acceptLoad im s) := by
  show execDistribute s = _
  rw [execDistribute, hs, hp]

theorem exec_loaderTimeout (h : loadRunning s = true) : exec .loaderTimeout s = .next (refuseLoad 0x51FF 0xFF noEntry s) := by
  show execLoaderTimeout s = _
  rw [execLoaderTimeout, if_pos h]

/-- With no load, no row of a stage does anything. -/
theorem exec_noLoad (h : loadRunning s = false) : exec .verify s = .next s ∧ exec .validate s = .next s ∧
    exec .feasibility s = .next s ∧ exec .distribute s = .next s ∧ exec .loaderTimeout s = .next s := by
  have outside : s.warp.state ≠ .verify ∧ s.warp.state ≠ .validate ∧ s.warp.state ≠ .feasibility ∧ s.warp.state ≠ .distribute := by
    refine ⟨?_, ?_, ?_, ?_⟩
    all_goals
      intro stage
      simp [loadRunning, stage] at h
  obtain ⟨verify, validate, feasibility, distribute⟩ := outside
  refine ⟨?_, ?_, ?_, ?_, ?_⟩
  · show execVerify s = _
    simp [execVerify, verify]
  · show execValidate s = _
    simp [execValidate, validate]
  · show execFeasibility s = _
    simp [execFeasibility, feasibility]
  · show execDistribute s = _
    unfold execDistribute
    split
    · next stage _ => exact absurd stage distribute
    · rfl
  · show execLoaderTimeout s = _
    simp [execLoaderTimeout, h]

end

/-- Verify counts the failed signatures, then checks source, head, signature and version in this order. -/
theorem verifyStage_counted (s : State) {ps : List RulePlace}
    (hps : ps = (⟨0xFF, noEntry, codeIf (sourceBad s.warp) 0x5104⟩ : RulePlace) ::
      (verifyPlaces s.warp.latLength (stagedBytes s) ++ signaturePlaces s.warp.snap (stagedBytes s) ++
        versionPlaces s.flash.floorWarp Config.stepping.toNat (stagedBytes s))) :
    ∃ u, u = { s with tel := u.tel } ∧ verifyStage s = checkPlaces ps
      (fun t => t.onWarp fun w => { w with state := .validate, pendingBytes := stagedBytes s }) u := by
  subst hps
  refine ⟨countSigFail (imageFails (⟨0xFF, noEntry, codeIf (sourceBad s.warp) 0x5104⟩ :: verifyPlaces s.warp.latLength (stagedBytes s))
    s.warp.snap (stagedBytes s)) s, ?_, rfl⟩
  unfold countSigFail
  split <;> rfl

/-- A load that passes Feasibility enters Distribute; a replacement drops the image that it replaces (R66). -/
theorem beginDistribute_begins (s : State) : (beginDistribute s).warp.state = .distribute ∧
    (beginDistribute s).warp.fraction = s.warp.fraction ∧ (beginDistribute s).warp.worstUs = s.warp.worstUs ∧
    (beginDistribute s).flash = s.flash ∧ (beginDistribute s).mems = s.mems ∧ (beginDistribute s).reel.shards = s.reel.shards := by
  have replaces (u : State) : (raise 0x5003 [] (dropImage .distribute u)).warp.state = .distribute ∧
      (raise 0x5003 [] (dropImage .distribute u)).warp.fraction = u.warp.fraction ∧
      (raise 0x5003 [] (dropImage .distribute u)).warp.worstUs = u.warp.worstUs ∧
      (raise 0x5003 [] (dropImage .distribute u)).flash = u.flash ∧ (raise 0x5003 [] (dropImage .distribute u)).mems = u.mems ∧
      (raise 0x5003 [] (dropImage .distribute u)).reel.shards = u.reel.shards := by
    obtain ⟨warp, shards, -⟩ := dropImage_drops .distribute u
    rw [raise_warp, warp]
    exact ⟨rfl, rfl, rfl, State.flash_of (by simp), by simp, shards⟩
  unfold beginDistribute
  dsimp only
  (repeat' split)
  · exact ⟨rfl, rfl, rfl, rfl, rfl, rfl⟩
  · exact replaces (s.onWarp fun w => { w with state := .distribute })
  · exact ⟨rfl, rfl, rfl, rfl, rfl, rfl⟩
  · exact replaces (s.onWarp fun w => { w with state := .distribute })
  · exact ⟨rfl, rfl, rfl, rfl, rfl, rfl⟩

/-- Feasibility stores the issue fraction and the worst case, and refuses one above the deadline (R70). -/
theorem deadlineStage_late {im : Image} (s : State) {f16 us : Nat}
    (hf : f16 = issueFraction im.deadline.minCap (powerOf s im).1 (powerOf s im).2) (hu : us = worstUs im.deadline f16)
    (late : im.deadline.us < us) : deadlineStage im s = refuseLoad 0x5194 (indexOfType im 0x15) noEntry
      { s with warp := { s.warp with fraction := w32 f16, worstUs := w32 us } } := by
  subst hu hf
  exact if_neg (Nat.not_le.2 late)

theorem deadlineStage_inTime {im : Image} (s : State) {f16 us : Nat}
    (hf : f16 = issueFraction im.deadline.minCap (powerOf s im).1 (powerOf s im).2) (hu : us = worstUs im.deadline f16)
    (inTime : us ≤ im.deadline.us) : deadlineStage im s =
      beginDistribute { s with warp := { s.warp with fraction := w32 f16, worstUs := w32 us } } := by
  subst hu hf
  exact if_pos inTime

-- Acceptance (R52, R64).

/-- The loader block once the image is accepted: a continuation stays HALTED. -/
def WarpBlk.accept (im : Image) (now : Nat) (w : WarpBlk) : WarpBlk :=
  { w with
    state := if w.loadCont then .halted else .loaded, image := some im, dist := true, templates := Config.templates im.bytes
    pending := none, pendingBytes := []
    refusal := 0, imageHash := imageHashOf im.bytes, logicalHash := logicalHashOf im.bytes, deadlineUs := w32 im.deadline.us
    loadUs := w32 ((now - w.loadTick) / 100) }

/-- The device with the image distributed, before its event and the request for admission. -/
def distributed (im : Image) (s : State) : State :=
  let s1 := (s.putSkein loaderRegion im.bytes).onWarp (WarpBlk.accept im s.clk.refTimer)
  clearSinceLoad (if s.warp.loadCont then continueJob im s1 else newJob im s1)

theorem acceptLoad_distributed (im : Image) (s : State) :
    acceptLoad im s = askAdmission (leaveHalted (helloAll (voidCheck (raise 0x5001 [] (distributed im s))))) := rfl

theorem voidCheck_rest (s : State) : ∃ tel trd, voidCheck s = { s with tel := tel, trd := trd } := by
  unfold voidCheck
  (repeat' split) <;> exact ⟨_, _, rfl⟩

theorem announced_rest (c : Half) (p : List Nat) (s : State) : ∃ rov tel trd, helloAll (voidCheck (raise c p s)) =
    { s with rov := rov, tel := tel, trd := trd } := by
  obtain ⟨tel, trd, void⟩ := voidCheck_rest (raise c p s)
  rw [State.rest_of (helloAll_quiet _), void]
  exact ⟨_, _, trd, rfl⟩

theorem acceptLoad_asks (im : Image) (s : State) : ∃ rov tel trd, acceptLoad im s =
    askAdmission (leaveHalted { distributed im s with rov := rov, tel := tel, trd := trd }) := by
  obtain ⟨rov, tel, trd, announced⟩ := announced_rest 0x5001 [] (distributed im s)
  exact ⟨rov, tel, trd, by rw [acceptLoad_distributed, announced]⟩

section
variable (im : Image) (s : State)

theorem distributed_warp : (distributed im s).warp = s.warp.accept im s.clk.refTimer := by
  unfold distributed
  dsimp only
  split <;> rfl

theorem distributed_mems : (distributed im s).mems = (s.putSkein loaderRegion im.bytes).mems := by
  unfold distributed
  dsimp only
  split <;> rfl

theorem distributed_resumed : (distributed im s).job.resumed = s.job.resumed := by
  unfold distributed
  dsimp only
  split <;> rfl

theorem distributed_whole : (distributed im s).whole := by
  intro k
  simp [distributed, clearSinceLoad, State.stack]

theorem distributed_replaced (h : s.warp.loadCont = false) :
    (distributed im s).num.e = im.numeric.initE ∧ (distributed im s).num.clean = 0 := by
  rw [distributed, h]
  exact ⟨rfl, rfl⟩

theorem distributed_continued (h : s.warp.loadCont = true) :
    (distributed im s).num.e = s.num.e ∧ (distributed im s).num.clean = s.num.clean := by
  rw [distributed, h]
  exact ⟨rfl, rfl⟩

/-- What acceptance stores stays through the admission, also where the manager forms the job and halts it at once. -/
theorem acceptLoad_accepted : (acceptLoad im s).accepted = (distributed im s).accepted := by
  obtain ⟨rov, tel, trd, asks⟩ := acceptLoad_asks im s
  have whole : ({ distributed im s with rov := rov, tel := tel, trd := trd } : State).whole := distributed_whole im s
  rw [asks, askAdmission_accepted (leaveHalted_whole whole), leaveHalted_accepted]
  rfl

theorem askAdmission_worker {u : State} (h : isManager u = false) : ∃ rov tel, askAdmission u = { u with rov := rov, tel := tel } := by
  rw [askAdmission, h]
  exact ⟨_, _, State.rest_of (sendUnicast_quiet ..)⟩

/-- A device stays in HALTED with a continuation whose START has not come. -/
theorem leaveHalted_accept {u : State} {w : WarpBlk} {now : Nat} (warp : u.warp = w.accept im now) :
    (leaveHalted u).warp = { w.accept im now with state := if w.loadCont && !u.job.resumed then .halted else .loaded } ∧
    (leaveHalted u).mems = u.mems := by
  refine ⟨?_, leaveHalted_mems u⟩
  cases started : u.job.resumed
  case false =>
    rw [leaveHalted_stays (.inl started), warp]
    simp [WarpBlk.accept]
  case true =>
    cases cont : w.loadCont
    · rw [leaveHalted_stays (.inr (.inl (by simp [warp, WarpBlk.accept, cont]))), warp]
      simp [WarpBlk.accept, cont]
    · rw [leaveHalted_leaves started (by simp [warp, WarpBlk.accept, cont]) (by simp [warp, WarpBlk.accept])]
      simp [warp]

/-- A worker asks its manager for admission, and leaves HALTED only where its START has come. -/
theorem acceptLoad_worker (hm : isManager { s with warp := { s.warp with image := some im } } = false) :
    (acceptLoad im s).warp.dist = true ∧ (acceptLoad im s).warp.templates = Config.templates im.bytes ∧
    (acceptLoad im s).warp.state = (if s.warp.loadCont && !s.job.resumed then .halted else .loaded) ∧
    (acceptLoad im s).mems = (s.putSkein loaderRegion im.bytes).mems := by
  obtain ⟨rov, tel, trd, asks⟩ := acceptLoad_asks im s
  obtain ⟨warp, mems⟩ := leaveHalted_accept im
    (u := { distributed im s with rov := rov, tel := tel, trd := trd }) (distributed_warp im s)
  have worker : isManager (leaveHalted { distributed im s with rov := rov, tel := tel, trd := trd }) = false := by
    rw [← hm]
    simp only [isManager, rankOf, managerRank, warp, WarpBlk.accept]
  obtain ⟨rov', tel', sends⟩ := askAdmission_worker worker
  rw [← distributed_mems, ← distributed_resumed im s, asks, sends]
  generalize leaveHalted { distributed im s with rov := rov, tel := tel, trd := trd } = v at warp mems
  refine ⟨?_, ?_, ?_, mems⟩
  all_goals simp only [warp, WarpBlk.accept]

end

/-- Settles O53: each row by the lemma of its stage; the acceptance of every device, the manager among them, by `acceptLoad_accepted`. -/
theorem loaderRows : Obligations.LoaderRows := by
  unfold Obligations.LoaderRows
  intro s
  refine ⟨fun hready => ⟨fun c hb => ⟨exec_load_busy hready hb c, exec_unload_busy hready hb c⟩,
      fun hb => ⟨fun c => exec_load_starts hready hb, exec_load_notHalted hready hb, fun c => exec_unload_leaves hready hb,
        fun c => exec_unload_nothing hready hb⟩⟩,
    fun p code sect ent u hd => ?refusal, fun hs ps hps => ?verify, fun hs ps hps => ?validate, fun hs im hp => ?feasibility,
    fun hs im hp => ?distribute, exec_loaderTimeout, exec_noLoad⟩
  case refusal =>
    obtain ⟨refusal, detail, image, rest⟩ := refuseLoad_rest code sect ent hd
    refine ⟨refusal, detail, fun h => ?_, fun hb hr ht => ?_, image, rest, fun hp => refuseAt_mem hp u⟩
    · rw [refuseLoad_stays code sect ent hd h]
      exact ⟨rfl, rfl⟩
    · rw [refuseLoad_leaves code sect ent hd hb hr ht]
      exact ⟨rfl, rfl⟩
  case verify =>
    obtain ⟨u, counted, stage⟩ := verifyStage_counted s hps
    rw [exec_verify hs, stage]
    refine ⟨u, counted, fun p h => by rw [checkPlaces_some h], fun h => ?_⟩
    rw [checkPlaces_none h, counted]
    rfl
  case validate =>
    subst hps
    rw [exec_validate hs, validateStage]
    exact ⟨fun p h => by rw [checkPlaces_some h], fun h => by rw [checkPlaces_none h]; rfl⟩
  case feasibility =>
    rw [exec_feasibility hs hp]
    refine ⟨fun p h => by rw [checkPlaces_some h], fun h f16 us hf hu => ?_⟩
    rw [checkPlaces_none h]
    refine ⟨fun late => by rw [deadlineStage_late s hf hu late], fun inTime => ?_⟩
    rw [deadlineStage_inTime s hf hu inTime]
    exact ⟨_, rfl, beginDistribute_begins _⟩
  case distribute =>
    have stored := acceptLoad_accepted im s
    simp only [State.accepted, distributed_warp, WarpBlk.accept, Prod.mk.injEq] at stored
    obtain ⟨image, pending, refusal, imageHash, logicalHash, deadline, e, clean⟩ := stored
    refine ⟨_, exec_distribute hs hp, image, pending, refusal, imageHash, logicalHash, deadline, State.flash_of (acceptLoad_lead im s),
      acceptLoad_worker im s, fun h => ?_, fun h => ?_⟩
    · rw [e, clean]
      exact distributed_replaced im s h
    · rw [e, clean]
      exact distributed_continued im s h

end Sys2Proof.Machine
end

section
/-! The update engines (family 05): what an update engine reads of a shard, the shadow copy it writes, and the notes of phases that follow
(R172, R181, R200, R204, R246). -/

namespace Sys2Proof.Machine

-- Reads that find no protection error (R302, R306).

/-- A word with good check bits that leaves the read usable changes nothing. -/
theorem decodeWord_good_eq {cls w : Nat} {x : State × Bool} (h : (decodeWord cls x (w, .good)).2 = true) :
    decodeWord cls x (w, .good) = x := by
  have sound : ¬ x.1.skn.bad.contains w = true := fun bad => by
    rw [decodeWord_unusable cls (.inl bad)] at h
    cases h
  rw [decodeWord, if_neg sound]

/-- Good words change nothing, however many a usable read has. -/
theorem foldl_decodeWord_good_eq (cls : Nat) (ws : List Nat) (x : State × Bool)
    (h : ((ws.map fun w => (w, Ecc.good)).foldl (decodeWord cls) x).2 = true) :
    (ws.map fun w => (w, Ecc.good)).foldl (decodeWord cls) x = x := by
  induction ws generalizing x with
  | nil => rfl
  | cons w ws ih =>
    have rest := ih _ h
    rw [List.map_cons, List.foldl_cons] at h ⊢
    rw [rest] at h ⊢
    exact decodeWord_good_eq h

theorem decodeRead_nil (cls a n : Nat) (s : State) :
    decodeRead cls a n [] s = ((wordsOf a n).map fun w => (w, Ecc.good)).foldl (decodeWord cls) (s, true) := by
  have words : ((wordsOf a n).zipIdx.map fun w => (w.1, ([] : List Ecc).getD w.2 .good)) = (wordsOf a n).map fun w => (w, Ecc.good) := by
    conv_rhs => rw [← List.zipIdx_map_fst 0 (wordsOf a n), List.map_map]
    rfl
  rw [decodeRead, words]

/-- A read that a unit makes in its class, and that gives bytes, changes the skein bases only: its granules are noted. -/
theorem skeinTake_usable {cls a n : Nat} {s : State} (h : (skeinTake cls a n s).2.isSome = true) :
    ∃ k, (skeinTake cls a n s).1 = { s with skn := k } := by
  unfold skeinTake at h ⊢
  split at h
  case h_1 => cases h
  case h_2 =>
    have usable : (decodeRead cls a n [] (noteReads a (granules a n) s)).2 = true := by
      by_contra lost
      simp [lost] at h
    rw [decodeRead_nil] at usable
    dsimp only
    rw [decodeRead_nil, foldl_decodeWord_good_eq cls _ _ usable]
    exact ⟨_, rfl⟩

/-- Reads one after another that all give bytes change the skein bases only. -/
theorem skeinTakes_usable {cls : Nat} {ps : List (Nat × Nat)} {s : State} (h : (skeinTakes cls ps s).2.isSome = true) :
    ∃ k, (skeinTakes cls ps s).1 = { s with skn := k } := by
  induction ps using List.reverseRecOn with
  | nil => exact ⟨_, rfl⟩
  | append_singleton ps p ih =>
    unfold skeinTakes at h ih ⊢
    rw [List.foldl_append, List.foldl_cons, List.foldl_nil] at h ⊢
    dsimp only at h ⊢
    split at h
    case h_1 _ _ before now =>
      obtain ⟨_, earlier⟩ := ih (by rw [before]; rfl)
      obtain ⟨k, last⟩ := skeinTake_usable (by rw [now]; rfl)
      exact ⟨k, by rw [last, earlier]⟩
    case h_2 => cases h

theorem readShard_usable {p : Hank} {s : State} (h : (readShard p s).2 = true) : ∃ k, (readShard p s).1 = { s with skn := k } :=
  skeinTakes_usable h

-- What the end of a phase leaves (R181).

/-- `t` differs from `s` in the step block, the bobbin and telemetry only, and the batch runs in the same mode: all that the notes of
phases change in tile-by-tile mode, where none of them sends a hank or a factor. -/
def NotesOnly (s t : State) : Prop := ∃ stp bob tel, stp.settled = s.stp.settled ∧ t = { s with stp := stp, bob := bob, tel := tel }

namespace NotesOnly
variable {s t u : State}

theorem refl (s : State) : NotesOnly s s := ⟨_, _, _, rfl, rfl⟩

theorem trans (h : NotesOnly s t) (h' : NotesOnly t u) : NotesOnly s u := by
  obtain ⟨_, _, _, first, rfl⟩ := h
  obtain ⟨stp, bob, tel, second, rfl⟩ := h'
  exact ⟨stp, bob, tel, second.trans first, rfl⟩

theorem settled (h : NotesOnly s t) : t.stp.settled = s.stp.settled := by
  obtain ⟨_, _, _, mode, rfl⟩ := h
  exact mode

theorem hank (h : NotesOnly s t) (tag : Nat) : t.hank tag = s.hank tag := by
  obtain ⟨_, _, _, -, rfl⟩ := h
  rfl

theorem ite {c : Prop} [Decidable c] (ht : NotesOnly s t) (hu : NotesOnly s u) : NotesOnly s (if c then t else u) := by
  split
  · exact ht
  · exact hu

theorem foldl {α : Type} {f : State → α → State} (h : ∀ s x, NotesOnly s (f s x)) (l : List α) (s : State) : NotesOnly s (l.foldl f s) := by
  induction l generalizing s with
  | nil => exact refl s
  | cons x xs ih => exact (h s x).trans (ih _)

end NotesOnly

theorem onTel_notesOnly (s : State) (f : TelBlk → TelBlk) : NotesOnly s (s.onTel f) := ⟨s.stp, s.bob, _, rfl, rfl⟩

theorem onBob_notesOnly (s : State) (f : BobBlk → BobBlk) : NotesOnly s (s.onBob f) := ⟨s.stp, _, s.tel, rfl, rfl⟩

theorem onStp_notesOnly (s : State) {f : StpBlk → StpBlk} (h : (f s.stp).settled = s.stp.settled) : NotesOnly s (s.onStp f) :=
  ⟨_, s.bob, s.tel, h, rfl⟩

theorem raiseIf_notesOnly (c : Bool) (code : Half) (p : List Nat) (s : State) : NotesOnly s (raiseIf c code p s) :=
  (onTel_notesOnly s _).ite (.refl s)

theorem beginU_notesOnly (s : State) : NotesOnly s (beginU s) := onStp_notesOnly s (by split <;> rfl)

theorem tellReduced_notesOnly (s : State) : NotesOnly s (tellReduced s) :=
  (onBob_notesOnly s _).trans (.foldl (fun _ _ => raiseIf_notesOnly _ _ _ _) _ _)

theorem endF_notesOnly (s : State) : NotesOnly s (endF s) :=
  ((onStp_notesOnly s (by rfl)).trans (tellReduced_notesOnly _)).ite (.refl s)

/-- In tile-by-tile mode nothing enters the reel as B ends (R196). -/
theorem endB_notesOnly {s : State} (tileMode : s.stp.settled = false) : NotesOnly s (endB s) := by
  unfold endB
  refine .ite ?_ (.refl s)
  simp only [tileMode, Bool.false_eq_true, if_false]
  exact onStp_notesOnly s rfl

theorem startU_notesOnly (s : State) : NotesOnly s (startU s) := (beginU_notesOnly s).ite (.refl s)

theorem noteSpans_notesOnly {s : State} (tileMode : s.stp.settled = false) : NotesOnly s (noteSpans s) := by
  have f : NotesOnly s (if s.stp.lostF then endF s else s) := (endF_notesOnly s).ite (.refl s)
  have b := f.trans (endB_notesOnly (f.settled.trans tileMode))
  unfold noteSpans
  exact b.trans <| (startU_notesOnly _).trans <| onStp_notesOnly _ rfl

/-- Where every hank stands as it did, no factor goes out (R243). -/
theorem sendNewFactors_same {s t : State} (same : ∀ tag, t.hank tag = s.hank tag) : sendNewFactors s t = t := by
  unfold sendNewFactors
  induction hankPlan t with
  | nil => rfl
  | cons p ps ih =>
    rw [List.foldl_cons]
    convert ih using 2
    rw [same]
    cases s.hank p.tag <;> simp

theorem noteEnds_notesOnly {s : State} (tileMode : s.stp.settled = false) : NotesOnly s (noteEnds s) := by
  have spans := noteSpans_notesOnly tileMode
  rw [noteEnds, sendNewFactors_same spans.hank]
  exact spans.trans (noteSpans_notesOnly (spans.settled.trans tileMode))

theorem noteUpdateOvf_notesOnly (tag n : Nat) (s : State) : NotesOnly s (noteUpdateOvf tag n s) :=
  (NotesOnly.refl s).ite <| (onTel_notesOnly s _).trans <| (onStp_notesOnly _ (by rfl)).trans <| raiseIf_notesOnly _ _ _ _

-- The shadow copy of a shard (R200, R204).

/-- Telemetry, the step block and the skein bases have no part in where a side of a shard stands. -/
theorem putSide_skein_of_reports {s t : State} (h : ReportsOnly s t) (p : Hank) (second : Bool) (b : ShardBuf) :
    (putSide p second b t).skein = (putSide p second b s).skein := by
  obtain ⟨stp, tel, skn, rfl⟩ := h
  have place : sidePlace { s with stp := stp, tel := tel, skn := skn } p second = sidePlace s p second := rfl
  rw [putSide, putSide, place]
  cases sidePlace s p second <;> rfl

theorem putSide_eq (p : Hank) (second : Bool) (b : ShardBuf) (s : State) :
    putSide p second b s = { s with skein := (putSide p second b s).skein, skn := (putSide p second b s).skn } := by
  unfold putSide
  split <;> rfl

/-- A shard whose shadow copy has been written: its leaf and its ratio sums are those of the new weights. -/
def Shard.withShadow (leaf : List Byte) (sums : Nat × Nat) (x : Shard) : Shard :=
  { x with shadowReady := true, shadowLeaf := leaf, d2 := sums.1, w2 := sums.2 }

/-- The buffer that the update of a shard makes of its master copy. -/
def updatedBuf (hk : Hanks) (l : Layer) (p : Hank) (h : HankRt) (s : State) : ShardBuf :=
  (updateBuf (recipeOf s hk p (masterBuf s p)) (masterBuf s p) ((shardGrads s hk l p h).map (·.val.bits))).1

/-- A state with the writes of an update: the new values in the place of the shadow copy, and the shard that has it. -/
def shadowTaken (hk : Hanks) (l : Layer) (p : Hank) (h : HankRt) (s : State) : State :=
  let r := updatedBuf hk l p h s
  { s with
    skein := (putSide p (!shardSel s p.tag) r s).skein
    reel := { s.reel with
      shards := updWhere (fun x => x.tag == p.tag) (Shard.withShadow (leafOf p.tag r.w) (ratioSums (masterBuf s p).w r.w)) s.reel.shards } }

section
variable (hk : Hanks) (l : Layer) (p : Hank) (h : HankRt) (s : State)

theorem shadowTaken_shard : (shadowTaken hk l p h s).shard p.tag = (s.shard p.tag).map
    (Shard.withShadow (leafOf p.tag (updatedBuf hk l p h s).w) (ratioSums (masterBuf s p).w (updatedBuf hk l p h s).w)) :=
  find?_updWhere (fun x : Shard => x.tag == p.tag) (Shard.withShadow _ _) (fun _ named => named) s.reel.shards

theorem shadowTaken_shard_ne {g : Nat} (other : g ≠ p.tag) : (shadowTaken hk l p h s).shard g = s.shard g := by
  refine find?_updWhere_ne _ _ (Shard.withShadow _ _) (fun x named => ?_) s.reel.shards
  have unlike : (x.tag == g) = false := beq_false_of_ne ((beq_iff_eq.1 named).trans_ne other.symm)
  exact ⟨unlike, unlike⟩

/-- The read counters of the skein bases have no part in an update. -/
theorem shadowTaken_skn (k : SknBlk) : shadowTaken hk l p h { s with skn := k } = { shadowTaken hk l p h s with skn := k } := by
  have noted : ReportsOnly s { s with skn := k } := onSkn_reportsOnly s fun _ => k
  unfold shadowTaken
  dsimp only
  rw [putSide_skein_of_reports noted]
  rfl

/-- Besides its writes an update notes the segments to check, its saturations and the phases. -/
theorem updateShard_eq : ∃ n skn ply, updateShard hk l p h s =
    noteEnds (noteUpdateOvf p.tag n { shadowTaken hk l p h s with stp := (beginU s).stp, skn := skn, ply := ply }) := by
  have begun : ReportsOnly s (beginU s) := onStp_reportsOnly s _
  unfold updateShard
  dsimp only
  rw [putSide_eq, putSide_skein_of_reports begun]
  exact ⟨_, _, _, rfl⟩

/-- In tile-by-tile mode those notes stay in the step block, the bobbin and telemetry. -/
theorem updateShard_tileMode {s : State} (tileMode : s.stp.settled = false) : ∃ stp tel bob skn ply, updateShard hk l p h s =
    { shadowTaken hk l p h s with stp := stp, tel := tel, bob := bob, skn := skn, ply := ply } := by
  obtain ⟨n, skn, ply, update⟩ := updateShard_eq hk l p h s
  have counted := noteUpdateOvf_notesOnly p.tag n { shadowTaken hk l p h s with stp := (beginU s).stp, skn := skn, ply := ply }
  have begun : (beginU s).stp.settled = false := (beginU_notesOnly s).settled.trans tileMode
  obtain ⟨stp, bob, tel, -, notes⟩ := counted.trans (noteEnds_notesOnly (counted.settled.trans begun))
  exact ⟨stp, tel, bob, skn, ply, update.trans notes⟩

end

-- UPDATE_SHARD.

theorem findHank_tag {s : State} {tag : Nat} {p : Hank} (found : findHank s tag = some p) : p.tag = tag := by
  simpa using List.find?_some found

section
variable {tag : BitVec 20} {im : Image} {p : Hank} {x : Shard} {h : HankRt} {l : Layer} {s : State}
  (hi : s.warp.image = some im) (hp : findHank s tag.toNat = some p) (hx : s.shard tag.toNat = some x)
  (hh : s.hank tag.toNat = some h) (hl : layerOf s p.layer = some l)
include hi hp hx hh hl

theorem exec_updateShard_notReady (waits : updateReady s p x = false) (e : Option UnitError) : exec (.updateShard tag e) s = .next s := by
  simp [exec, execUpdateShard, hi, hp, hx, hh, hl, waits]

theorem exec_updateShard_usable (ready : updateReady s p x = true) (usable : (readShard p s).2 = true) :
    exec (.updateShard tag none) s = .next (updateShard im.hanks l p h (readShard p s).1) := by
  simp [exec, execUpdateShard, hi, hp, hx, hh, hl, ready, usable, engineError]

end

/-- Settles O25: a usable read notes granules only, and in tile-by-tile mode no phase that ends with the update sends anything. -/
theorem updateShardRow : Obligations.UpdateShardRow := by
  unfold Obligations.UpdateShardRow
  intro tag im p x h l s hi hp hx hh hl
  refine ⟨fun skip e => ?held, fun running readable owned kind batch noSkip tileMode fresh present slice => ?taken⟩
  case held =>
    have waits : updateReady s p x = false := by simp [updateReady, skip]
    exact exec_updateShard_notReady hi hp hx hh hl waits e
  case taken =>
    have ready : updateReady s p x = true := by
      simp [updateReady, running, owned, kind, batch, noSkip, fresh, present, slice]
    have own : p.tag = tag.toNat := findHank_tag hp
    obtain ⟨k, read⟩ := readShard_usable readable
    obtain ⟨stp, tel, bob, skn, ply, update⟩ := updateShard_tileMode im.hanks l p h (s := { s with skn := k }) tileMode
    have done := exec_updateShard_usable hi hp hx hh hl ready readable
    rw [read, update, shadowTaken_skn] at done
    have taken := shadowTaken_shard im.hanks l p h s
    rw [own, hx] at taken
    refine ⟨_, _, done, rfl, taken, rfl, rfl, rfl, fun g other => ?_, rfl⟩
    exact shadowTaken_shard_ne im.hanks l p h s (other.trans_eq own.symm)

end Sys2Proof.Machine
end

section
/-! The waits of the readiness scheduler (family 06): an aged tile, and a cluster whose work cannot go on (R184, R186, R487). -/

namespace Sys2Proof.Machine

section
variable {cl : ClusterIx} {s : State}

theorem exec_agedTilePriority_running (running : s.stp.running = true) (layer row col mb : Nat) (ph : Phase) :
    exec (.agedTilePriority cl layer row col mb ph) s =
      .next (s.onStp fun b => { b with aged := b.aged ++ [⟨cl.val, layer, row, col, mb, ph⟩] }) :=
  congrArg Host.Outcome.next (if_pos running)

theorem exec_schedulerWaitTimeout_shaped {works : List Work} (shaped : works.all (Work.shaped cl) = true) :
    exec (.schedulerWaitTimeout cl works) s = .next (if schedulerWaits s cl works then
      noteEnds (loseCluster cl works (faultNow (raise 0x1305 [cl.val] s))) else s) :=
  if_pos shaped

end

/-- Settles O20: the two rows are an `if` each, on whether a batch runs and on whether the cluster waits. -/
theorem schedulerRows : Obligations.SchedulerRows := by
  unfold Obligations.SchedulerRows
  intro cl s
  refine ⟨fun running layer row col mb ph => exec_agedTilePriority_running running layer row col mb ph,
    fun works shaped waits => ⟨?lost, rfl⟩, fun works shaped goesOn => ?kept⟩
  case lost => rw [exec_schedulerWaitTimeout_shaped shaped, if_pos waits]
  case kept => rw [exec_schedulerWaitTimeout_shaped shaped, goesOn, if_neg Bool.false_ne_true]

end Sys2Proof.Machine
end

section
/-! Notices and verdict sets (family 06): what a frame of the present execution gathers at its endpoint (R205, R335, R336, R343). -/

namespace Sys2Proof.Machine

/-- Taking a frame leaves what decides whether it is of the present execution. -/
theorem presentExec_arrived (rx : Rx) (s : State) (f : Frame) : presentExec (arrived rx s) f = presentExec s f := by
  simp only [presentExec, jobLoaded, standing, arrived_stp, arrived_warp, arrived_job]

/-- What is sent stands in the ports and the telemetry. -/
theorem State.sent_of {s t : State} (h : t.quiet = s.quiet) : ∃ rov tel, t = { s with rov := rov, tel := tel } := ⟨_, _, State.rest_of h⟩

-- Verdict sets on the manager (R336, R337).

/-- While a rank is silent there is no decision. -/
theorem decideOnce_silent {s : State} {r : Nat} (silent : r ∈ silentRanks s) : decideOnce s = s := by
  have lacks : (silentRanks s).isEmpty = false := by
    cases h : silentRanks s with
    | nil => rw [h] at silent; cases silent
    | cons => rfl
  simp [decideOnce, lacks]

theorem tryDecide_silent {s : State} {r : Nat} (silent : r ∈ silentRanks s) : tryDecide s = s := by
  simp [tryDecide, decideOnce_silent silent]

section
variable {rx : Rx} {s : State}

theorem onVerdict_opens (present : presentExec s rx.frame = true)
    (fresh : s.job.sets.any (fun v => v.rank == rx.frame.src.toNat) = false) :
    onVerdict rx s = tryDecide (s.onJob fun j => { j with sets := j.sets ++ [readVerdict rx.frame.src.toNat rx.frame.payload] }) :=
  if_pos (by rw [present, fresh]; rfl)

/-- A second VERDICT of a rank is ignored. -/
theorem onVerdict_again (known : s.job.sets.any (fun v => v.rank == rx.frame.src.toNat) = true) : onVerdict rx s = s :=
  if_neg (by rw [known]; simp)

end

-- The skip notice (R205, R335).

theorem holdSkip_stp (s : State) : (holdSkip s).stp = { s.stp with skipHeld := true } := rfl
theorem holdSkip_reel (s : State) : (holdSkip s).reel = s.reel.abandon := rfl
theorem holdSkip_job (s : State) : (holdSkip s).job = s.job := rfl

theorem managerNotice_sent {s : State} (sent : s.job.skipNoticeSent = true) : managerNotice s = s := if_pos sent

/-- The first notice makes the manager send the skip notice and hold it. -/
theorem managerNotice_first {s : State} (first : s.job.skipNoticeSent = false) :
    ∃ rov tel, managerNotice s = holdSkip { s with rov := rov, tel := tel, job := { s.job with skipNoticeSent := true } } := by
  obtain ⟨rov, tel, sends⟩ := State.sent_of ((dropRevoked_quiet s.stp.batch s.stp.exec _).trans
    (broadcast_quiet (mkFrame ftSkipNotice 4 0 0 0xFFFF (rankOf s) s.stp.exec s.stp.batch [])
      (s.onJob fun j => { j with skipNoticeSent := true })))
  refine ⟨rov, tel, ?_⟩
  rw [managerNotice, first, if_neg Bool.false_ne_true, sends]
  rfl

/-- A hank that is not through is abandoned by a skip. -/
theorem abandon_hanks (r : ReelBlk) (h : HankRt) (kept : h ∈ r.abandon.hanks) :
    h.st = .delivered ∨ h.st = .nonfinite ∨ h.st = .abandoned := by
  obtain ⟨x, -, rfl⟩ := List.mem_map.1 kept
  by_cases through : x.st = .delivered ∨ x.st = .nonfinite
  · rw [if_pos (by simpa using through)]
    exact through.imp_right .inl
  · rw [if_neg (by simpa using through)]
    exact .inr (.inr rfl)

theorem abandon_shards (r : ReelBlk) : ∀ x ∈ r.abandon.shards, x.abandoned = true ∧ x.shadowReady = false ∧ x.shadowLeaf = [] := by
  simp [ReelBlk.abandon]

-- The wait of a worker (R343).

section
variable {s : State} (waits : s.stp.verdictSent = true) (worker : isManager s = false) (loaded : jobLoaded s = true)
include waits worker loaded

theorem exec_decisionTimeout_first (first : s.job.timeoutRaised = false) :
    exec .decisionTimeout s = .next (raise 0x4031 [managerRank s] { s with job := { s.job with timeoutRaised := true } }) :=
  congrArg Host.Outcome.next (if_pos (by rw [waits, worker, loaded, first]; rfl))

theorem exec_decisionTimeout_again (raised : s.job.timeoutRaised = true) : exec .decisionTimeout s = .next s :=
  congrArg Host.Outcome.next (if_neg (by rw [waits, worker, loaded, raised]; decide))

end

/-- Settles O35: each frame acts on the state that took it, and what the two notices and the silent ranks do is said above. -/
theorem verdictGatheringRows : Obligations.VerdictGatheringRows := by
  unfold Obligations.VerdictGatheringRows
  intro rx s
  refine ⟨fun ha hp => ?frames, managerNotice_sent, fun first => ?first, holdSkip_stp s, holdSkip_reel s, abandon_hanks s.reel,
    abandon_shards s.reel, fun u r silent => tryDecide_silent silent, fun waits worker loaded =>
      ⟨exec_decisionTimeout_first waits worker loaded, exec_decisionTimeout_again waits worker loaded⟩⟩
  case frames =>
    have present : presentExec (arrived rx s) rx.frame = true := (presentExec_arrived rx s rx.frame).trans hp
    refine ⟨fun hf => ?notice, fun hf => ?skip, fun hf fresh => ?opens, fun hf known => ?again, fun hf => ?counts, fun hf => ?ratios⟩
    case notice => exact (checked_receive hf ha).trans (congrArg _ (if_pos present))
    case skip => exact (checked_receive hf ha).trans (congrArg _ (if_pos present))
    case opens => exact (checked_receive hf ha).trans (congrArg _ (onVerdict_opens present (by rw [arrived_job]; exact fresh)))
    case again => exact (checked_receive hf ha).trans (congrArg _ (onVerdict_again (by rw [arrived_job]; exact known)))
    case counts => exact (checked_receive hf ha).trans (congrArg _ (if_pos present))
    case ratios => exact (checked_receive hf ha).trans (congrArg _ (if_pos present))
  case first =>
    obtain ⟨rov, tel, notice⟩ := managerNotice_first first
    rw [notice]
    exact ⟨rfl, rfl, rfl⟩

end Sys2Proof.Machine
end

section
/-! C and the halt on silence (family 06): the device's own verdict set, the query of a waiting worker, and what the manager issues when it
halts the job (R201, R336, R339, R341, R343, R485). -/

namespace Sys2Proof.Machine

-- Reports.

/-- `t` differs from `s` in telemetry only. -/
def TellsOnly (s t : State) : Prop := ∃ tel, t = { s with tel := tel }

namespace TellsOnly
variable {s t u : State}

theorem refl (s : State) : TellsOnly s s := ⟨s.tel, rfl⟩

theorem trans (h : TellsOnly s t) (h' : TellsOnly t u) : TellsOnly s u := by
  obtain ⟨_, rfl⟩ := h
  obtain ⟨tel, rfl⟩ := h'
  exact ⟨tel, rfl⟩

theorem ite {c : Prop} [Decidable c] (ht : TellsOnly s t) (hu : TellsOnly s u) : TellsOnly s (if c then t else u) := by
  split
  · exact ht
  · exact hu

theorem foldl {α : Type} {f : State → α → State} (h : ∀ s x, TellsOnly s (f s x)) (l : List α) (s : State) : TellsOnly s (l.foldl f s) := by
  induction l generalizing s with
  | nil => exact refl s
  | cons x xs ih => exact (h s x).trans (ih _)

end TellsOnly

theorem onTel_tellsOnly (s : State) (f : TelBlk → TelBlk) : TellsOnly s (s.onTel f) := ⟨f s.tel, rfl⟩
theorem raiseAt_tellsOnly (b : Nat) (c : Half) (p : List Nat) (s : State) : TellsOnly s (raiseAt b c p s) := onTel_tellsOnly s _
theorem raise_tellsOnly (c : Half) (p : List Nat) (s : State) : TellsOnly s (raise c p s) := onTel_tellsOnly s _
theorem count_tellsOnly (b k n : Nat) (s : State) : TellsOnly s (count b k n s) := onTel_tellsOnly s _
theorem countEvt_tellsOnly (k : Nat) (s : State) : TellsOnly s (countEvt k s) := count_tellsOnly 48 k 1 s
theorem countErr_tellsOnly (k : Nat) (s : State) : TellsOnly s (countErr k s) := count_tellsOnly 16 k 1 s
theorem raiseIf_tellsOnly (b : Bool) (c : Half) (p : List Nat) (s : State) : TellsOnly s (raiseIf b c p s) :=
  (raise_tellsOnly c p s).ite (.refl s)

-- A decision reads back (R338).

/-- The fields of a decision are in the range that its words have for them. -/
structure DecHdr.Fits (d : DecHdr) : Prop where
  kind : d.kind < 16
  exec : d.exec < 4
  reason : d.reason < 8
  haltReason : d.haltReason < 16
  mapLayers : d.mapLayers < 2 ^ 15

/-- A decision in range says the kind, execution and halt reason that were written, and the step index as 48 bits hold it. -/
theorem readDec_words {d : DecHdr} (fits : d.Fits) (body : List Word) :
    (readDec (d.words ++ body)).kind = d.kind ∧ (readDec (d.words ++ body)).exec = d.exec ∧
      (readDec (d.words ++ body)).haltReason = d.haltReason ∧ (readDec (d.words ++ body)).step = d.step % 2 ^ 48 := by
  obtain ⟨hk, hx, hr, hh, hm⟩ := fits
  have settled : b2n d.nextSettled < 2 := by unfold b2n; split <;> decide
  have word : wordAt (d.words ++ body) 0 =
      w32 (d.kind * 2 ^ 28 + d.exec * 2 ^ 26 + b2n d.nextSettled * 2 ^ 25 + d.reason * 2 ^ 22 + d.haltReason * 2 ^ 18 + d.mapLayers) := rfl
  have low : wordAt (d.words ++ body) 1 = w32 d.step := rfl
  have high : wordAt (d.words ++ body) 2 = w32 (d.step / 2 ^ 32 % 65536) := rfl
  refine ⟨readDec_words_kind d body hk hx hr hh hm, ?exec, ?halt, ?step⟩
  case exec =>
    show wfield (wordAt (d.words ++ body) 0) 27 26 = d.exec
    rw [word]
    simp only [wfield, field, w32, BitVec.toNat_ofNat]
    omega
  case halt =>
    show wfield (wordAt (d.words ++ body) 0) 21 18 = d.haltReason
    rw [word]
    simp only [wfield, field, w32, BitVec.toNat_ofNat]
    omega
  case step =>
    show (wordAt (d.words ++ body) 1).toNat + 2 ^ 32 * wfield (wordAt (d.words ++ body) 2) 15 0 = d.step % 2 ^ 48
    rw [low, high]
    simp only [wfield, field, w32, BitVec.toNat_ofNat]
    omega

-- What sending leaves of the held frames (R332).

section
variable (s : State)

@[simp] theorem giveBack_held (p : PortIx) (v n : Nat) : (giveBack p v n s).rov.held = s.rov.held := rfl
@[simp] theorem putWire_held (p : PortIx) (f : Frame) : (putWire p f s).rov.held = s.rov.held := rfl
@[simp] theorem onPort_held (p : PortIx) (f : Port → Port) : (s.onPort p f).rov.held = s.rov.held := rfl

@[simp] theorem foldl_held {α : Type} (f : State → α → State) (h : ∀ s x, (f s x).rov.held = s.rov.held) (l : List α) :
    (l.foldl f s).rov.held = s.rov.held := by
  induction l generalizing s with
  | nil => rfl
  | cons x xs ih => rw [List.foldl_cons, ih, h]

@[simp] theorem Queued.done_held (x : Queued) : (x.done s).rov.held = s.rov.held := by
  unfold Queued.done
  split <;> simp

@[simp] theorem pumpN_held (p : PortIx) (n : Nat) : (pumpN p n s).rov.held = s.rov.held := by
  induction n generalizing s with
  | zero => rfl
  | succ n ih => unfold pumpN; (repeat' split) <;> simp [ih]

@[simp] theorem sendOn_held (p : Option PortIx) (f : Frame) : (sendOn p f s).rov.held = s.rov.held := by
  cases p with
  | none => rfl
  | some p => simp [sendOn, queueFrame, queueVia, pump]

@[simp] theorem sendUnicast_held (f : Frame) : (sendUnicast f s).rov.held = s.rov.held := sendOn_held s _ f

@[simp] theorem spread_held (a b n o c : Nat) (only : Option Bool) (f : Frame) : (spread a b n o c only f s).rov.held = s.rov.held := by
  unfold spread
  dsimp only
  (repeat' split) <;> simp

@[simp] theorem broadcast_held (f : Frame) : (broadcast f s).rov.held = s.rov.held := by
  unfold broadcast passBroadcast
  dsimp only
  (repeat' split) <;> simp

/-- Dropping frames brings none that was not held before. -/
theorem dropRevoked_held (b x : Nat) (h : s.rov.held = []) : (dropRevoked b x s).rov.held = [] := by
  simp only [dropRevoked, dropFrames]
  rw [foldl_held _ _ (fun t r => giveBack_held t _ _ _), foldl_held _ _ fun t x => x.done_held t]
  simp [h]

end

-- The manager issues its decision (R337, R339, R485).

@[simp] theorem sendDecision_quiet (kind exec batch : Nat) (payload : List Word) (s : State) :
    (sendDecision kind exec batch payload s).quiet = s.quiet := by
  unfold sendDecision
  split <;> simp

@[simp] theorem sendDecision_held (kind exec batch : Nat) (payload : List Word) (s : State) :
    (sendDecision kind exec batch payload s).rov.held = s.rov.held := by
  unfold sendDecision
  split <;> simp

/-- The frames that a decision with REVOKE drops are gone: neither a COMMIT nor a START has that mark (R333, R338). -/
def revokedBy (kind : Nat) (s : State) : State := if kind == 1 || kind == 5 then s else dropRevoked s.stp.batch s.stp.exec s

theorem revokedBy_quiet (kind : Nat) (s : State) : (revokedBy kind s).quiet = s.quiet := by
  unfold revokedBy
  split <;> simp

theorem revokedBy_held (kind : Nat) {s : State} (h : s.rov.held = []) : (revokedBy kind s).rov.held = [] := by
  unfold revokedBy
  split
  · exact h
  · exact dropRevoked_held s _ _ h

/-- The state with a decision sent and kept, and what it revokes dropped. -/
def decisionSent (kind : Nat) (ws : List Word) (s : State) : State :=
  sendDecision kind s.stp.exec s.stp.batch ws (keepDecision ⟨s.stp.batch, s.stp.exec, ws⟩ (revokedBy kind s))

theorem decisionSent_rest (kind : Nat) (ws : List Word) (s : State) : ∃ rov tel, decisionSent kind ws s =
    { keepDecision ⟨s.stp.batch, s.stp.exec, ws⟩ s with rov := rov, tel := tel } ∧ (s.rov.held = [] → rov.held = []) := by
  have quiet : (decisionSent kind ws s).quiet = (keepDecision ⟨s.stp.batch, s.stp.exec, ws⟩ s).quiet :=
    calc (decisionSent kind ws s).quiet
        = keepDecision ⟨s.stp.batch, s.stp.exec, ws⟩ (revokedBy kind s).quiet := sendDecision_quiet ..
      _ = keepDecision ⟨s.stp.batch, s.stp.exec, ws⟩ s.quiet := by rw [revokedBy_quiet]
  have held : (decisionSent kind ws s).rov.held = (revokedBy kind s).rov.held := sendDecision_held ..
  obtain ⟨rov, tel, sends⟩ := State.sent_of quiet
  rw [sends] at held ⊢
  exact ⟨rov, tel, rfl, fun h => held.trans (revokedBy_held kind h)⟩

/-- The ranks that a halt withdraws are told by the image and the gathered sets. -/
theorem withdrawn_congr {s t : State} (hw : t.warp = s.warp) (hs : t.job.sets = s.job.sets) (reason : Nat) :
    withdrawn t reason = withdrawn s reason := by
  simp only [withdrawn, silentRanks, deviceCount, hw, hs]

/-- The job of the manager as its decision is carried out: the decision is kept and noted, and a halt withdraws admissions. -/
def issuedJob (d : DecHdr) (x : Decision) (s : State) : JobBlk :=
  let j := { s.job with kept := x :: s.job.kept.filter fun y => y.batch == x.batch, acted := (x :: s.job.acted).take 4 }
  if d.kind = 4 then
    { j with
      haltedJob := true, admittedRanks := j.admittedRanks.filter fun r => !(withdrawn s d.haltReason).contains r.1
      admitted := j.admitted && !(withdrawn s d.haltReason).contains (rankOf s) }
  else j

/-- A request of the host for the settled mode is served by the decision that ends the batch (R197). -/
def requestServed (d : DecHdr) (s : State) : State :=
  if d.kind == 1 || d.kind == 2 then s.onJob fun j => { j with settledReq := false } else s

/-- What the manager issues it carries out itself, on a state that differs in ports, telemetry and the job. -/
theorem issue_carries (d : DecHdr) (body : List Word) (num : Option NumNext) (s : State) : ∃ rov tel,
    (s.rov.held = [] → rov.held = []) ∧ issue d body num s = requestServed d (carryOut num s.stp.batch (d.words ++ body)
      { s with rov := rov, tel := tel, job := issuedJob d ⟨s.stp.batch, s.stp.exec, d.words ++ body⟩ s }) := by
  obtain ⟨rov, tel, sends, held⟩ := decisionSent_rest d.kind (d.words ++ body) s
  refine ⟨rov, tel, held, ?_⟩
  unfold decisionSent revokedBy at sends
  unfold issue
  dsimp only
  rw [sends]
  by_cases halts : d.kind = 4
  · have out := withdrawn_congr (s := s) (t := { keepDecision ⟨s.stp.batch, s.stp.exec, d.words ++ body⟩ s with rov := rov, tel := tel })
      rfl rfl d.haltReason
    simp only [halts, issuedJob, beq_self_eq_true, if_true, haltJob, out, requestServed]
    rfl
  · simp only [issuedJob, if_neg halts, beq_eq_false_iff_ne.2 halts, Bool.false_eq_true, if_false, requestServed]
    rfl

/-- A halt of a LOADED device that has lost no committed state: what stands after it. -/
theorem actHalt_stands (d : DecHdr) {s : State} (hl : s.warp.state = .loaded) (whole : s.skn.stk.any (·.stateLost) = false) :
    (actHalt d s).warp.state = .halted ∧ (actHalt d s).job = (haltNoted d s).job ∧ (actHalt d s).stp.running = false ∧
      (actHalt d s).stp.batch = s.stp.batch ∧ (actHalt d s).stp.exec = 0 := by
  obtain ⟨_, _, _, _, _, _, _, _, acts⟩ := actHalt_loaded d hl whole
  rw [acts]
  exact ⟨rfl, rfl, rfl, rfl, rfl⟩

/-- A LOADED manager that has lost no committed state stands HALTED after the halt it issues. -/
theorem issue_halts {d : DecHdr} (hk : d.kind = 4) (fits : d.Fits) {s : State} (hl : s.warp.state = .loaded)
    (whole : s.skn.stk.any (·.stateLost) = false) : ∃ t, issue d [] none s = t ∧ t.warp.state = .halted ∧ t.job.haltedJob = true ∧
      t.job.lastKind = 4 ∧ t.job.lastHalt = d.haltReason ∧ t.job.lastBatch = s.stp.batch ∧
      t.job.admittedRanks = s.job.admittedRanks.filter (fun r => !(withdrawn s d.haltReason).contains r.1) ∧
      t.stp.running = false ∧ t.stp.batch = s.stp.batch ∧ t.stp.exec = 0 ∧ t.ply.quarantineHalt = false := by
  obtain ⟨kind, -, reason, -⟩ := readDec_words fits []
  obtain ⟨rov, tel, -, carries⟩ := issue_carries d [] none s
  have served : requestServed d = id := by funext t; simp [requestServed, hk]
  rw [carries, served, id_eq, carryOut_halt (kind.trans hk)]
  generalize d.words ++ [] = ws at kind reason
  generalize readDec ws = r at kind reason
  have issued : issuedJob d ⟨s.stp.batch, s.stp.exec, ws⟩ s = _ := if_pos hk
  generalize issuedJob d ⟨s.stp.batch, s.stp.exec, ws⟩ s = job at issued
  obtain ⟨halted, jobAfter, stopped, batch, execution⟩ := actHalt_stands (s := { s with rov := rov, tel := tel, job := job }) r hl whole
  obtain ⟨-, ended⟩ := actHalt_accepted (s := { s with rov := rov, tel := tel, job := job }) r ((State.whole_iff _).2 whole)
  refine ⟨_, rfl, halted, ?_, ?_, ?_, ?_, ?_, stopped, batch, execution, ended⟩
  · rw [jobAfter]; exact congrArg JobBlk.haltedJob issued
  · rw [jobAfter]; exact kind.trans hk
  · rw [jobAfter]; exact reason
  · rw [jobAfter]; rfl
  · rw [jobAfter]; exact congrArg JobBlk.admittedRanks issued

theorem jobLoaded_of_loaded {s : State} (hl : s.warp.state = .loaded) : jobLoaded s = true := by simp [jobLoaded, standing, hl]

-- C (R201, R336, R391).

/-- The record of an execution and the fault it may give change the step block and telemetry. -/
theorem noteExecution_notes (s : State) : ∃ tel records fault cause, noteExecution s =
    { s with tel := tel, stp := { s.stp with execRecords := records, fault := fault, faultCause := cause } } := by
  unfold noteExecution
  dsimp only
  split
  · obtain ⟨tel, tells⟩ := (countErr_tellsOnly 0x300030 _).trans (raise_tellsOnly 0x2111 [(execRecord s).exec] _)
    rw [tells]
    exact ⟨tel, _, _, _, rfl⟩
  · exact ⟨_, _, _, _, rfl⟩

/-- The state that the device's own set is made of: C has begun and its execution is recorded. -/
def concluded (s : State) : State := noteExecution (beginC (if s.stp.portFault then faultNow s else s))

theorem concluded_rest (s : State) : ∃ tel stp, concluded s = { s with tel := tel, stp := stp } ∧ stp.verdictSent = true ∧
    stp.phases.c.start = some (sinceFirstF s) ∧ stp.batch = s.stp.batch ∧ stp.exec = s.stp.exec := by
  obtain ⟨tel, records, fault, cause, notes⟩ := noteExecution_notes (beginC (if s.stp.portFault then faultNow s else s))
  refine ⟨tel, (concluded s).stp, ?_⟩
  unfold concluded
  rw [notes]
  split <;> exact ⟨rfl, rfl, rfl, rfl, rfl⟩

section
variable {s : State}

theorem exec_sendVerdictSet_early (early : cReady s = false) : exec .sendVerdictSet s = .next s :=
  congrArg Host.Outcome.next (if_neg (by rw [early]; simp))

theorem exec_sendVerdictSet_ready (runs : unitsRun s = true) (ready : cReady s = true) :
    exec .sendVerdictSet s = .next (deliverSet (ownSet (concluded s)) (concluded s)) :=
  congrArg Host.Outcome.next (if_pos (by rw [runs, ready]; rfl))

end

@[simp] theorem sendSet_quiet (v : VerdictSet) (s : State) : (sendSet v s).quiet = s.quiet := by simp [sendSet]

theorem ownSet_complete (s : State) : (ownSet s).complete = true := by simp [VerdictSet.complete, ownSet]

/-- The manager takes its own set to those it has gathered. -/
def gatherSet (v : VerdictSet) (s : State) : State :=
  s.onJob fun j => { j with sets := (j.sets.filter fun x => x.rank != v.rank) ++ [v], gathering := true }

theorem deliverSet_manager {s : State} (manager : isManager s = true) (v : VerdictSet) : deliverSet v s = tryDecide (gatherSet v s) :=
  if_pos manager

theorem deliverSet_worker {s : State} (worker : isManager s = false) (v : VerdictSet) : deliverSet v s = sendSet v s :=
  if_neg (by rw [worker]; exact Bool.false_ne_true)

/-- A rank with no complete set stays silent as the set of another is gathered. -/
theorem silent_gatherSet {s : State} {r : Nat} {v : VerdictSet} (known : r < deviceCount s) (other : r ≠ v.rank)
    (lacks : ∀ x ∈ s.job.sets, x.rank = r → x.complete = false) : r ∈ silentRanks (gatherSet v s) := by
  refine List.mem_filter.2 ⟨List.mem_range.2 known, ?_⟩
  simp only [Bool.not_eq_true', List.any_eq_false, Bool.and_eq_true, beq_iff_eq, not_and, Bool.not_eq_true]
  intro x gathered rank
  rcases List.mem_append.1 gathered with earlier | own
  · exact lacks x (List.mem_of_mem_filter earlier) rank
  · rw [List.mem_singleton.1 own] at rank
    exact absurd rank.symm other

-- The query of a waiting worker (R339).

section
variable {s : State}

theorem exec_decisionQueryTimer_waits (waits : s.stp.verdictSent = true) (worker : isManager s = false) (loaded : jobLoaded s = true) :
    exec .decisionQueryTimer s =
      .next (sendUnicast (mkFrame ftQuery 0 0 0 (managerRank s) (rankOf s) s.stp.exec s.stp.batch []) s) :=
  congrArg Host.Outcome.next (if_pos (by rw [waits, worker, loaded]; rfl))

theorem exec_decisionQueryTimer_early (early : s.stp.verdictSent = false) : exec .decisionQueryTimer s = .next s :=
  congrArg Host.Outcome.next (if_neg (by rw [early]; simp))

theorem onQuery_kept {rx : Rx} {d : Decision}
    (kept : s.job.kept.find? (fun y => y.batch == rx.frame.batch.toNat && y.exec == rx.frame.exec.toNat) = some d) :
    onQuery rx s = sendUnicast (decFrame s (readDec d.payload).kind rx.frame.src.toNat d.exec d.batch d.payload) s := by
  simp only [onQuery, kept]

theorem onQuery_unknown {rx : Rx}
    (unknown : s.job.kept.find? (fun y => y.batch == rx.frame.batch.toNat && y.exec == rx.frame.exec.toNat) = none) :
    onQuery rx s = s := by
  simp only [onQuery, unknown]

theorem decFrame_arrived (rx : Rx) (kind dest x b : Nat) (ws : List Word) :
    decFrame (arrived rx s) kind dest x b ws = decFrame s kind dest x b ws := by
  simp only [decFrame, rankOf_arrived]

-- The limit on silence (R341).

/-- The manager that has waited too long halts for reason 3. -/
theorem exec_verdictTimeout_silent (manager : isManager s = true) (gathers : s.job.gathering = true) (loaded : jobLoaded s = true)
    {r : Nat} (silent : r ∈ silentRanks s) :
    exec .verdictTimeout s = .next (issue { decHdr s 4 with haltReason := 3 } [] none
      (raise 0x4030 [(silentRanks s).length, (silentRanks s).headD 0] s)) := by
  have lacks : (silentRanks s).isEmpty = false := by
    cases h : silentRanks s with
    | nil => rw [h] at silent; cases silent
    | cons => rfl
  exact congrArg Host.Outcome.next (if_pos (by rw [manager, gathers, lacks, loaded]; rfl))

theorem exec_verdictTimeout_complete (complete : silentRanks s = []) : exec .verdictTimeout s = .next s :=
  congrArg Host.Outcome.next (if_neg (by rw [complete]; simp))

end

/-- Settles O36: C concludes the execution, whose set is sent or gathered; the query and the limit on silence are rows of their own. -/
theorem verdictSendingRows : Obligations.VerdictSendingRows := by
  unfold Obligations.VerdictSendingRows
  intro rx s
  obtain ⟨tel, stp, concludes, sent, start, batch, execution⟩ := concluded_rest s
  refine ⟨exec_sendVerdictSet_early, fun runs ready worker => ?worker, fun r runs ready manager known other lacks => ?manager,
    exec_decisionQueryTimer_waits, exec_decisionQueryTimer_early, fun ha hf => ⟨fun d kept => ?kept, fun unknown => ?unknown⟩,
    fun manager gathers loaded ⟨r, silent⟩ execution whole => ?silent, fun _ => exec_verdictTimeout_complete⟩
  case worker =>
    have worker' : isManager (concluded s) = false := by rw [concludes]; exact worker
    obtain ⟨rov, tel', sends⟩ := State.sent_of (sendSet_quiet (ownSet (concluded s)) (concluded s))
    rw [concludes] at sends
    rw [exec_sendVerdictSet_ready runs ready, deliverSet_worker worker', concludes, sends]
    exact ⟨_, rfl, sent, start, batch, execution, rfl⟩
  case manager =>
    have manager' : isManager (concluded s) = true := by rw [concludes]; exact manager
    have rank : (ownSet (concluded s)).rank = rankOf s := by rw [concludes]; rfl
    have silent : r ∈ silentRanks (gatherSet (ownSet (concluded s)) (concluded s)) :=
      silent_gatherSet (by rw [concludes]; exact known) (other.trans_eq rank.symm) (by rw [concludes]; exact lacks)
    rw [exec_sendVerdictSet_ready runs ready, deliverSet_manager manager', tryDecide_silent silent]
    refine ⟨_, ownSet (concluded s), rfl, ?_, rank, ownSet_complete _, ?_, rfl, ?_⟩
    · rw [concludes]; exact sent
    · rw [← rank, concludes]; rfl
    · rw [concludes]; rfl
  case kept =>
    rw [← decFrame_arrived rx]
    exact (checked_receive hf ha).trans (congrArg _ (onQuery_kept (by rw [arrived_job]; exact kept)))
  case unknown => exact (checked_receive hf ha).trans (congrArg _ (onQuery_unknown (by rw [arrived_job]; exact unknown)))
  case silent =>
    have fits : DecHdr.Fits { decHdr s 4 with haltReason := 3 } := ⟨(by decide : 4 < 16), execution, (by decide : 0 < 8),
      (by decide : 3 < 16), (by decide : 0 < 2 ^ 15)⟩
    obtain ⟨t, issues, halted, job, kind, reason, last, admitted, stopped, batch, ended, -⟩ :=
      issue_halts rfl fits (s := raise 0x4030 [(silentRanks s).length, (silentRanks s).headD 0] s) loaded whole
    exact ⟨t, (exec_verdictTimeout_silent manager gathers (jobLoaded_of_loaded loaded) silent).trans (congrArg _ issues), halted, job, kind,
      reason, last, admitted, stopped, batch, ended⟩

end Sys2Proof.Machine
end

section
/-! What emission leaves (family 06): the parameters and leaves that go out after a decision, the proposals for the next batch and the end
of P change none of the batch, its execution, the numeric state that waits, the job, the shards and the held frames (R181, R204, R228). -/

namespace Sys2Proof.Machine

/-- Where a decided batch stands: batch, step index and execution, the mode and numeric state of the next one, the job, the integrity block,
the shards, the held frames, accumulator storage, spools and module flash. -/
def State.turn (s : State) :=
  (s.stp.batch, s.stp.stepIndex, s.stp.exec, s.stp.running, s.stp.desc, s.stp.nextSettled, s.num.next, s.job, s.ply, s.reel.shards,
    s.rov.held, s.acc, s.spool, s.flash)

theorem turn_of_sent {s t : State} (quiet : t.quiet = s.quiet) (held : t.rov.held = s.rov.held) : t.turn = s.turn := by
  obtain ⟨rov, tel, rfl⟩ := State.sent_of quiet
  have held' : rov.held = s.rov.held := held
  simp only [State.turn, held']

theorem TellsOnly.turn {s t : State} (h : TellsOnly s t) : t.turn = s.turn := by
  obtain ⟨_, rfl⟩ := h
  rfl

section
variable (s : State)

theorem State.onReel_turn {f : ReelBlk → ReelBlk} (h : (f s.reel).shards = s.reel.shards) : (s.onReel f).turn = s.turn := by
  simp only [State.turn, State.onReel, h]

@[simp] theorem State.onHank_turn (tag : Nat) (f : HankRt → HankRt) : (s.onHank tag f).turn = s.turn := rfl
@[simp] theorem State.onLowRank_turn (layer : Nat) (f : LowRankRt → LowRankRt) : (s.onLowRank layer f).turn = s.turn := rfl
@[simp] theorem State.putPlaces_turn (ps : List (Nat × Nat)) (bs : List Byte) : (s.putPlaces ps bs).turn = s.turn := rfl
@[simp] theorem batchKhz_turn (scaled tick : Nat) : (batchKhz scaled tick s).turn = s.turn := rfl
@[simp] theorem awaitParams_turn : (awaitParams s).turn = s.turn := rfl
@[simp] theorem agreeScale_turn (tag : Nat) (rho : Int) : (agreeScale tag rho s).turn = s.turn := rfl

@[simp] theorem foldl_turn {α : Type} (f : State → α → State) (h : ∀ s x, (f s x).turn = s.turn) (l : List α) :
    (l.foldl f s).turn = s.turn := by
  induction l generalizing s with
  | nil => rfl
  | cons x xs ih => rw [List.foldl_cons, ih, h]

@[simp] theorem sendReel_turn (marker : BitVec 4) (role par dest : Nat) (h : RHdr) (body : List Word) :
    (sendReel marker role par dest h body s).turn = s.turn :=
  turn_of_sent (sendOn_quiet _ _ s) (sendOn_held s _ _)

@[simp] theorem distribute_turn (marker : BitVec 4) (owner : Nat) (h : RHdr) (body : List Word) :
    (distribute marker owner h body s).turn = s.turn :=
  foldl_turn _ _ (fun t _ => sendReel_turn t _ _ _ _ _ _) _

-- Parameters and leaves (R204, R250, R452).

@[simp] theorem placeSegment_turn (p : Hank) (copy fmt tile seg : Nat) (bytes : List Byte) :
    (placeSegment p copy fmt tile seg bytes s).turn = s.turn := by
  unfold placeSegment
  (repeat' split) <;> simp

@[simp] theorem emitAll_turn (p : Hank) (es : List Emitted) : (emitAll p es s).turn = s.turn := by simp [emitAll]

@[simp] theorem noteUpdateOvf_turn (tag n : Nat) : (noteUpdateOvf tag n s).turn = s.turn := by
  unfold noteUpdateOvf
  split
  · rfl
  · exact (raiseIf_tellsOnly ..).turn.trans (count_tellsOnly 48 kUpdateOvf n s).turn

@[simp] theorem emitHank_turn (p : Hank) : (emitHank p s).turn = s.turn := by
  unfold emitHank
  split
  · split <;> simp
  · split
    · exact (noteUpdateOvf_turn ..).trans (emitAll_turn s p _)
    · rfl

@[simp] theorem formPairs_turn (n : Nat) : (formPairs n s).turn = s.turn := by
  induction n generalizing s with
  | zero => rfl
  | succ n ih =>
    unfold formPairs
    dsimp only
    split
    · exact (ih _).trans rfl
    · rfl

@[simp] theorem sendLeaf_turn (tag : Nat) (leaf : List Byte) : (sendLeaf tag leaf s).turn = s.turn := by
  unfold sendLeaf holdLeaf
  exact (formPairs_turn ..).trans (distribute_turn s _ _ _ _)

@[simp] theorem publish_turn : (publish s).turn = s.turn := by
  refine foldl_turn s _ (fun t p => ?_) _
  dsimp only
  split
  · simp
  · split <;> simp

@[simp] theorem reformat_turn (ls : List Nat) : (reformat ls s).turn = s.turn :=
  (foldl_turn _ _ (fun t p => emitHank_turn t p) _).trans (State.onReel_turn s rfl)

-- Proposals, the end of P and the completion of the STEP (R181, R228, R364).

@[simp] theorem addProposal_turn (tag source : Nat) (rho : Int) : (addProposal tag source rho s).turn = s.turn := by
  unfold addProposal tryAgree
  dsimp only
  (repeat' split) <;> simp

@[simp] theorem propose_turn (ps : List (Nat × Int)) : (propose ps s).turn = s.turn :=
  foldl_turn s _ (fun t _ => addProposal_turn t _ _ _) ps

@[simp] theorem noteP_turn : (noteP s).turn = s.turn := by
  unfold noteP
  dsimp only
  split
  · generalize hv : s.onStp _ = v
    have ends : v.turn = s.turn := by rw [← hv]; rfl
    rw [batchKhz_turn]
    exact (((countEvt_tellsOnly 0x948 v).trans (raise_tellsOnly ..)).ite (.refl v)).turn.trans ends
  · rfl

@[simp] theorem completeStep_turn (status batch : Nat) : (completeStep status batch s).turn = s.turn := by
  obtain ⟨tel, weft, completes⟩ := completeStep_rest status batch s
  rw [completes]
  rfl

end

end Sys2Proof.Machine
end

section
/-! What a device does with a decision (family 06): the numeric state comes, the batch closes or runs again, and the shards exchange their
buffers or keep them (R202, R204, R206, R338, R394). -/

namespace Sys2Proof.Machine

-- Until the batch closes.

/-- What the decision of a batch is carried out on: its index, the integrity block, the shards, the held frames, accumulator storage, spools
and module flash. -/
def State.undecided (s : State) := (s.stp.batch, s.ply, s.reel.shards, s.rov.held, s.acc, s.spool, s.flash)

theorem TellsOnly.undecided {s t : State} (h : TellsOnly s t) : t.undecided = s.undecided := by
  obtain ⟨_, rfl⟩ := h
  rfl

section
variable (s : State)

theorem reportRatios_undecided (step : Nat) : (reportRatios step s).undecided = s.undecided := by
  unfold reportRatios
  dsimp only
  generalize ratioLayers s = layers
  generalize sortedSets s = sets
  induction layers generalizing s with
  | nil => rfl
  | cons l ls ih => exact (ih _).trans (raiseIf_tellsOnly ..).undecided

theorem modeEvents_tellsOnly (old new : LayerNum) (l : Nat) : TellsOnly s (modeEvents old new l s) :=
  (raise_tellsOnly ..).ite ((raise_tellsOnly ..).ite (.refl s))

/-- The numeric state of a decision waits for the next batch (R168 to R171). -/
theorem bringNumeric_rest (skip : Bool) (n : NumNext) : ∃ tel, bringNumeric skip n s =
    { s with tel := tel, num := { s.num with next := some n, lastSkipped := skip, lastCounts := s.num.counts } } := by
  unfold bringNumeric
  dsimp only
  generalize hs1 : (if skip = true then _ else _) = s1
  have scale : TellsOnly s s1 := by
    rw [← hs1]
    exact (((countEvt_tellsOnly 0x850 s).trans (raise_tellsOnly ..)).trans (raiseIf_tellsOnly ..)).ite
      ((raise_tellsOnly ..).ite (raiseIf_tellsOnly ..))
  generalize hs2 : (if ((n.modes.filter _).length == 0) = true then s1 else _) = s2
  have denied : TellsOnly s1 s2 := by
    rw [← hs2]
    exact (TellsOnly.refl s1).ite ((countEvt_tellsOnly 0x858 s1).trans (raiseAt_tellsOnly ..))
  obtain ⟨tel, told⟩ := (scale.trans denied).trans (TellsOnly.foldl (fun t _ => modeEvents_tellsOnly t ..) _ s2)
  rw [told]
  exact ⟨tel, rfl⟩

theorem noteOutcome_undecided (outcome : Nat) : (noteOutcome outcome s).undecided = s.undecided := by
  unfold noteOutcome
  dsimp only
  split <;> rfl

theorem noteOutcome_num (outcome : Nat) : (noteOutcome outcome s).num = s.num := by
  unfold noteOutcome
  dsimp only
  split <;> rfl

-- The batch closes (R178, R206).

theorem keepLost_rest : ∃ fault cause, keepLost s = { s with stp := { s.stp with fault := fault, faultCause := cause } } := by
  unfold keepLost
  split
  · exact ⟨_, _, rfl⟩
  · exact ⟨_, _, rfl⟩

theorem startCarding_quarantineHalt (us : List CardUnit) (y : PlyBlk) : (startCarding us y).quarantineHalt = y.quarantineHalt := by
  unfold startCarding
  split <;> rfl

end

/-- The step controller once the batch is closed (R178). -/
def StpBlk.closed (d : DecHdr) (b : StpBlk) : StpBlk :=
  { b.idleAgain with
    batch := (b.batch + 1) % 2 ^ 48, stepIndex := d.step, exec := 0, desc := none, begun := false, aged := [], attn := [] }


/-- What belonged to the batch in cores, bobbins and memories is gone; a loss of committed state stays a fault. -/
theorem dropBatch_rest (s : State) : ∃ cores bob res skn fault cause, keepLost (closeBobbin (dropScratch (clearStarved s))) =
    { s with
      cores := cores, bob := bob, res := res, skn := skn
      stp := { s.stp with aged := [], attn := [], fault := fault, faultCause := cause }
      reel := { s.reel with kv := [] } } := by
  obtain ⟨fault, cause, lost⟩ := keepLost_rest (closeBobbin (dropScratch (clearStarved s)))
  rw [lost]
  exact ⟨_, _, _, _, fault, cause, rfl⟩

theorem closeBatch_rest (d : DecHdr) (s : State) : ∃ cores bob res ply skn hanks lowRank fault cause, closeBatch d s =
    { s with
      cores := cores, bob := bob, res := res, ply := ply, skn := skn
      stp := { s.stp.closed d with fault := fault, faultCause := cause }
      reel := { s.reel with hanks := hanks, lowRank := lowRank, kv := [] } } ∧ ply.quarantineHalt = s.ply.quarantineHalt := by
  obtain ⟨hanks, lowRank, renews⟩ := renewHanks_rest false (s.onStp fun b =>
    { b.idleAgain with batch := (b.batch + 1) % 2 ^ 48, stepIndex := d.step, exec := 0, desc := none, begun := false })
  unfold closeBatch
  dsimp only
  rw [renews]
  generalize hw : State.onPly _ _ = w
  obtain ⟨cores, bob, res, skn, fault, cause, drops⟩ := dropBatch_rest w
  rw [drops, ← hw]
  exact ⟨cores, bob, res, _, skn, hanks, lowRank, fault, cause, rfl, startCarding_quarantineHalt s.ply.cardLater s.ply⟩
/-- `t` stands after the batch of `s`: decision `d` closed it and brought the numeric state `n`. -/
structure Closes (d : DecHdr) (n : NumNext) (s t : State) : Prop where
  batch : t.stp.batch = (s.stp.batch + 1) % 2 ^ 48
  stepIndex : t.stp.stepIndex = d.step
  exec : t.stp.exec = 0
  running : t.stp.running = false
  desc : t.stp.desc = none
  nextSettled : t.stp.nextSettled = d.nextSettled
  next : t.num.next = some n
  lastKind : t.job.lastKind = d.kind
  quarantineHalt : t.ply.quarantineHalt = s.ply.quarantineHalt
  held : t.rov.held = s.rov.held
  acc : t.acc = s.acc
  spool : t.spool = s.spool
  flash : t.flash = s.flash

section
variable {d : DecHdr} {n : NumNext} {s t : State}

/-- What changes no more than the shards, of what a decided batch stands on, leaves it closed. -/
theorem Closes.of_turn {u : State} (h : Closes d n s t) (stays : u.turn = t.turn) : Closes d n s u := by
  simp only [State.turn, Prod.mk.injEq] at stays
  obtain ⟨batch, stepIndex, exec, running, desc, nextSettled, next, job, ply, -, held, acc, spool, flash⟩ := stays
  exact ⟨batch.trans h.batch, stepIndex.trans h.stepIndex, exec.trans h.exec, running.trans h.running, desc.trans h.desc,
    nextSettled.trans h.nextSettled, next.trans h.next, (congrArg JobBlk.lastKind job).trans h.lastKind,
    (congrArg PlyBlk.quarantineHalt ply).trans h.quarantineHalt, held.trans h.held, acc.trans h.acc, spool.trans h.spool, flash.trans h.flash⟩

theorem closeBatch_closes (b : Nat) (stays : t.undecided = s.undecided) (next : t.num.next = some n) :
    Closes d n s (noteDecision d b (closeBatch d (nameMode d t))) ∧
      (noteDecision d b (closeBatch d (nameMode d t))).reel.shards = s.reel.shards := by
  simp only [State.undecided, Prod.mk.injEq] at stays
  obtain ⟨batch, ply, shards, held, acc, spool, flash⟩ := stays
  obtain ⟨_, _, _, _, _, _, _, _, _, closes, quarantine⟩ := closeBatch_rest d (nameMode d t)
  rw [closes]
  exact ⟨⟨congrArg (fun b => (b + 1) % 2 ^ 48) batch, rfl, rfl, rfl, rfl, rfl, next, rfl,
    quarantine.trans (congrArg PlyBlk.quarantineHalt ply), held, acc, spool, flash⟩, shards⟩

end

-- Shards are committed (R204, R288).

/-- A shard whose buffers were exchanged where it had a shadow copy. -/
def Shard.committed (x : Shard) : Shard :=
  if x.shadowReady then { x with leaf := x.shadowLeaf, shadowReady := false, abandoned := false, shadowLeaf := [] } else x

@[simp] theorem Shard.committed_tag (x : Shard) : x.committed.tag = x.tag := by
  unfold Shard.committed
  split <;> rfl

theorem Shard.committed_leaf (x : Shard) : x.committed.leaf = if x.shadowReady then x.shadowLeaf else x.leaf := by
  unfold Shard.committed
  split <;> rfl

@[simp] theorem Shard.committed_twice (x : Shard) : x.committed.committed = x.committed := by
  unfold Shard.committed
  by_cases h : x.shadowReady = true <;> simp [h]

theorem flipSel_rest (tag : Nat) (s : State) : ∃ skein skn, flipSel tag s = { s with skein := skein, skn := skn } := by
  unfold flipSel
  split
  · exact ⟨_, _, rfl⟩
  · exact ⟨_, _, rfl⟩

theorem commitShard_rest (tag : Nat) (s : State) : ∃ skein skn shards, commitShard tag s =
    { s with skein := skein, skn := skn, reel := { s.reel with shards := shards } } := by
  unfold commitShard
  split
  · split
    · obtain ⟨skein, skn, flips⟩ := flipSel_rest tag s
      rw [flips]
      exact ⟨skein, skn, _, rfl⟩
    · exact ⟨_, _, _, rfl⟩
  · exact ⟨_, _, _, rfl⟩

theorem updWhere_congr {α : Type} {p : α → Bool} {f g : α → α} {l : List α} (h : ∀ x ∈ l, p x = true → f x = g x) :
    updWhere p f l = updWhere p g l := by
  refine List.map_congr_left fun x hx => ?_
  split
  next hp => exact h x hx hp
  next => rfl

theorem updWhere_id {α : Type} {p : α → Bool} {f : α → α} {l : List α} (h : ∀ x ∈ l, p x = true → f x = x) : updWhere p f l = l := by
  refine (List.map_congr_left fun x hx => ?_).trans (List.map_id l)
  split
  next hp => exact h x hx hp
  next => rfl

/-- Of two shards with one tag there is one. -/
theorem shard_of_tag {s : State} (single : (s.reel.shards.map (·.tag)).Nodup) {x y : Shard} (hx : x ∈ s.reel.shards) (hy : y ∈ s.reel.shards)
    (h : x.tag = y.tag) : x = y := List.inj_on_of_nodup_map single hx hy h

/-- With a tag for each shard, one commit exchanges the buffers of the shard of that tag. -/
theorem commitShard_shards {s : State} (single : (s.reel.shards.map (·.tag)).Nodup) (tag : Nat) :
    (commitShard tag s).reel.shards = updWhere (fun x => x.tag == tag) Shard.committed s.reel.shards := by
  unfold commitShard
  split
  next x found =>
    have here : x ∈ s.reel.shards := List.mem_of_find?_eq_some found
    have named : x.tag = tag := by simpa using List.find?_some found
    have only : ∀ y ∈ s.reel.shards, (y.tag == tag) = true → y = x :=
      fun y hy ht => shard_of_tag single hy here ((by simpa using ht : y.tag = tag).trans named.symm)
    split
    next ready =>
      obtain ⟨skein, skn, flips⟩ := flipSel_rest tag s
      rw [flips]
      exact updWhere_congr fun y hy ht => by rw [only y hy ht, Shard.committed, if_pos ready]
    next unready => exact (updWhere_id fun y hy ht => by rw [only y hy ht, Shard.committed, if_neg unready]).symm
  next missing =>
    refine (updWhere_id fun y hy ht => ?_).symm
    exact absurd ht (by simpa using List.find?_eq_none.1 missing y hy)

theorem updWhere_committed_tags (tag : Nat) (l : List Shard) :
    (updWhere (fun x => x.tag == tag) Shard.committed l).map (·.tag) = l.map (·.tag) := by
  unfold updWhere
  rw [List.map_map]
  refine List.map_congr_left fun x _ => ?_
  show (if (x.tag == tag) = true then x.committed else x).tag = x.tag
  split <;> simp

/-- Commits of some tags, one after another, exchange the buffers of the shards of these tags. -/
theorem foldl_commitShard_shards (tags : List Shard) {s : State} (single : (s.reel.shards.map (·.tag)).Nodup) :
    (tags.foldl (fun t x => commitShard x.tag t) s).reel.shards =
      s.reel.shards.map fun y => if y.tag ∈ tags.map (·.tag) then y.committed else y := by
  induction tags generalizing s with
  | nil => simp
  | cons x xs ih =>
    have commits := commitShard_shards single x.tag
    rw [List.foldl_cons, ih (by rw [commits, updWhere_committed_tags]; exact single), commits, updWhere, List.map_map]
    refine List.map_congr_left fun y _ => ?_
    by_cases here : y.tag = x.tag
    · simp [here]
    · simp [here]

section
variable {s : State}

theorem foldl_commitShard_rest (l : List Shard) (s : State) : ∃ skein skn shards, l.foldl (fun t x => commitShard x.tag t) s =
    { s with skein := skein, skn := skn, reel := { s.reel with shards := shards } } := by
  induction l generalizing s with
  | nil => exact ⟨_, _, _, rfl⟩
  | cons x xs ih =>
    obtain ⟨skein, skn, shards, commits⟩ := commitShard_rest x.tag s
    obtain ⟨skein', skn', shards', rest⟩ := ih (commitShard x.tag s)
    rw [List.foldl_cons, rest, commits]
    exact ⟨skein', skn', shards', rfl⟩

/-- The commit of every shard leaves the batch as it was closed. -/
theorem commitShards_closes {d : DecHdr} {n : NumNext} {t : State} (h : Closes d n t s) : Closes d n t (commitShards s) := by
  obtain ⟨skein, skn, shards, commits⟩ := foldl_commitShard_rest s.reel.shards s
  unfold commitShards
  rw [commits]
  exact ⟨h.batch, h.stepIndex, h.exec, h.running, h.desc, h.nextSettled, h.next, h.lastKind, h.quarantineHalt, h.held, h.acc, h.spool, h.flash⟩

theorem commitShards_shards (single : (s.reel.shards.map (·.tag)).Nodup) :
    (commitShards s).reel.shards = s.reel.shards.map Shard.committed := by
  refine (foldl_commitShard_shards s.reel.shards single).trans (List.map_congr_left fun x hx => ?_)
  exact if_pos (List.mem_map_of_mem hx)

end

-- The decisions (R202, R204, R394).

section
variable (d : DecHdr) (n : NumNext) (s : State)

/-- A commit closes the batch and exchanges the buffers of the shards. -/
theorem actCommit_closes : ∃ u, actCommit d n s = quarantineAgain (releaseHeld u) ∧ Closes d n s u ∧
    ((s.reel.shards.map (·.tag)).Nodup → u.reel.shards = s.reel.shards.map Shard.committed) := by
  have reports : (if isManager s then reportRatios d.step s else s).undecided = s.undecided := by
    split
    · exact reportRatios_undecided s d.step
    · rfl
  unfold actCommit
  dsimp only
  generalize (if isManager s then reportRatios d.step s else s) = s0 at reports
  obtain ⟨tel, brings⟩ := bringNumeric_rest s0 false n
  rw [brings]
  generalize hv : { s0 with tel := tel, num := { s0.num with next := some n, lastSkipped := false, lastCounts := s0.num.counts } } = v
  have stays : v.undecided = s.undecided := by rw [← hv]; exact reports
  have next : v.num.next = some n := by rw [← hv]
  generalize (if (s.stp.exec == 0) = true then 1 else 3) = outcome
  obtain ⟨closes, shards⟩ := closeBatch_closes (d := d) (n := n) (t := beginP (noteOutcome outcome v)) s.stp.batch
    ((noteOutcome_undecided v outcome).trans stays) ((congrArg NumBlk.next (noteOutcome_num v outcome)).trans next)
  refine ⟨_, rfl, ?_⟩
  generalize noteDecision d s.stp.batch (closeBatch d (nameMode d (beginP (noteOutcome outcome v)))) = w at closes shards
  have turns : ∀ ps : List (Nat × Int), (completeStep 0 s.stp.batch (noteP (propose ps (publish (awaitParams ((commitShards w).onReel fun r =>
      { r with hanks := r.hanks.map fun h => { h with agreed := false, st := .awaitScale } })))))).turn = (commitShards w).turn := by
    intro ps
    simp only [completeStep_turn, noteP_turn, propose_turn, publish_turn, awaitParams_turn]
    exact State.onReel_turn _ rfl
  refine ⟨(commitShards_closes closes).of_turn (turns _), fun single => ?_⟩
  have same := turns (proposals s)
  simp only [State.turn, Prod.mk.injEq] at same
  obtain ⟨-, -, -, -, -, -, -, -, -, same, -⟩ := same
  rw [same, commitShards_shards (by rw [shards]; exact single), shards]

/-- A skip closes the batch, and every shard loses its shadow copy. -/
theorem actSkip_closes : ∃ u, actSkip d n s = quarantineAgain (releaseHeld u) ∧ Closes d n s u ∧
    u.reel.shards = s.reel.shards.map Shard.unshadowed := by
  unfold actSkip
  dsimp only
  obtain ⟨tel, brings⟩ := bringNumeric_rest s true n
  rw [brings]
  generalize hv : { s with tel := tel, num := { s.num with next := some n, lastSkipped := true, lastCounts := s.num.counts } } = v
  have stays : v.undecided = s.undecided := by rw [← hv]; rfl
  have next : v.num.next = some n := by rw [← hv]
  generalize (if (s.stp.exec == 0) = true then 2 else 4) = outcome
  have noted := (noteOutcome_undecided v outcome).trans stays
  have waits := (congrArg NumBlk.next (noteOutcome_num v outcome)).trans next
  generalize noteOutcome outcome v = v' at noted waits
  generalize hx : batchKhz s.stp.firstFScaled s.stp.firstFTick _ = x
  obtain ⟨closes, shards⟩ := closeBatch_closes (d := d) (n := n) (t := x) (s := s) s.stp.batch
    (by rw [← hx]; exact noted) (by rw [← hx]; exact waits)
  refine ⟨_, rfl, ?_⟩
  generalize noteDecision d s.stp.batch (closeBatch d (nameMode d x)) = w at closes shards
  have dropped : Closes d n s (dropShadows w) :=
    ⟨closes.batch, closes.stepIndex, closes.exec, closes.running, closes.desc, closes.nextSettled, closes.next, closes.lastKind,
      closes.quarantineHalt, closes.held, closes.acc, closes.spool, closes.flash⟩
  have turns : ∀ ls, (completeStep 0 s.stp.batch (reformat ls (dropShadows w))).turn = (dropShadows w).turn := fun ls => by simp
  refine ⟨dropped.of_turn (turns _), ?_⟩
  have same := turns (reformatted s n)
  simp only [State.turn, Prod.mk.injEq] at same
  obtain ⟨-, -, -, -, -, -, -, -, -, same, -⟩ := same
  rw [same, ← shards]
  rfl

/-- What belonged to the execution is gone before the batch runs again. -/
theorem rerun_rest : ∃ cores bob res hanks lowRank, renewHanks true (dropScratch (dropShadows s)) =
    { s with
      cores := cores, bob := bob, res := res, stp := { s.stp with aged := [], attn := [] }
      reel := { s.reel with hanks := hanks, lowRank := lowRank, kv := [], shards := s.reel.shards.map Shard.unshadowed } } := by
  obtain ⟨hanks, lowRank, renews⟩ := renewHanks_rest true (dropScratch (dropShadows s))
  rw [renews]
  exact ⟨_, _, _, hanks, lowRank, rfl⟩

/-- A replay order runs the batch again. -/
theorem actReplay_runs (mask : BitVec 576) : ∃ u, actReplay d mask s = quarantineAgain (releaseHeld u) ∧ u.stp.batch = s.stp.batch ∧
    u.stp.exec = d.exec ∧ u.stp.stepIndex = s.stp.stepIndex ∧ u.stp.running = false ∧ u.stp.desc = s.stp.desc ∧
    u.stp.nextSettled = d.nextSettled ∧ u.job.lastKind = d.kind ∧ u.ply.mask = mask ∧ u.ply.quarantineHalt = s.ply.quarantineHalt ∧
    u.reel.shards = s.reel.shards.map Shard.unshadowed ∧ u.rov.held = s.rov.held ∧ u.acc = s.acc ∧ u.spool = s.spool ∧ u.skein = s.skein ∧
    u.flash = s.flash ∧ u.trd = s.trd := by
  unfold actReplay
  dsimp only
  generalize hx : noteDecision d s.stp.batch _ = x
  obtain ⟨_, _, _, _, _, reruns⟩ := rerun_rest x
  rw [reruns]
  generalize hv : State.onPly _ _ = v
  obtain ⟨fault, cause, keeps⟩ := keepLost_rest v
  have quarantine : v.ply.quarantineHalt = x.ply.quarantineHalt := by
    rw [← hv]; exact startCarding_quarantineHalt x.ply.cardReplay x.ply
  refine ⟨keepLost v, rfl, ?_⟩
  rw [keeps]
  dsimp only
  rw [quarantine, ← hv]
  dsimp only [State.onPly]
  rw [← hx]
  simp [noteDecision, nameMode, State.onStp, State.onJob, StpBlk.idleAgain]

end

-- A worker receives its decision (R338, R339).

/-- A draw of a worker's mode (R338) moves the counter of free values only. -/
theorem workerMode_rest (old : LayerNum) (m : NMode) (s : State) : ∃ k, (workerMode old m s).2 = { s with freeCtr := k } := by
  unfold workerMode
  dsimp only
  split <;> exact ⟨_, rfl⟩

theorem decisionNumeric_rest (d : DecHdr) (body : List Word) (s : State) : ∃ k, (decisionNumeric d body s).2 = { s with freeCtr := k } := by
  unfold decisionNumeric
  dsimp only
  generalize s.num.layers.zipIdx = layers
  suffices ∀ a : List LayerNum × State, ∃ k, (layers.foldl (fun (acc : List LayerNum × State) p =>
      let q := workerMode p.1 (mapMode body p.2) acc.2
      (acc.1 ++ [q.1], q.2)) a).2 = { a.2 with freeCtr := k } from this ([], s)
  induction layers with
  | nil => exact fun a => ⟨a.2.freeCtr, rfl⟩
  | cons p ps ih =>
    intro a
    obtain ⟨k, draws⟩ := workerMode_rest p.1 (mapMode body p.2) a.2
    obtain ⟨k', rest⟩ := ih (a.1 ++ [(workerMode p.1 (mapMode body p.2) a.2).1], (workerMode p.1 (mapMode body p.2) a.2).2)
    rw [List.foldl_cons, rest, draws]
    exact ⟨k', rfl⟩

theorem carryOut_replay {num : Option NumNext} {batch : Nat} {ws : List Word} {s : State} (h : (readDec ws).kind = 3) :
    carryOut num batch ws s = actReplay (readDec ws) (BitVec.ofNat 576 (leNat (wordsBytes ((ws.drop 8).take 18)))) s := by
  simp only [carryOut, h]

/-- What a decision finds on a worker: the step block, the shards, the memories, module flash and the treadle. -/
def State.work (s : State) := (s.stp, s.reel, s.acc, s.spool, s.skein, s.flash, s.trd)

/-- A commit or a skip that a worker carries out brings E and the clean-step count of the decision. -/
theorem carryOut_brings (batch : Nat) (ws : List Word) (s : State) : ∃ v n, v.work = s.work ∧ n.e = (readDec ws).e ∧
    n.clean = (readDec ws).clean ∧ ((readDec ws).kind = 1 → carryOut none batch ws s = actCommit (readDec ws) n v) ∧
    ((readDec ws).kind = 2 → carryOut none batch ws s = actSkip (readDec ws) n v) := by
  obtain ⟨k, draws⟩ := decisionNumeric_rest (readDec ws) (ws.drop 8) s
  refine ⟨(decisionNumeric (readDec ws) (ws.drop 8) s).2, (decisionNumeric (readDec ws) (ws.drop 8) s).1, ?_, rfl, rfl, fun h => ?_,
    fun h => ?_⟩
  · rw [draws]; rfl
  · simp only [carryOut, h]
  · simp only [carryOut, h]

section
variable {rx : Rx} {s : State} {k : Nat} (hd : decisionOf k rx = true) (hk : k ≠ 5) (hp : presentExec s rx.frame = true)
  (hn : s.job.acted.find? (fun y => y.batch == rx.frame.batch.toNat && y.exec == rx.frame.exec.toNat) = none)
include hd hk hp hn

/-- The first decision other than START for the present execution is carried out on the work as it stands. -/
theorem onDecision_first : ∃ v, v.work = s.work ∧
    onDecision rx (arrived rx s) = carryOut none rx.frame.batch.toNat rx.frame.payload v := by
  have present : presentExec (arrived rx s) rx.frame = true := (presentExec_arrived rx s rx.frame).trans hp
  refine ⟨(arrived rx s).onJob fun j =>
    { j with acted := (⟨rx.frame.batch.toNat, rx.frame.exec.toNat, rx.frame.payload⟩ :: j.acted).take 4 }, ?_, ?_⟩
  · obtain ⟨rov, tel, arrives⟩ := arrived_cases rx s
    rw [arrives]
    rfl
  · rw [← arrived_job rx s] at hn
    simp only [onDecision, decisionOf_kind hd, beq_eq_false_iff_ne.2 hk, Bool.false_eq_true, if_false, hn, present, if_true]

/-- The first COMMIT or SKIP is carried out with E and the clean-step count that it names. -/
theorem onDecision_brings : ∃ v n, v.work = s.work ∧ n.e = (readDec rx.frame.payload).e ∧ n.clean = (readDec rx.frame.payload).clean ∧
    (k = 1 → onDecision rx (arrived rx s) = actCommit (readDec rx.frame.payload) n v) ∧
    (k = 2 → onDecision rx (arrived rx s) = actSkip (readDec rx.frame.payload) n v) := by
  obtain ⟨v, work, carries⟩ := onDecision_first hd hk hp hn
  obtain ⟨v', n, work', e, clean, commits, skips⟩ := carryOut_brings rx.frame.batch.toNat rx.frame.payload v
  exact ⟨v', n, work'.trans work, e, clean, fun h => carries.trans (commits ((decisionOf_kind hd).trans h)),
    fun h => carries.trans (skips ((decisionOf_kind hd).trans h))⟩

end

theorem commitFrame_of_decision {rx : Rx} (hd : decisionOf 1 rx = true) : commitFrame rx = true := by
  simp only [decisionOf, Bool.and_eq_true, beq_iff_eq] at hd
  obtain ⟨frame, kind⟩ := hd
  show (frameOf 0x27 rx && _) = true
  rw [frame, kind]
  rfl

theorem map_committed (l : List Shard) : (l.map Shard.committed).map (fun x => (x.tag, x.leaf)) =
    l.map (fun x => (x.tag, if x.shadowReady then x.shadowLeaf else x.leaf)) := by
  simp [Function.comp_def, Shard.committed_leaf]

/-- Settles O37: COMMIT and SKIP close the batch, REPLAY runs it again; only COMMIT exchanges the buffers of the shards. -/
theorem decisionRows : Obligations.DecisionRows := by
  unfold Obligations.DecisionRows
  intro rx s ha hp hn single
  refine ⟨fun hd => ?commit, fun hd => ?skip, fun hd => ?replay⟩
  case commit =>
    obtain ⟨v, n, work, e, clean, commits, -⟩ := onDecision_brings hd (by decide) hp hn
    obtain ⟨u, releases, closes, shards⟩ := actCommit_closes (readDec rx.frame.payload) n v
    have taken : exec (.commit rx) s = .next (onDecision rx (arrived rx s)) := checked_receive (commitFrame_of_decision hd) ha
    simp only [State.work, Prod.mk.injEq] at work
    obtain ⟨stp, reel, acc, spool, -, flash, -⟩ := work
    rw [← stp, ← reel, ← acc, ← spool, ← flash]
    refine ⟨u, n, taken.trans (congrArg _ ((commits rfl).trans releases)), closes.batch, closes.stepIndex, closes.exec, closes.running,
      closes.desc, closes.nextSettled, closes.next, e, clean, ?_, closes.acc, closes.spool, closes.flash⟩
    rw [shards (by rw [reel]; exact single)]
    exact map_committed _
  case skip =>
    obtain ⟨v, n, work, e, clean, -, skips⟩ := onDecision_brings hd (by decide) hp hn
    obtain ⟨u, releases, closes, shards⟩ := actSkip_closes (readDec rx.frame.payload) n v
    have taken : exec (.skip rx) s = .next (onDecision rx (arrived rx s)) := checked_receive hd ha
    simp only [State.work, Prod.mk.injEq] at work
    obtain ⟨stp, reel, acc, spool, -, flash, -⟩ := work
    rw [← stp, ← reel, ← acc, ← spool, ← flash]
    obtain ⟨leaves, dropped⟩ := unshadowed_shards v.reel.shards
    exact ⟨u, n, taken.trans (congrArg _ ((skips rfl).trans releases)), closes.batch, closes.stepIndex, closes.exec, closes.running,
      closes.desc, closes.nextSettled, closes.next, e, clean, shards ▸ leaves, shards ▸ dropped, closes.acc, closes.spool, closes.flash⟩
  case replay =>
    obtain ⟨v, work, carries⟩ := onDecision_first hd (by decide) hp hn
    obtain ⟨u, releases, batch, execution, step, running, desc, settled, -, mask, -, shards, -, acc, spool, skein, flash, trd⟩ :=
      actReplay_runs (readDec rx.frame.payload) v (BitVec.ofNat 576 (leNat (wordsBytes ((rx.frame.payload.drop 8).take 18))))
    have taken : exec (.replay rx) s = .next (onDecision rx (arrived rx s)) := checked_receive hd ha
    simp only [State.work, Prod.mk.injEq] at work
    obtain ⟨stp', reel', acc', spool', skein', flash', trd'⟩ := work
    rw [← stp', ← reel', ← acc', ← spool', ← skein', ← flash', ← trd']
    obtain ⟨leaves, dropped⟩ := unshadowed_shards v.reel.shards
    exact ⟨u, taken.trans (congrArg _ (carries.trans ((carryOut_replay (decisionOf_kind hd)).trans releases))), batch, execution, step,
      running, desc, settled, mask, shards ▸ leaves, shards ▸ dropped, acc, spool, skein, flash, trd⟩

end Sys2Proof.Machine
end

section
/-! The manager's verdict (family 06): the first row of R393 that applies to the gathered sets, issued as the manager's decision and carried
out by the manager itself (R202, R203, R337). -/

namespace Sys2Proof.Machine

-- The rows of R393.

section
variable {x : Nat} {sets : List VerdictSet}

theorem decideKind_cause2 (lost : ∃ v ∈ sets, v.cause = 2) : decideKind x sets = (4, 2) :=
  if_pos (by simpa using lost)

section
variable (whole : ∀ v ∈ sets, v.cause ≠ 2)
include whole

theorem decideKind_cause3 (stops : ∃ v ∈ sets, v.cause = 3) : decideKind x sets = (4, 1) :=
  (if_neg (by simpa using whole)).trans (if_pos (by simpa using stops))

section
variable (goes : ∀ v ∈ sets, v.cause ≠ 3)
include goes

theorem decideKind_failed (fails : ∃ v ∈ sets, v.fault = true ∨ v.plyFail = true ∨ v.twoPathFail = true) :
    decideKind x sets = if x < 2 then (3, 0) else (4, 0) :=
  (if_neg (by simpa using whole)).trans <| (if_neg (by simpa using goes)).trans <| if_pos (by simpa [or_assoc] using fails)

section
variable (sound : ∀ v ∈ sets, v.fault = false ∧ v.plyFail = false ∧ v.twoPathFail = false)
include sound

theorem decideKind_sound : decideKind x sets = if sets.any (·.nonfinite) then (2, 0) else (1, 0) :=
  (if_neg (by simpa using whole)).trans <| (if_neg (by simpa using goes)).trans <| if_neg (by simpa [and_assoc] using sound)

theorem decideKind_nonfinite (flagged : ∃ v ∈ sets, v.nonfinite = true) : decideKind x sets = (2, 0) :=
  (decideKind_sound whole goes sound).trans (if_pos (by simpa using flagged))

theorem decideKind_finite (finite : ∀ v ∈ sets, v.nonfinite = false) : decideKind x sets = (1, 0) :=
  (decideKind_sound whole goes sound).trans (if_neg (by simpa using finite))

end
end
end
end

-- The numeric state of a decision (R169).

theorem fallbackNext_length (nm : Numeric) (layers : List Layer) (old : List LayerNum) (counts : List Counts) :
    (fallbackNext nm layers old counts).length = old.length := by simp [fallbackNext]

theorem numericNext_length (s : State) (skip : Bool) : (numericNext s skip).modes.length = s.num.layers.length := by
  unfold numericNext
  split
  · exact fallbackNext_length ..
  · rfl

-- After a decision with no frame held and no stop for a quarantined core (R332, R397).

section
variable {u : State}

theorem releaseHeld_none (held : u.rov.held = []) : releaseHeld u = u := by
  unfold releaseHeld
  rw [held]
  show { u with rov := { u.rov with held := [] } } = u
  rw [← held]

theorem quarantineAgain_none (noStop : u.ply.quarantineHalt = false) : quarantineAgain u = u := if_neg (by rw [noStop]; exact Bool.false_ne_true)

theorem decided_stays (held : u.rov.held = []) (noStop : u.ply.quarantineHalt = false) : quarantineAgain (releaseHeld u) = u := by
  rw [releaseHeld_none held, quarantineAgain_none noStop]

end

theorem requestServed_rest (d : DecHdr) (s : State) : ∃ req, requestServed d s = { s with job := { s.job with settledReq := req } } := by
  unfold requestServed
  split
  · exact ⟨_, rfl⟩
  · exact ⟨_, rfl⟩

section
variable {d : DecHdr} (fits : d.Fits) (body : List Word) {s : State} (held : s.rov.held = []) (noStop : s.ply.quarantineHalt = false)
include fits held noStop

/-- The commit or skip that the manager issues closes the batch on the manager too. -/
theorem issue_closes (n : NumNext) (hk : d.kind = 1 ∨ d.kind = 2) : ∃ t, issue d body (some n) s = t ∧ t.job.lastKind = d.kind ∧
    t.stp.batch = (s.stp.batch + 1) % 2 ^ 48 ∧ t.stp.stepIndex = d.step % 2 ^ 48 ∧ t.ply.quarantineHalt = false := by
  obtain ⟨kind, -, -, step⟩ := readDec_words fits body
  obtain ⟨rov, tel, empty, carries⟩ := issue_carries d body (some n) s
  rw [carries]
  generalize d.words ++ body = ws at kind step
  generalize hv : ({ s with rov := rov, tel := tel, job := issuedJob d ⟨s.stp.batch, s.stp.exec, ws⟩ s } : State) = v
  have held' : v.rov.held = [] := by rw [← hv]; exact empty held
  have noStop' : v.ply.quarantineHalt = false := by rw [← hv]; exact noStop
  have batch : v.stp.batch = s.stp.batch := by rw [← hv]
  obtain ⟨u, decides, closes⟩ : ∃ u, carryOut (some n) s.stp.batch ws v = quarantineAgain (releaseHeld u) ∧ Closes (readDec ws) n v u := by
    rcases hk with commit | skip
    · obtain ⟨u, decides, closes, -⟩ := actCommit_closes (readDec ws) n v
      exact ⟨u, by simp only [carryOut, kind.trans commit]; exact decides, closes⟩
    · obtain ⟨u, decides, closes, -⟩ := actSkip_closes (readDec ws) n v
      exact ⟨u, by simp only [carryOut, kind.trans skip]; exact decides, closes⟩
  obtain ⟨req, serves⟩ := requestServed_rest d u
  refine ⟨_, rfl, ?_⟩
  rw [decides, decided_stays (closes.held.trans held') (closes.quarantineHalt.trans noStop'), serves]
  exact ⟨closes.lastKind.trans kind, closes.batch.trans (by rw [batch]), closes.stepIndex.trans step, closes.quarantineHalt.trans noStop'⟩

/-- The replay order that the manager issues runs the batch again on the manager too. -/
theorem issue_reruns (hk : d.kind = 3) : ∃ t, issue d body none s = t ∧ t.job.lastKind = 3 ∧ t.stp.exec = d.exec ∧
    t.stp.batch = s.stp.batch ∧ t.ply.quarantineHalt = false := by
  obtain ⟨kind, execution, -, -⟩ := readDec_words fits body
  obtain ⟨rov, tel, empty, carries⟩ := issue_carries d body none s
  have served : requestServed d = id := by funext t; simp [requestServed, hk]
  rw [carries, served, id_eq, carryOut_replay (kind.trans hk)]
  generalize d.words ++ body = ws at kind execution
  generalize hv : ({ s with rov := rov, tel := tel, job := issuedJob d ⟨s.stp.batch, s.stp.exec, ws⟩ s } : State) = v
  have held' : v.rov.held = [] := by rw [← hv]; exact empty held
  have noStop' : v.ply.quarantineHalt = false := by rw [← hv]; exact noStop
  have batch : v.stp.batch = s.stp.batch := by rw [← hv]
  obtain ⟨u, decides, sameBatch, runs, -, -, -, -, last, -, quarantine, -, heldAfter, -⟩ :=
    actReplay_runs (readDec ws) v (BitVec.ofNat 576 (leNat (wordsBytes ((ws.drop 8).take 18))))
  refine ⟨_, rfl, ?_⟩
  rw [decides, decided_stays (heldAfter.trans held') (quarantine.trans noStop')]
  exact ⟨last.trans (kind.trans hk), runs.trans execution, sameBatch.trans batch, quarantine.trans noStop'⟩

end

-- The manager decides (R337, R393).

/-- The header of a decision that ends the batch: kind 1 COMMIT or 2 SKIP (R338). -/
def endHdr (s : State) (kind : Nat) : DecHdr :=
  { decHdr s kind with
    nextSettled := s.job.settledReq, reason := b2n s.job.settledReq, mapLayers := (numericNext s (kind == 2)).modes.length
    step := if kind == 1 then (s.stp.stepIndex + 1) % 2 ^ 48 else s.stp.stepIndex
    clean := (numericNext s (kind == 2)).clean, e := (numericNext s (kind == 2)).e }

/-- A LOADED manager with the complete set of every rank. -/
structure Gathered (s : State) : Prop where
  manager : isManager s = true
  sets : s.job.sets ≠ []
  all : silentRanks s = []
  loaded : s.warp.state = .loaded

section
variable {s : State}

theorem tryDecide_of_decideOnce {t : State} (h : decideOnce s = t) (noStop : t.ply.quarantineHalt = false) : tryDecide s = t := by
  unfold tryDecide
  dsimp only
  rw [h, noStop]
  exact if_neg Bool.false_ne_true

variable (g : Gathered s)
include g

/-- Every row of R393 is taken on the sets of all ranks. -/
theorem Gathered.ready : (isManager s && !s.job.sets.isEmpty && (silentRanks s).isEmpty && jobLoaded s) = true := by
  simp [g.manager, g.sets, g.all, jobLoaded_of_loaded g.loaded]

theorem tryDecide_halts {reason : Nat} (hk : decideKind s.stp.exec s.job.sets = (4, reason)) (hx : s.stp.exec ≤ 2) (hr : reason < 16)
    (whole : s.skn.stk.any (·.stateLost) = false) :
    (tryDecide s).job.lastKind = 4 ∧ (tryDecide s).job.lastHalt = reason ∧ (tryDecide s).warp.state = .halted := by
  have fits : DecHdr.Fits { decHdr s 4 with haltReason := reason } :=
    ⟨(by decide : 4 < 16), Nat.lt_of_le_of_lt hx (by decide), (by decide : 0 < 8), hr, (by decide : 0 < 2 ^ 15)⟩
  obtain ⟨tel, tells⟩ := raiseIf_tellsOnly (reason == 0) 0x2112 [s.stp.exec] s
  obtain ⟨t, issues, halted, -, kind, last, -, -, -, -, -, quarantine⟩ := issue_halts rfl fits (s := { s with tel := tel }) g.loaded whole
  have once : decideOnce s = t := by
    simp only [decideOnce, g.ready, hk, if_true]
    rw [tells]
    exact issues
  rw [tryDecide_of_decideOnce once quarantine]
  exact ⟨kind, last, halted⟩

variable (held : s.rov.held = []) (noStop : s.ply.quarantineHalt = false)
include held noStop

theorem tryDecide_reruns (hk : decideKind s.stp.exec s.job.sets = (3, 0)) (hx : s.stp.exec < 2) :
    (tryDecide s).job.lastKind = 3 ∧ (tryDecide s).stp.exec = s.stp.exec + 1 ∧ (tryDecide s).stp.batch = s.stp.batch := by
  have fits : DecHdr.Fits { decHdr s 3 with exec := s.stp.exec + 1, nextSettled := true, reason := 2 } :=
    ⟨(by decide : 3 < 16), (by omega : s.stp.exec + 1 < 4), (by decide : 2 < 8), (by decide : 0 < 16), (by decide : 0 < 2 ^ 15)⟩
  obtain ⟨t, issues, kind, execution, batch, quarantine⟩ := issue_reruns fits fullMask held noStop rfl
  have once : decideOnce s = t := by
    simp only [decideOnce, g.ready, hk, if_true]
    exact issues
  rw [tryDecide_of_decideOnce once quarantine]
  exact ⟨kind, execution, batch⟩

theorem tryDecide_closes {k : Nat} (hk : decideKind s.stp.exec s.job.sets = (k, 0)) (ends : k = 1 ∨ k = 2) (hx : s.stp.exec ≤ 2)
    (hl : s.num.layers.length < 32768) :
    (tryDecide s).job.lastKind = k ∧ (tryDecide s).stp.batch = (s.stp.batch + 1) % 2 ^ 48 ∧
      (tryDecide s).stp.stepIndex = (endHdr s k).step % 2 ^ 48 := by
  have asked : b2n s.job.settledReq < 8 := by unfold b2n; split <;> decide
  have fits : (endHdr s k).Fits := ⟨(by omega : k < 16), Nat.lt_of_le_of_lt hx (by decide), asked, (by decide : 0 < 16),
    (numericNext_length s (k == 2)).trans_lt hl⟩
  obtain ⟨t, issues, kind, batch, step, quarantine⟩ :=
    issue_closes fits (packModes (numericNext s (k == 2)).modes) (s := noteJobCounts s) held noStop (numericNext s (k == 2)) ends
  have once : decideOnce s = t := by
    simp only [decideOnce, g.ready, hk, if_true]
    rcases ends with rfl | rfl <;> exact issues
  rw [tryDecide_of_decideOnce once quarantine]
  exact ⟨kind, batch, step⟩

end

/-- Settles O39: each row of R393 gives its kind and reason, and what the manager issues it carries out. -/
theorem managerDecides : Obligations.ManagerDecides := by
  unfold Obligations.ManagerDecides
  intro s manager sets all loaded hx hl whole held noStop
  have g : Gathered s := ⟨manager, sets, all, loaded⟩
  refine ⟨fun lost => tryDecide_halts g (decideKind_cause2 lost) hx (by decide) whole, fun kept => ⟨fun stops => ?_, fun goes =>
    ⟨fun fails => ⟨fun early => ?_, fun late => ?_⟩, fun sound => ⟨fun flagged => ?_, fun finite => ?_⟩⟩⟩⟩
  · exact tryDecide_halts g (decideKind_cause3 kept stops) hx (by decide) whole
  · exact tryDecide_reruns g held noStop ((decideKind_failed kept goes fails).trans (if_pos early)) early
  · exact tryDecide_halts g ((decideKind_failed kept goes fails).trans (if_neg (by omega))) hx (by decide) whole
  · exact tryDecide_closes g held noStop (decideKind_nonfinite kept goes sound flagged) (.inr rfl) hx hl
  · obtain ⟨kind, batch, step⟩ := tryDecide_closes g held noStop (decideKind_finite kept goes sound finite) (.inl rfl) hx hl
    exact ⟨kind, batch, step.trans (Nat.mod_mod _ _)⟩

end Sys2Proof.Machine
end

section
/-! The bobbin (family 06): a reservation at the end of a stage's frames, and a pop with the prefetch that follows it (R187, R189, R190,
R194). -/

namespace Sys2Proof.Machine

-- What changes one stage's bobbin.

@[simp] theorem BobStage.noteUse_grains (b : BobStage) : b.noteUse.grains = b.grains := rfl

theorem onBobbin_bobbin (stage : Nat) (f : BobStage → BobStage) (keeps : ∀ b, (f b).stage = b.stage) (s : State) :
    (onBobbin stage f s).bobbin stage = (s.bobbin stage).map fun b => (f b).noteUse :=
  find?_updWhere (fun b : BobStage => b.stage == stage) (fun b => (f b).noteUse) (fun b h => (congrArg (· == stage) (keeps b)).trans h) _

-- FRAME_RESERVE (R190).

section
variable {stage mb : Nat} {s : State} {b : BobStage} (here : s.bobbin stage = some b)
include here

theorem reserveFrame_fits (runs : unitsRun s = true) (inBatch : mb < mbCount s) (fresh : ∀ f ∈ b.frames, f.microBatch ≠ mb)
    (room : b.used + frameBytes s stage mb ≤ bobbinSize s stage) : reserveFrame stage mb s =
      onBobbin stage (fun x => { x with frames := x.frames ++ [⟨mb, frameBytes s stage mb, [], false⟩] }) s := by
  have none : b.frames.any (fun f => f.microBatch == mb) = false := by simpa using fresh
  simp [reserveFrame, here, runs, inBatch, none, room]

theorem reserveFrame_full (full : bobbinSize s stage < b.used + frameBytes s stage mb) : reserveFrame stage mb s = s := by
  simp [reserveFrame, here, Nat.not_le.2 full]

end

-- Granules that can be read (R293, R306).

/-- A granule's bytes stand in creel, or where the bobbin class may read. -/
def Readable (s : State) (stage : Nat) (g : Grain) : Prop :=
  ∀ k, g.skein = some k → firstForbidden s 1 false (grainAddr s stage k) 256 = none

/-- With no bad word, a read where the class may reach gives the bytes and notes its granules. -/
theorem skeinTake_whole {cls a n : Nat} {s : State} (free : firstForbidden s cls false a n = none) (whole : s.skn.bad = []) :
    skeinTake cls a n s = (noteReads a (granules a n) s, some (s.skein.readBytes a n)) := by
  have sound : ∀ (ws : List Nat) (t : State), t.skn.bad = [] → (ws.map fun w => (w, Ecc.good)).foldl (decodeWord cls) (t, true) = (t, true) := by
    intro ws t good
    induction ws with
    | nil => rfl
    | cons w ws ih =>
      have step : decodeWord cls (t, true) (w, .good) = (t, true) := by simp [decodeWord, good]
      rw [List.map_cons, List.foldl_cons, step, ih]
  simp [skeinTake, free, decodeRead_nil, sound _ (noteReads a (granules a n) s) whole]

/-- `t` differs from `s` in the bobbins, the creels, what is resident and the skein bases only. -/
def BobOnly (s t : State) : Prop := ∃ bob creel res skn, t = { s with bob := bob, creel := creel, res := res, skn := skn }

theorem BobOnly.trans {s t u : State} (h : BobOnly s t) (h' : BobOnly t u) : BobOnly s u := by
  obtain ⟨_, _, _, _, rfl⟩ := h
  obtain ⟨bob, creel, res, skn, rfl⟩ := h'
  exact ⟨bob, creel, res, skn, rfl⟩

/-- Where a granule stands and who may read it is told by the image and the skein's contents. -/
theorem BobOnly.readable_iff {s t : State} (h : BobOnly s t) (stage : Nat) (g : Grain) : Readable t stage g ↔ Readable s stage g := by
  obtain ⟨_, _, _, _, rfl⟩ := h
  exact Iff.rfl

/-- As a pop goes on: the bobbins, the creels, what is resident and the skein bases changed only, no skein word is bad, and every granule of
the stage can be read. -/
structure Popping (stage : Nat) (s t : State) : Prop where
  only : BobOnly s t
  whole : t.skn.bad = []
  readable : ∀ b, t.bobbin stage = some b → ∀ g ∈ b.grains, Readable s stage g

section
variable {stage : Nat} {s t : State}

theorem takeGrain_whole {g : Grain} (whole : s.skn.bad = []) (readable : Readable s stage g) :
    ∃ skn bytes, takeGrain stage g s = ({ s with skn := skn }, some bytes) ∧ skn.bad = [] := by
  unfold takeGrain
  split
  · exact ⟨s.skn, _, rfl, whole⟩
  next k _ here =>
    rw [skeinTake_whole (readable k here) whole]
    exact ⟨_, _, rfl, whole⟩
  · exact ⟨s.skn, _, rfl, whole⟩

theorem takeGrains_whole (gs : List Grain) (whole : s.skn.bad = []) (readable : ∀ g ∈ gs, Readable s stage g) :
    ∃ skn bytes, takeGrains stage gs s = ({ s with skn := skn }, some bytes) ∧ skn.bad = [] := by
  induction gs using List.reverseRecOn with
  | nil => exact ⟨s.skn, [], rfl, whole⟩
  | append_singleton gs g ih =>
    obtain ⟨skn, bytes, taken, good⟩ := ih fun x hx => readable x (List.mem_append_left _ hx)
    obtain ⟨skn', bytes', last, good'⟩ := takeGrain_whole (s := { s with skn := skn }) (stage := stage) (g := g) good
      (readable g (by simp))
    refine ⟨skn', bytes ++ bytes', ?_, good'⟩
    unfold takeGrains at taken ⊢
    rw [List.foldl_append, taken, List.foldl_cons, List.foldl_nil, last]

theorem setGrain_grains {number i : Nat} {g x : Grain} {b : BobStage} (h : x ∈ (BobStage.setGrain number i g b).grains) :
    x = g ∨ x ∈ b.grains := by
  simp only [BobStage.grains, BobStage.setGrain, BobStage.mapRecords, List.mem_flatMap, List.mem_map] at h ⊢
  obtain ⟨_, ⟨f, hf, rfl⟩, _, records, hx⟩ := h
  obtain ⟨r, hr, rfl⟩ := List.mem_map.1 records
  split at hx
  · exact (List.mem_or_eq_of_mem_set hx).symm.imp_right fun old => ⟨f, hf, r, hr, old⟩
  · exact .inr ⟨f, hf, r, hr, hx⟩

theorem pop_grains {mb : Nat} {x : Grain} {b : BobStage} (h : x ∈ (b.pop mb).grains) : x ∈ b.grains := by
  simp only [BobStage.grains, BobStage.pop, updWhere, List.mem_flatMap, List.mem_filter, List.mem_map] at h ⊢
  obtain ⟨_, ⟨⟨f, hf, rfl⟩, -⟩, r, hr, hx⟩ := h
  refine ⟨f, hf, r, ?_, hx⟩
  split at hr
  · exact List.mem_of_mem_drop hr
  · exact hr

/-- A change of the stage's bobbin that brings readable granules only. -/
theorem Popping.onBobbin (p : Popping stage s t) (f : BobStage → BobStage) (keeps : ∀ b, (f b).stage = b.stage)
    (brings : ∀ b g, g ∈ (f b).grains → Readable s stage g ∨ g ∈ b.grains) : Popping stage s (onBobbin stage f t) := by
  refine ⟨p.only.trans ⟨_, _, _, _, rfl⟩, p.whole, fun b' here g hg => ?_⟩
  rw [onBobbin_bobbin stage f keeps] at here
  obtain ⟨b, before, rfl⟩ := Option.map_eq_some_iff.1 here
  exact (brings b g hg).elim id (p.readable b before g)

/-- One granule comes to creel and stays readable (R194). -/
theorem prefetchGrain_popping (p : Popping stage s t) (number i : Nat) : Popping stage s (prefetchGrain stage number i t) := by
  unfold prefetchGrain
  split
  · exact p
  next b here =>
    split
    · exact p
    next r found =>
      split
      next g k known _ =>
        split
        · exact p
        · obtain ⟨f, hf, hr⟩ := List.mem_flatMap.1 (List.mem_of_find?_eq_some found)
          have readable : Readable s stage g := p.readable b here g <|
            List.mem_flatMap.2 ⟨f, hf, List.mem_flatMap.2 ⟨r, hr, List.mem_of_getElem? known⟩⟩
          obtain ⟨skn, bytes, taken, good⟩ := takeGrain_whole p.whole ((p.only.readable_iff stage g).2 readable)
          rw [taken]
          dsimp only
          have took : Popping stage s { t with skn := skn } := ⟨p.only.trans ⟨_, _, _, _, rfl⟩, good, p.readable⟩
          have placed := took.onBobbin (BobStage.setGrain number i { g with creel := some k }) (fun _ => rfl) fun _ x hx =>
            (setGrain_grains hx).imp_left fun (same : x = _) => by rw [same]; exact readable
          exact ⟨placed.only.trans ⟨_, _, _, _, rfl⟩, placed.whole, placed.readable⟩
      · exact p

theorem prefetchNext_popping (p : Popping stage s t) (mb : Nat) : Popping stage s (prefetchNext stage mb t) := by
  unfold prefetchNext
  split
  next r _ =>
    generalize List.range r.grains.length = is
    clear * - p
    induction is generalizing t with
    | nil => exact p
    | cons i is ih => exact ih (prefetchGrain_popping p r.number i)
  · exact p

end

-- BOBBIN_POP (R187, R189).

/-- Fewer bytes fit where more do. -/
theorem Loc.fits_of_le {m n : Nat} {l : Loc} (h : Loc.fits n l = true) (le : m ≤ n) : Loc.fits m l = true := by
  cases l <;> simp only [Loc.fits, decide_eq_true_eq] at h ⊢ <;> omega

section
variable {stage mb : Nat} {s : State} {b : BobStage} {r : BobRecord}

/-- The record that a frame pops next stands in the bobbin. -/
theorem nextRecord_grains (here : s.bobbin stage = some b) (next : nextRecord s stage mb = some r) : ∀ g ∈ r.grains, g ∈ b.grains := by
  simp only [nextRecord, here] at next
  split at next
  next f found =>
    exact fun g hg => List.mem_flatMap.2
      ⟨f, List.mem_of_find?_eq_some found, List.mem_flatMap.2 ⟨r, List.mem_of_head? next, hg⟩⟩
  next => cases next

/-- A pop of readable granules gives the record's bytes, and the prefetch after it changes the bobbin and its memories only. -/
theorem pop_takes (here : s.bobbin stage = some b) (next : nextRecord s stage mb = some r) (whole : s.skn.bad = [])
    (readable : ∀ g ∈ b.grains, Readable s stage g) : ∃ bytes, (takeGrains stage r.grains s).2 = some bytes ∧
      BobOnly s (prefetchNext stage mb (onBobbin stage (BobStage.pop mb) (takeGrains stage r.grains s).1)) := by
  obtain ⟨skn, bytes, taken, good⟩ := takeGrains_whole r.grains whole fun g hg => readable g (nextRecord_grains here next g hg)
  rw [taken]
  have took : Popping stage s { s with skn := skn } := by
    refine ⟨⟨_, _, _, _, rfl⟩, good, fun b' here' => ?_⟩
    cases Option.some.inj (here.symm.trans here')
    exact readable
  exact ⟨bytes, rfl, (prefetchNext_popping (took.onBobbin (BobStage.pop mb) (fun _ => rfl) fun _ _ hg => .inr (pop_grains hg)) mb).only⟩

section
variable {layer : Nat} {dst : Loc} {damage : List Word} (next : nextRecord s stage mb = some r) (runs : unitsRun s = true)
  (running : s.stp.running = true) (fits : Loc.fits (256 * r.grains.length) dst = true) {bytes : List Byte}
  (taken : (takeGrains stage r.grains s).2 = some bytes)
include next runs running fits taken

/-- With no protection error a pop uses the content of the record, or reports its header. -/
theorem popRecord_taken : popRecord stage mb layer dst damage none s =
    let s1 := prefetchNext stage mb (onBobbin stage (BobStage.pop mb) (takeGrains stage r.grains s).1)
    if headerOk s stage mb layer r.grains.length (damaged (bytesWords 4 bytes) damage) then
      (notePopped stage mb layer (wbit (wordAt (damaged (bytesWords 4 bytes) damage) 0) 31) s1).storeAt dst (bytes.drop 16)
    else faultNow (raise 0x1306 [stage, layer, mb] s1) := by
  simp [popRecord, next, runs, running, fits, engineError, taken]

end
end

theorem headerOk_odd {s : State} {stage mb layer units : Nat} {hdr : List Word}
    (odd : (hdr.map fun w => popcount 32 w.toNat).sum % 2 = 1) : headerOk s stage mb layer units hdr = false := by
  simp [headerOk, odd]

theorem storeAt_spool {s : State} {c : CoreIx} {off : Nat} {bs : List Byte} (fits : Loc.fits bs.length (.spool c off) = true)
    (inService : quarantined s c.val = false) : s.storeAt (.spool c off) bs = s.putSpool (spoolAddr c off) bs :=
  if_pos (by rw [fits, inService]; rfl)

/-- The row BOBBIN_POP completes for every place in spool or creel. -/
theorem exec_bobbinPop {stage mb layer : Nat} {dst : Loc} {damage : List Word} {err : Option UnitError} {s : State}
    (shape : damage.length = 4) (near : Loc.near dst = true) (fits : Loc.fits 0 dst = true) :
    exec (.bobbinPop stage mb layer dst damage err) s = .next (popRecord stage mb layer dst damage err s) := by
  have formed : (damage.length == 4 && Loc.near dst && Loc.fits 0 dst) = true := by simp [shape, near, fits]
  exact if_pos formed

/-- Settles O19: a reservation stands at the end of the stage's frames; a pop of readable granules has the record's bytes, used or reported
as its header says. -/
theorem bobbinRows : Obligations.BobbinRows := by
  unfold Obligations.BobbinRows
  intro stage mb s
  refine ⟨⟨_, rfl⟩, fun layer dst damage err shape near fits => ⟨_, exec_bobbinPop shape near fits⟩, fun b here runs =>
    ⟨fun inBatch fresh room => ?reserve, fun full => ?full, fun layer dst damage r running shape next near fits whole readable => ?pop⟩,
    fun c off bs fits inService => ?store, fun layer units hdr odd => headerOk_odd odd⟩
  case reserve =>
    refine ⟨_, congrArg Host.Outcome.next (reserveFrame_fits here runs inBatch fresh room), rfl, ?_⟩
    rw [onBobbin_bobbin stage (fun x => { x with frames := x.frames ++ [⟨mb, frameBytes s stage mb, [], false⟩] }) (fun _ => rfl), here]
    rfl
  case full => exact congrArg Host.Outcome.next (reserveFrame_full here full)
  case pop =>
    have all : ∀ g ∈ b.grains, Readable s stage g := by
      intro g hg
      obtain ⟨f, hf, records⟩ := List.mem_flatMap.1 hg
      obtain ⟨x, hx, hg⟩ := List.mem_flatMap.1 records
      exact readable f hf x hx g hg
    obtain ⟨bytes, taken, bob, creel, res, skn, pops⟩ := pop_takes here next whole all
    have completes := exec_bobbinPop (stage := stage) (mb := mb) (layer := layer) (err := none) (s := s) shape near
      (Loc.fits_of_le fits (Nat.zero_le _))
    rw [popRecord_taken next runs running fits taken, pops] at completes
    refine ⟨bytes, taken, fun good => ?_, fun bad => ?_⟩
    · rw [if_pos good] at completes
      exact ⟨_, completes, rfl⟩
    · rw [if_neg (by rw [bad]; exact Bool.false_ne_true)] at completes
      exact ⟨_, completes, rfl, rfl, rfl⟩
  case store => rw [storeAt_spool fits inService]; rfl

end Sys2Proof.Machine
end

section
/-! The nep test registers (family 08): a RUN accepted or refused, a write without RUN, and the completion (R261, R276). -/

namespace Sys2Proof.Machine

section
variable {v : Word} {s : State}

/-- When READY, the row NEP_TEST_RUN is the write of HUB_NEP_TEST_CTRL. -/
theorem exec_nepTestRun_ready (ready : isReady s = true) : exec (.nepTestRun v) s = .next (writeNepCtrl v s) :=
  congrArg Host.Outcome.next (if_pos ready)

/-- A RUN that meets every condition of R276 starts a test on the key and counter registers. -/
theorem writeNepCtrl_accepted (run : wbit v 31 = true) (named : wfield v 17 16 ≠ 3) (between : s.stp.inStep = false)
    (target : nepTargetOk s (wfield v 17 16) (wfield v 15 0) = true) : writeNepCtrl v s =
      s.onNep fun n => { n with
        testGenerator := wfield v 17 16, testTarget := wfield v 15 0, testRefused := n.testRefused && !wbit v 29, testDone := false
        testPending := some (nepTestWords n) } := by
  simp [writeNepCtrl, run, beq_false_of_ne named, between, target, nepTestWords]

/-- A RUN that breaks one of them sets REFUSED and starts nothing; the reserved generator does not reach its field. -/
theorem writeNepCtrl_refused (run : wbit v 31 = true)
    (breaks : wfield v 17 16 = 3 ∨ s.stp.inStep = true ∨ nepTargetOk s (wfield v 17 16) (wfield v 15 0) = false) :
    writeNepCtrl v s = s.onNep fun n => { n with
      testGenerator := if wfield v 17 16 = 3 then n.testGenerator else wfield v 17 16, testTarget := wfield v 15 0
      testRefused := true } := by
  have refuses : (!(wfield v 17 16 == 3) && !s.stp.inStep && nepTargetOk s (wfield v 17 16) (wfield v 15 0)) = false := by
    rcases breaks with reserved | inStep | noTarget
    · simp [reserved]
    · simp [inStep]
    · simp [noTarget]
  simp [writeNepCtrl, run, refuses]

/-- A write without RUN takes the fields, and a 1 in REFUSED clears it. -/
theorem writeNepCtrl_fields (noRun : wbit v 31 = false) (named : wfield v 17 16 ≠ 3) : writeNepCtrl v s =
    s.onNep fun n => { n with
      testGenerator := wfield v 17 16, testTarget := wfield v 15 0, testRefused := n.testRefused && !wbit v 29 } := by
  simp [writeNepCtrl, noRun, beq_false_of_ne named]

/-- The completion writes the outputs that the accepted RUN left pending. -/
theorem exec_nepTestDone_pending {ws : List Word} (pending : s.nep.testPending = some ws) :
    exec .nepTestDone s = .next (s.onNep fun n => { n with testPending := none, testDone := true, out := ws }) := by
  show execNepTestDone s = _
  rw [execNepTestDone, pending]

theorem exec_nepTestDone_idle (idle : s.nep.testPending = none) : exec .nepTestDone s = .next s := by
  show execNepTestDone s = _
  rw [execNepTestDone, idle]

end

/-- Settles O44: a RUN is accepted or refused by the conditions of R276, and the completion writes what the accepted RUN left pending. -/
theorem nepTestRows : Obligations.NepTestRows := by
  unfold Obligations.NepTestRows
  intro v s
  refine ⟨?write, fun ws pending => exec_nepTestDone_pending pending, exec_nepTestDone_idle⟩
  rintro ready _ rfl
  rw [exec_nepTestRun_ready ready]
  refine ⟨fun run named between target => ?accepted, fun run breaks => ?refused, fun noRun named => ?fields⟩
  case accepted => exact congrArg Host.Outcome.next (writeNepCtrl_accepted run named between target)
  case refused => exact congrArg Host.Outcome.next (writeNepCtrl_refused run breaks)
  case fields => exact congrArg Host.Outcome.next (writeNepCtrl_fields noRun named)

end Sys2Proof.Machine
end

section
/-! The shuttle arbiters (family 09): how the charge of the owner, a refill and an arbitration change one channel, who wins, and the report
of a starved class (R295 to R300, R309). -/

namespace Sys2Proof.Machine

-- One arbiter of the skein (R295).

theorem State.arbiter_onStack (s : State) (k j : StackIx) (d : ChanIx) (f : Stack → Stack) (keeps : ∀ x, (f x).channels = x.channels) :
    (s.onStack k f).arbiter j d = s.arbiter j d := by
  unfold State.arbiter
  rw [State.stack_onStack]
  split
  · simp only [keeps]
  · rfl

@[simp] theorem State.arbiter_onArbiter_same (s : State) (k : StackIx) (c : ChanIx) (f : Arbiter → Arbiter) :
    (s.onArbiter k c f).arbiter k c = f (s.arbiter k c) := by
  simp [State.arbiter, State.onArbiter, State.stack, State.onStack, State.onSkn]

theorem State.arbiter_onArbiter_other (s : State) {k j : StackIx} {c d : ChanIx} (f : Arbiter → Arbiter) (other : j ≠ k ∨ d ≠ c) :
    (s.onArbiter k c f).arbiter j d = s.arbiter j d := by
  unfold State.onArbiter State.arbiter
  rw [State.stack_onStack]
  split
  next same =>
    subst same
    have channel : c.val ≠ d.val := fun e => other.elim (· rfl) (· (Fin.ext e.symm))
    exact Vector.getElem_set_ne c.isLt d.isLt channel
  next => rfl

@[simp] theorem arbiter_count (bits key n : Nat) (s : State) (j : StackIx) (d : ChanIx) :
    (count bits key n s).arbiter j d = s.arbiter j d := rfl

theorem onArbiter_reportsOnly (s : State) (k : StackIx) (c : ChanIx) (f : Arbiter → Arbiter) : ReportsOnly s (s.onArbiter k c f) :=
  onStack_reportsOnly s k _

@[simp] theorem State.onArbiter_stp (s : State) (k : StackIx) (c : ChanIx) (f : Arbiter → Arbiter) : (s.onArbiter k c f).stp = s.stp := rfl

section
variable (k : StackIx) (c : ChanIx) (cls : ClassIx) (beats wait : Nat) (rq : BitVec 5) (s : State)

-- The beats of a grant, and a noted wait (R309).

@[simp] theorem countBeats_arbiter (j : StackIx) (d : ChanIx) : (countBeats k c cls beats s).arbiter j d = s.arbiter j d := by
  unfold countBeats
  dsimp only
  split
  · exact State.arbiter_onStack s k j d _ fun _ => rfl
  · exact (arbiter_count ..).trans (State.arbiter_onStack s k j d _ fun _ => rfl)

theorem countBeats_reportsOnly : ReportsOnly s (countBeats k c cls beats s) := by
  unfold countBeats
  dsimp only
  split
  · exact onStack_reportsOnly s k _
  · exact (onStack_reportsOnly s k _).trans (count_reportsOnly 48 _ _ _)

@[simp] theorem countBeats_stp : (countBeats k c cls beats s).stp = s.stp := by
  unfold countBeats
  dsimp only
  split <;> rfl

@[simp] theorem noteWait_arbiter (j : StackIx) (d : ChanIx) : (noteWait k c cls wait s).arbiter j d = s.arbiter j d :=
  State.arbiter_onStack s k j d _ fun _ => rfl

theorem noteWait_reportsOnly : ReportsOnly s (noteWait k c cls wait s) := onStack_reportsOnly s k _

@[simp] theorem noteWait_stp : (noteWait k c cls wait s).stp = s.stp := rfl

theorem noteWait_stack_other {j : StackIx} (other : j ≠ k) : (noteWait k c cls wait s).stack j = s.stack j := by
  unfold noteWait
  exact (State.stack_onStack s j k _).trans (if_neg other.symm)

-- The charge of the owner (R295).

/-- The arbiter whose owner, if there is one, has moved so many beats more. -/
def Arbiter.charged (a : Arbiter) (beats : Nat) : Arbiter :=
  match a.owner with
  | none => a
  | some o => { a with credits := a.credits.set o (a.credits[o] - beats), granted := a.granted + beats }

@[simp] theorem Arbiter.charged_owner (a : Arbiter) : (a.charged beats).owner = a.owner := by unfold charged; split <;> rfl
@[simp] theorem Arbiter.charged_losses (a : Arbiter) : (a.charged beats).losses = a.losses := by unfold charged; split <;> rfl
@[simp] theorem Arbiter.charged_backoff (a : Arbiter) : (a.charged beats).backoff = a.backoff := by unfold charged; split <;> rfl

/-- The owner's counter goes down by the beats and stops at zero; the other counters stay. -/
theorem Arbiter.charged_credits (a : Arbiter) (i : ClassIx) :
    (a.charged beats).credits[i] = if a.owner = some i then a.credits[i] - beats else a.credits[i] := by
  unfold charged
  split
  next idle => simp [idle]
  next o owned =>
    by_cases same : o = i
    · subst same; simp [owned]
    · have classes : o.val ≠ i.val := fun e => same (Fin.ext e)
      simp [owned, same, classes, Vector.getElem_set_ne]

@[simp] theorem Arbiter.charged_eligible (a : Arbiter) (i : ClassIx) : (a.charged beats).eligible rq i = a.eligible rq i := by
  simp [Arbiter.eligible]

@[simp] theorem chargeOwner_arbiter_same : (chargeOwner k c beats s).arbiter k c = (s.arbiter k c).charged beats := by
  cases owned : (s.arbiter k c).owner with
  | none => simp [chargeOwner, Arbiter.charged, owned]
  | some o => simp [chargeOwner, Arbiter.charged, owned]

theorem chargeOwner_arbiter_other {j : StackIx} {d : ChanIx} (other : j ≠ k ∨ d ≠ c) :
    (chargeOwner k c beats s).arbiter j d = s.arbiter j d := by
  unfold chargeOwner
  split
  · rfl
  · rw [countBeats_arbiter, State.arbiter_onArbiter_other _ _ other]

theorem chargeOwner_reportsOnly : ReportsOnly s (chargeOwner k c beats s) := by
  unfold chargeOwner
  split
  · exact .refl s
  · exact (onArbiter_reportsOnly s k c _).trans (countBeats_reportsOnly k c _ _ _)

@[simp] theorem chargeOwner_stp : (chargeOwner k c beats s).stp = s.stp := by
  unfold chargeOwner
  split
  · rfl
  · rw [countBeats_stp, State.onArbiter_stp]

-- A refill (R295).

theorem refill_arbiter : (refill k c beats s).arbiter k c =
    { (s.arbiter k c).charged beats with credits := Vector.ofFn fun i => shuttleWeight s k c i.val } := by
  simp [refill]

theorem refill_frame : refill k c beats s = { s with skn := (refill k c beats s).skn, tel := (refill k c beats s).tel } := by
  unfold refill
  exact ((chargeOwner_reportsOnly k c beats s).trans (onArbiter_reportsOnly _ k c _)).eq_of_stp (chargeOwner_stp k c beats s)

end

-- Who wins (R296).

section
variable {a : Arbiter} {rq : BitVec 5}

/-- The better of the best class so far and the next. -/
def Arbiter.better (a : Arbiter) (rq : BitVec 5) (best : Option ClassIx) (c : ClassIx) : Option ClassIx :=
  if a.eligible rq c then
    match best with
    | none => some c
    | some b => if a.credits[b] < a.credits[c] then some c else some b
  else best

/-- `w` wins among the classes of `l`: it is eligible, and its counter is the fullest, of equal ones that of the lowest number. -/
structure Arbiter.Wins (a : Arbiter) (rq : BitVec 5) (l : List ClassIx) (w : ClassIx) : Prop where
  mem : w ∈ l
  eligible : a.eligible rq w = true
  fullest : ∀ i ∈ l, a.eligible rq i = true → a.credits[i] < a.credits[w] ∨ a.credits[i] = a.credits[w] ∧ w ≤ i

/-- Nobody is eligible in `l`, or `best` names the winner. -/
def Arbiter.Best (a : Arbiter) (rq : BitVec 5) (l : List ClassIx) : Option ClassIx → Prop
  | none => ∀ i ∈ l, a.eligible rq i = false
  | some w => a.Wins rq l w

/-- One class of a higher number more: the winner stays, or a fuller counter takes its place. -/
theorem Arbiter.Best.better {l : List ClassIx} {best : Option ClassIx} (h : a.Best rq l best) {c : ClassIx} (above : ∀ i ∈ l, i < c) :
    a.Best rq (l ++ [c]) (a.better rq best c) := by
  unfold Arbiter.better
  split
  next able =>
    match best, h with
    | none, h =>
      refine ⟨by simp, able, fun i hi ei => ?_⟩
      rcases List.mem_append.1 hi with old | new
      · exact absurd ei (by simp [h i old])
      · obtain rfl := List.mem_singleton.1 new
        exact .inr ⟨rfl, le_refl _⟩
    | some b, h =>
      dsimp only
      split
      next fuller =>
        refine ⟨by simp, able, fun i hi ei => ?_⟩
        rcases List.mem_append.1 hi with old | new
        · rcases h.fullest i old ei with less | ⟨same, -⟩
          · exact .inl (less.trans fuller)
          · exact .inl (same ▸ fuller)
        · obtain rfl := List.mem_singleton.1 new
          exact .inr ⟨rfl, le_refl _⟩
      next kept =>
        refine ⟨List.mem_append_left _ h.mem, h.eligible, fun i hi ei => ?_⟩
        rcases List.mem_append.1 hi with old | new
        · exact h.fullest i old ei
        · obtain rfl := List.mem_singleton.1 new
          exact (Nat.lt_or_eq_of_le (Nat.not_lt.1 kept)).imp_right fun same => ⟨same, (above b h.mem).le⟩
  next unable =>
    have same (i : ClassIx) (hi : i ∈ l ++ [c]) (ei : a.eligible rq i = true) : i ∈ l :=
      (List.mem_append.1 hi).resolve_right fun new => unable (List.mem_singleton.1 new ▸ ei)
    match best, h with
    | none, h => exact fun i hi => Bool.eq_false_iff.2 fun ei => absurd ei (by simp [h i (same i hi ei)])
    | some b, h => exact ⟨List.mem_append_left _ h.mem, h.eligible, fun i hi ei => h.fullest i (same i hi ei) ei⟩

/-- The arbiter goes through the classes in the order of their numbers. -/
theorem Arbiter.foldl_better_best (l : List ClassIx) (rising : l.Pairwise (· < ·)) : a.Best rq l (l.foldl (a.better rq) none) := by
  induction l using List.reverseRecOn with
  | nil => exact fun i hi => absurd hi List.not_mem_nil
  | append_singleton l c ih =>
    obtain ⟨below, -, above⟩ := List.pairwise_append.1 rising
    rw [List.foldl_append]
    exact (ih below).better fun i hi => above i hi c (List.mem_singleton_self c)

theorem Arbiter.winner_best (a : Arbiter) (rq : BitVec 5) : a.Best rq (List.finRange 5) (a.winner rq) :=
  Arbiter.foldl_better_best (List.finRange 5) (List.pairwise_lt_finRange 5)

theorem Arbiter.winner_none (nobody : ∀ i, a.eligible rq i = false) : a.winner rq = none := by
  have best := a.winner_best rq
  match won : a.winner rq with
  | none => rfl
  | some w =>
    rw [won] at best
    exact absurd best.eligible (by simp [nobody w])

theorem Arbiter.winner_some (someone : ∃ i, a.eligible rq i = true) : ∃ w, a.winner rq = some w ∧ a.Wins rq (List.finRange 5) w := by
  have best := a.winner_best rq
  match won : a.winner rq with
  | none =>
    obtain ⟨i, able⟩ := someone
    rw [won] at best
    exact absurd able (by simp [best i (List.mem_finRange i)])
  | some w =>
    rw [won] at best
    exact ⟨w, rfl, best⟩

-- What a grant leaves (R296, R298).

@[simp] theorem Arbiter.grant_owner (a : Arbiter) (rq : BitVec 5) : (a.grant rq).owner = a.winner rq := by
  unfold grant
  split
  next won => exact won.symm
  next won => exact won.symm

@[simp] theorem Arbiter.grant_credits (a : Arbiter) (rq : BitVec 5) : (a.grant rq).credits = a.credits := by
  unfold grant
  split <;> rfl

section
variable {w : ClassIx} (won : a.winner rq = some w)
include won

theorem Arbiter.grant_winner : (a.grant rq).losses[w] = 0 ∧ (a.grant rq).backoff[w] = false := by simp [grant, won]

theorem Arbiter.grant_loser {i : ClassIx} (other : i ≠ w) (able : a.eligible rq i = true) :
    (a.grant rq).backoff[i] = true ∧ (a.grant rq).losses[i] = min (a.losses[i] + 1) 8 := by
  simp [grant, won, other, able, maxLosses]

theorem Arbiter.grant_bystander {i : ClassIx} (other : i ≠ w) (unable : a.eligible rq i = false) :
    (a.grant rq).backoff[i] = a.backoff[i] ∧ (a.grant rq).losses[i] = a.losses[i] := by
  simp [grant, won, other, unable]

end
end

-- One arbitration (R296 to R298).

section
variable (k : StackIx) (c : ChanIx) (rq : BitVec 5) (beats wait : Nat) (s : State)

/-- The charged arbiter grants; of the rest, an arbitration may only note the winner's wait. -/
theorem arbitrate_cases : ∃ t, t = (chargeOwner k c beats s).onArbiter k c (·.grant rq) ∧
    (arbitrate k c rq beats wait s = t ∨ ∃ w, arbitrate k c rq beats wait s = noteWait k c w wait t) := by
  refine ⟨_, rfl, ?_⟩
  unfold arbitrate
  dsimp only
  split
  · exact .inr ⟨_, rfl⟩
  · exact .inl rfl

theorem arbitrate_arbiter_same : (arbitrate k c rq beats wait s).arbiter k c = ((s.arbiter k c).charged beats).grant rq := by
  obtain ⟨t, rfl, eq | ⟨w, eq⟩⟩ := arbitrate_cases k c rq beats wait s <;> simp [eq]

theorem arbitrate_arbiter_other {j : StackIx} {d : ChanIx} (other : j ≠ k ∨ d ≠ c) :
    (arbitrate k c rq beats wait s).arbiter j d = s.arbiter j d := by
  obtain ⟨t, rfl, eq | ⟨w, eq⟩⟩ := arbitrate_cases k c rq beats wait s <;>
    simp [eq, State.arbiter_onArbiter_other _ _ other, chargeOwner_arbiter_other k c beats s other]

theorem arbitrate_frame : arbitrate k c rq beats wait s =
    { s with skn := (arbitrate k c rq beats wait s).skn, tel := (arbitrate k c rq beats wait s).tel } := by
  have granted := (chargeOwner_reportsOnly k c beats s).trans (onArbiter_reportsOnly (chargeOwner k c beats s) k c (·.grant rq))
  obtain ⟨t, rfl, eq | ⟨w, eq⟩⟩ := arbitrate_cases k c rq beats wait s
  · rw [eq]
    exact granted.eq_of_stp (by simp)
  · rw [eq]
    exact (granted.trans (noteWait_reportsOnly k c w wait _)).eq_of_stp (by simp)

theorem exec_arbitration_free (free : ∀ o, (s.arbiter k c).owner = some o → rq.getLsbD o.val = false) :
    exec (.arbitration k c rq beats wait) s = .next (arbitrate k c rq beats wait s) := by
  show execArbitration k c rq beats wait s = _
  unfold execArbitration
  split
  next o owned => rw [if_neg (Bool.eq_false_iff.1 (free o owned))]
  next => rfl

variable {k c rq s} in
/-- While the owner still requests, only the end of its burst makes an arbitration. -/
theorem exec_arbitration_owned {o : ClassIx} (owned : (s.arbiter k c).owner = some o) (requests : rq.getLsbD o.val = true) :
    exec (.arbitration k c rq beats wait) s = .next s ∧
      exec (.burstLimit k c rq beats wait) s = .next (if burstOver k c o beats s then arbitrate k c rq beats wait s else s) := by
  show execArbitration k c rq beats wait s = _ ∧ execBurstLimit k c rq beats wait s = _
  simp [execArbitration, execBurstLimit, owned, requests]

/-- What the arbiter makes of an arbitration that some class is eligible for. -/
theorem Arbiter.grant_charged_contested {a : Arbiter} (someone : ∃ i, a.eligible rq i = true) (b : Arbiter) (hb : b = (a.charged beats).grant rq) :
    ∃ w, b.owner = some w ∧ a.eligible rq w = true ∧
      (∀ i, a.eligible rq i = true → b.credits[i] < b.credits[w] ∨ b.credits[i] = b.credits[w] ∧ w ≤ i) ∧
      b.losses[w] = 0 ∧ b.backoff[w] = false ∧
      (∀ i, i ≠ w → a.eligible rq i = true → b.backoff[i] = true ∧ b.losses[i] = min (a.losses[i] + 1) 8) ∧
      (∀ i, a.eligible rq i = false → b.backoff[i] = a.backoff[i] ∧ b.losses[i] = a.losses[i]) := by
  subst hb
  obtain ⟨w, won, wins⟩ := Arbiter.winner_some (a := a.charged beats) (rq := rq) (by simpa using someone)
  have able : a.eligible rq w = true := by simpa using wins.eligible
  obtain ⟨losses, backoff⟩ := Arbiter.grant_winner won
  refine ⟨w, by simp [won], able, fun i ei => ?_, losses, backoff, fun i other ei => ?_, fun i ei => ?_⟩
  · simpa using wins.fullest i (List.mem_finRange i) (by simpa using ei)
  · simpa using Arbiter.grant_loser won other (by simpa using ei)
  · have other : i ≠ w := fun same => by simp [← same, ei] at able
    simpa using Arbiter.grant_bystander won other (by simpa using ei)

end

/-- When READY, the row CLEAR_WAIT_MAX is the write of SKN_CTRL (R309). -/
theorem exec_clearWaitMax_ready (k : StackIx) {s : State} (ready : isReady s = true) (v : Word) :
    exec (.clearWaitMax k v) s = .next (writeSknCtrl k v s) :=
  congrArg Host.Outcome.next (if_pos ready)

/-- Settles O47: the charged arbiter grants to the best of the eligible classes, and no other arbiter changes. -/
theorem shuttleRows : Obligations.ShuttleRows := by
  unfold Obligations.ShuttleRows
  intro k ch s
  refine ⟨fun beats => ?refill, fun rq beats wait free => ⟨_, exec_arbitration_free k ch rq beats wait s free, rfl⟩,
    fun rq beats wait o owned requests => exec_arbitration_owned beats wait owned requests, ?arbitrate, fun cls => ?backoff,
    fun ready v => ⟨fun clears => ?clears, fun keeps => ?keeps⟩⟩
  case refill =>
    refine ⟨_, rfl, ?_, ?_, ?_, ?_, refill_frame k ch beats s⟩ <;> simp [refill_arbiter]
  case arbitrate =>
    rintro rq beats wait t rfl
    have here := arbitrate_arbiter_same k ch rq beats wait s
    refine ⟨fun j d => arbitrate_arbiter_other k ch rq beats wait s, arbitrate_frame k ch rq beats wait s, fun i => ?_, fun nobody => ?_,
      fun someone => Arbiter.grant_charged_contested rq beats someone _ here⟩
    · rw [here, Arbiter.grant_credits, Arbiter.charged_credits]
    · rw [here, Arbiter.grant_owner, Arbiter.winner_none (by simpa using nobody)]
  case backoff =>
    exact ⟨_, rfl, State.arbiter_onArbiter_same s k ch _, fun j d => State.arbiter_onArbiter_other s _, rfl⟩
  case clears =>
    refine ⟨_, (exec_clearWaitMax_ready k ready v).trans (congrArg Host.Outcome.next (if_pos clears)), ?_, fun j other => ?_, rfl⟩
    · exact (State.stack_onStack s k k _).trans (if_pos rfl)
    · exact (State.stack_onStack s j k _).trans (if_neg other.symm)
  case keeps =>
    exact (exec_clearWaitMax_ready k ready v).trans (congrArg Host.Outcome.next (if_neg (by simp [keeps])))

-- A starved class (R300).

/-- Settles O48: the interval is counted and the wait noted; the event goes out while the stack has not reported in this batch. -/
theorem shuttleStarvedRow : Obligations.ShuttleStarvedRow := by
  unfold Obligations.ShuttleStarvedRow
  intro k ch c wait s
  have row : exec (.shuttleStarved k ch c wait) s = execShuttleStarved k ch c wait s := rfl
  rw [row]
  unfold execShuttleStarved
  refine ⟨fun long notOwner => ⟨fun fresh => ?_, fun reported => ?_⟩, fun short => ?_,
    fun u => ⟨rfl, fun j => noteWait_stack_other k ch c wait u⟩⟩
  · simp [long, notOwner, fresh, countEvt]
  · simp [long, notOwner, reported, countEvt]
  · simp [Nat.not_le.2 short]

end Sys2Proof.Machine
end

section
/-! The host's window and the patrol scrub (family 09): an access of the host within the decoded range, the place of a window offset, and
what a scrub read leaves of the state (R280, R283, R285, R292, R305 to R308, R352 to R355). -/

namespace Sys2Proof.Machine

-- A host access (R353).

section
variable {s : State} {o : BitVec 64} {n h : Nat} {d : List Byte}

theorem exec_cxlMemRead_window (runs : unitsRun s = true) (line : lineShaped o.toNat n = true) (here : hdmOffset s o.toNat = some h)
    (e : List Ecc) (p : Option (Fin 8)) : exec (.cxlMemRead o n e p) s = .next (cxlRead h n e p s) := by
  show execCxlMemRead o n e p s = _
  simp [execCxlMemRead, checked, line, runs, here]

theorem exec_cxlMemWrite_window (runs : unitsRun s = true) (line : lineShaped o.toNat d.length = true) (here : hdmOffset s o.toNat = some h)
    (p : Option (Fin 8)) : exec (.cxlMemWrite o d p) s = .next (cxlWrite h d p s) := by
  show execCxlMemWrite o d p s = _
  simp [execCxlMemWrite, checked, line, runs, here]

/-- An address that the HDM decoder does not claim is not the device's. -/
theorem exec_cxlMem_outside (outside : hdmOffset s o.toNat = none) (line : lineShaped o.toNat d.length = true) (e : List Ecc)
    (p : Option (Fin 8)) : exec (.cxlMemWrite o d p) s = .next s ∧ exec (.cxlMemRead o d.length e p) s = .next s := by
  show execCxlMemWrite o d p s = _ ∧ execCxlMemRead o d.length e p s = _
  simp [execCxlMemWrite, execCxlMemRead, checked, line, outside]

/-- Before READY a write is dropped, and a read gives zeros, poisoned (R352). -/
theorem cxlWrite_notReady (unready : isReady s = false) (h : Nat) (d : List Byte) (p : Option (Fin 8)) : cxlWrite h d p s = s := by
  simp [cxlWrite, unready]

theorem cxlRead_notReady (unready : isReady s = false) (h n : Nat) (e : List Ecc) (p : Option (Fin 8)) :
    cxlRead h n e p s = busRead (List.replicate n 0) true s := by
  simp [cxlRead, unready]

section
variable (ready : isReady s = true)
include ready

theorem cxlRead_ready (h n : Nat) (e : List Ecc) (p : Option (Fin 8)) :
    cxlRead h n e p s = serveRequest ⟨4, false, windowAddr h, .read n, e, p⟩ s := by
  simp [cxlRead, ready]

theorem cxlWrite_ready (h : Nat) (d : List Byte) : cxlWrite h d none s = skeinWrite 4 (windowAddr h) d s := by
  simp [cxlWrite, ready]

/-- A write that fails parity on its way is not used (R305). -/
theorem cxlWrite_parity (h : Nat) (d : List Byte) (b : Fin 8) : cxlWrite h d (some b) s = pathParity b.val (windowAddr h) 4 s := by
  simp [cxlWrite, ready]

end

/-- A host write to the guarded image is counted and dropped (R285). -/
theorem skeinWrite_guarded {a : Nat} (held : guarded s (windowOff a) d.length = true) :
    skeinWrite 4 a d s = countErr (sknReg a 0x4C) s := by
  simp [skeinWrite, held]

/-- A read of good words with good check bits, for which the stack has a slot, notes its granule and gives the bytes that stand there. -/
theorem serveRequest_read_sound {cls a : Nat} {l : Bool} (slot : (s.stack (skeinStack a)).outstanding < 8192)
    (sound : ∀ w ∈ wordsOf a n, s.skn.bad.contains w = false) :
    serveRequest ⟨cls, l, a, .read n, [], none⟩ s = busRead (s.skein.readBytes a n) false (noteReads a 1 s) := by
  have read := decodeRead_readsOn cls 1 s (e := []) sound List.not_mem_nil
  have whole : decodeRead cls a n [] (noteReads a 1 s) = (noteReads a 1 s, true) := by
    have usable := read.usable
    rw [decodeRead_nil] at usable ⊢
    exact foldl_decodeWord_good_eq cls _ _ usable
  rw [serveRequest_read (.inl ⟨n, rfl⟩) slot]
  simp [skeinRead, whole, (noteReads_reportsOnly a 1 s).skein]

/-- A read of the host that fails parity on its way is answered poisoned, and changes no byte (R305, log entry 92). -/
theorem serveRequest_hostRead_parity (a n : Nat) (l : Bool) (e : List Ecc) (b : Fin 8) :
    serveRequest ⟨4, l, a, .read n, e, some b⟩ s = busRead [] true (pathParity b.val a 4 s) :=
  SkeinReq.fails_hostRead (q := ⟨4, l, a, .read n, e, some b⟩) rfl rfl _

end

-- The place of a window offset (R283).

/-- An offset of the window, which is 32 GiB long, comes back from its place. -/
theorem windowOff_windowAddr {h : Nat} (within : h < 2 ^ 35) : windowOff (windowAddr h) = h := by
  have page : field h 14 12 = h / 4096 % 8 := by simp [field, Nat.shiftRight_eq_div_pow]
  have place : windowAddr h = 2 ^ 37 * (h / 4096 % 8) + (0x1700000000 + h / 2 ^ 15 * 4096 + h % 4096) := by
    rw [windowAddr, page, Nat.mul_comm, Nat.add_assoc, Nat.add_assoc, Nat.add_assoc]
  have inStack : 0x1700000000 + h / 2 ^ 15 * 4096 + h % 4096 < 2 ^ 37 := by omega
  have stack : windowAddr h / 2 ^ 37 = h / 4096 % 8 := by
    rw [place, Nat.mul_add_div (Nat.two_pow_pos 37), Nat.div_eq_of_lt inStack, Nat.add_zero]
  have offset : windowAddr h % 2 ^ 37 = 0x1700000000 + h / 2 ^ 15 * 4096 + h % 4096 := by
    rw [place, Nat.mul_add_mod, Nat.mod_eq_of_lt inStack]
  simp only [windowOff, skeinOff, skeinStack, Fin.val_ofNat, stack, offset]
  omega

-- The patrol scrub (R308).

theorem stateLost_skein (addr : Nat) (byScrub : Bool) (cls : Nat) (s : State) : (stateLost addr byScrub cls s).skein = s.skein :=
  congrArg (fun m => m.2.2.2) (stateLost_mems addr byScrub cls s)

/-- A scrub read that finds no uncorrectable word restores check bits at most. -/
theorem scrubWord_correctable {addr : Nat} {kind : ScrubKind} {s : State} (correctable : kind ≠ .uncorrectable)
    (sound : s.skn.bad.contains addr = false) : scrubWord addr kind s = s ∨ ∃ sym, scrubWord addr kind s = correctedWord addr true 0 sym s := by
  unfold scrubWord
  rw [sound]
  cases kind with
  | clean => exact .inl rfl
  | corrected sym => exact .inr ⟨_, rfl⟩
  | overtaken sym => exact .inr ⟨_, rfl⟩
  | uncorrectable => exact absurd rfl correctable

/-- One that finds an uncorrectable word counts it, and reports it or the loss of committed state. -/
theorem scrubWord_uncorrectable {addr : Nat} {kind : ScrubKind} {s : State} (bad : kind = .uncorrectable ∨ s.skn.bad.contains addr = true) :
    ∃ u, u = countErr (sknReg addr 0x18) (markBad addr s) ∧ (scrubWord addr kind s = stateLost addr true 0 u ∨
      scrubWord addr kind s = raise 0x2402 [addr, 0] (noteError addr 2 true 0 0x3F u)) := by
  have found : (if s.skn.bad.contains addr then .uncorrectable else kind) = ScrubKind.uncorrectable := by
    split
    · rfl
    · exact bad.resolve_right ‹_›
  refine ⟨_, rfl, ?_⟩
  unfold scrubWord
  rw [found]
  dsimp only
  split
  · exact .inl rfl
  · exact .inr rfl

/-- What a scrub read of a word may change: no byte; outside the step block, telemetry and the skein bases something only where a halted
device loses committed state; and the step block only where the word is uncorrectable. -/
structure Scrubbed (addr : Nat) (kind : ScrubKind) (s t : State) : Prop where
  skein : t.skein = s.skein
  correctable : kind ≠ .uncorrectable → s.skn.bad.contains addr = false → ReportsOnly s t ∧ t.stp = s.stp
  reports : NotHalted s → ReportsOnly s t

theorem stateLost_reportsOnly {s : State} (h : NotHalted s) (addr : Nat) (byScrub : Bool) (cls : Nat) :
    ReportsOnly s (stateLost addr byScrub cls s) := by
  rw [stateLost_of_notHalted h]
  exact (noteError_reportsOnly addr 3 byScrub cls 0x3F s).trans <| (onStack_reportsOnly _ _ _).trans <| (raise_reportsOnly _ _ _).trans <|
    faultWith_reportsOnly 2 _

theorem scrubWord_scrubbed (addr : Nat) (kind : ScrubKind) (s : State) : Scrubbed addr kind s (scrubWord addr kind s) := by
  by_cases bad : kind = .uncorrectable ∨ s.skn.bad.contains addr = true
  · obtain ⟨u, counted, found⟩ := scrubWord_uncorrectable bad
    have noted : ReportsOnly s u := counted ▸ (onSkn_reportsOnly s _).trans (count_reportsOnly 16 _ 1 _)
    have harmful : kind ≠ .uncorrectable → s.skn.bad.contains addr = false → False := fun correctable sound =>
      bad.elim correctable (by rw [sound]; nofun)
    rcases found with lost | reported
    · rw [lost]
      exact ⟨(stateLost_skein addr true 0 u).trans noted.skein, fun correctable sound => (harmful correctable sound).elim,
        fun h => noted.trans (stateLost_reportsOnly (noted.notHalted h) addr true 0)⟩
    · have frame := noted.trans <| (noteError_reportsOnly addr 2 true 0 0x3F u).trans (raise_reportsOnly 0x2402 [addr, 0] _)
      rw [reported]
      exact ⟨frame.skein, fun correctable sound => (harmful correctable sound).elim, fun _ => frame⟩
  · obtain ⟨correctable, sound⟩ := not_or.1 bad
    have frame : ReportsOnly s (scrubWord addr kind s) ∧ (scrubWord addr kind s).stp = s.stp := by
      rcases scrubWord_correctable correctable (Bool.eq_false_iff.2 sound) with clean | ⟨sym, corrected⟩
      · rw [clean]
        exact ⟨.refl s, rfl⟩
      · rw [corrected]
        exact ⟨correctedWord_reportsOnly addr true 0 sym s, correctedWord_stp addr true 0 sym s⟩
    exact ⟨frame.1.skein, fun _ _ => frame, fun _ => frame.1⟩

/-- A scrub read of a word of the stack: the progress of the pass is noted before the word, where the stack is trained and the ladder stands
above T3. -/
theorem exec_scrub_scrubbed (k : StackIx) (o : BitVec 37) (kind : ScrubKind) (s : State) (shaped : scrubShaped o.toNat = true) :
    ∃ t, exec (.scrub k o kind) s = .next t ∧ Scrubbed (k.val * 2 ^ 37 + o.toNat) kind s t := by
  show ∃ t, execScrub k o kind s = .next t ∧ _
  unfold execScrub checked
  rw [if_pos shaped]
  refine ⟨_, rfl, ?_⟩
  split
  · obtain ⟨skein, correctable, reports⟩ := scrubWord_scrubbed (k.val * 2 ^ 37 + o.toNat) kind (s.onStack k (scrubProgress o.toNat))
    have progress := onStack_reportsOnly s k (scrubProgress o.toNat)
    exact ⟨skein, fun hk hb => (correctable hk hb).imp_left progress.trans, fun h => progress.trans (reports h)⟩
  · exact ⟨rfl, fun _ _ => ⟨.refl s, rfl⟩, fun _ => .refl s⟩

/-- Settles O46: the host's accesses by readiness, slot, guard and parity; then the map of the window, refresh, and scrub. -/
theorem windowAccessRows : Obligations.WindowAccessRows := by
  unfold Obligations.WindowAccessRows
  intro s
  refine ⟨?window, ?outside, fun h within => windowOff_windowAddr within, fun k c b => rfl, fun k o kind shaped => ?scrub⟩
  case window =>
    rintro o _ d h p runs line rfl here
    have write := exec_cxlMemWrite_window runs line here
    have read := exec_cxlMemRead_window runs line here
    refine ⟨fun unready => ⟨?_, fun e => ?_⟩, fun ready => ?_⟩
    · rw [write, cxlWrite_notReady unready]
    · rw [read, cxlRead_notReady unready]
      rfl
    simp only [write, read, cxlRead_ready ready, cxlWrite_ready ready, cxlWrite_parity ready]
    refine ⟨fun slot sound => ?_, fun full e => ?_, fun free => ?_, fun held => ?_, fun b => ?_, fun b e => ?_⟩
    · rw [serveRequest_read_sound slot sound]
      exact ⟨_, rfl, rfl, rfl⟩
    · rw [serveRequest_waits (.inl ⟨_, rfl⟩) full]
      rfl
    · rw [skeinWrite_unguarded fun _ => free]
    · rw [skeinWrite_guarded held]
      exact ⟨_, rfl, rfl⟩
    · exact ⟨_, rfl, pathParity_fault .., (pathParity_reportsOnly ..).eq⟩
    · rw [serveRequest_hostRead_parity]
      exact ⟨_, rfl, rfl, (pathParity_reportsOnly b.val (windowAddr h) 4 s).skein⟩
  case outside =>
    rintro o _ d e p line rfl outside
    exact exec_cxlMem_outside outside line e p
  case scrub =>
    obtain ⟨t, row, skein, correctable, reports⟩ := exec_scrub_scrubbed k o kind s shaped
    refine ⟨t, row, skein, fun hk hb => ?_, fun hs hl => (reports ⟨hs, hl⟩).eq⟩
    obtain ⟨frame, stp⟩ := correctable hk hb
    exact frame.eq_of_stp stp

end Sys2Proof.Machine
end

section
/-! Scope of the commands: which of them complete, and what reset leaves. -/

namespace Sys2Proof.Machine

open WellFormed

-- The form of a command (R278, R325, R361).

/-- A command answers a next state where its operands have their form, and stops with commandMalformed where they have not. -/
def CompletesIff (formed : Bool) (out : Out) : Prop :=
  (formed = true → ∃ t, out = .next t) ∧ (formed = false → out = .fault .commandMalformed)

theorem completesIff_next (t : State) : CompletesIff true (.next t) :=
  ⟨fun _ => ⟨t, rfl⟩, (nomatch ·)⟩

theorem completesIff_checked (formed : Bool) (t : State) : CompletesIff formed (checked formed t) := by
  cases formed
  · exact ⟨(nomatch ·), fun _ => rfl⟩
  · exact completesIff_next t

/-- Each row that has a form checks it before anything else; the form of every other row always holds. -/
theorem exec_completesIff (c : Instr) (s : State) : CompletesIff (Instr.wf c) (exec c s) := by
  cases c with
  | admitRequest | admitReply | nonfiniteNotice | verdict | layerCounts | shardRatios | skipNotice | commit | skip | replay | halt | start
  | decisionQuery | hankSegment | rescale | scaleProposal | scaleAgreed | factorResult | paramSegment | paramEnd | paramResend | plyLeaf
  | plyLeafQuery | kvBlock | hello | linkCtrl | notReady | bringupStart | bobbinPop | tileIssue | schedulerWaitTimeout | whorlOp
  | skeinRequest | cxlMemRead | cxlMemWrite | copyIn | copyOut | scrub | descriptorConsume | queueEnable | queueDisable | stateRequest
  | reportRequest | challenge | getMeasurements | getReport => exact completesIff_checked _ _
  | _ => exact completesIff_next _

/-- Settles O6: a row either checks its form or has none to check. -/
theorem wellFormedCommandsComplete : Obligations.WellFormedCommandsComplete :=
  exec_completesIff

-- Reset.

theorem port_reset (p : PortIx) : State.reset.port p = Port.reset := Vector.getElem_replicate ..

theorem queue_reset (q : QueueIx) : State.reset.queue q = Queue.reset := by
  unfold State.queue
  split <;> rfl

/-- Settles O7: ports, queues and tiles are the reset value in each place; the rest is read off the blocks. -/
theorem resetState : Obligations.ResetState := by
  refine ⟨fun p => ?ports, fun q => ?queues, rfl, rfl, rfl, rfl, rfl, rfl, rfl, rfl, rfl, rfl, fun a => ?tiles, fun c => rfl⟩
  case ports =>
    rw [port_reset]
    rfl
  case queues =>
    rw [queue_reset]
    rfl
  case tiles =>
    unfold State.tile CoreState.tile
    split <;> rfl

end Sys2Proof.Machine
end

section
/-! Training of the roving ports (family 10): what a HELLO makes of a port, a port that goes, and the PORT_DISABLE mask. -/

namespace Sys2Proof.Machine

-- Reception of a link frame (R321, R326).

/-- A good link frame is counted, and its partner is no longer NOT_READY. -/
def linkTaken (p : PortIx) (s : State) : State :=
  countEvt (portBase p + 0x1C) (s.onPort p fun x => { x with partnerNotReady := false })

@[simp] theorem linkTaken_quiet (p : PortIx) (s : State) : (linkTaken p s).quiet = s.quiet := rfl

@[simp] theorem port_linkTaken_same (p : PortIx) (s : State) :
    (linkTaken p s).port p = { s.port p with partnerNotReady := false } := by
  simp [linkTaken]

theorem port_linkTaken_other (s : State) {p q : PortIx} (h : q ≠ p) : (linkTaken p s).port q = s.port q := by
  rw [linkTaken, port_countEvt, port_onPort_other _ _ h]

/-- A link frame whose CRC passes and that is not malformed reaches its meaning at an UP or JOINED port. -/
theorem receiveLink_taken (k : Rx → State → State) {r : Rx} {s : State} (sum : r.frame.crc = frameSum r.frame)
    (allowed : frameAllowed r.frame = true) (clear : reservedSet r.frame = false) (blocks : r.blocks = blocksOf r.frame)
    (linked : (s.port r.port).st = .up ∨ (s.port r.port).st = .joined) : receiveLink k r s = k r (linkTaken r.port s) := by
  unfold receiveLink
  rcases linked with st | st <;> simp [st, sum, allowed, clear, blocks] <;> rfl

-- HELLO (R323, R324).

/-- Wherever a HELLO is judged it is kept; the port is JOINED where it matches and UP where it does not. -/
theorem told_takeHello (p : PortIx) (i : HelloInfo) (s : State) :
    ((takeHello p i s).port p).told = (if helloMatches s p i then .joined else .up, some i, i.rank) := by
  cases fits : helloMatches s p i
  · rw [(takeHello_mismatch fits).1]
    rfl
  · rw [takeHello_match fits]
    split
    case isTrue joined => simp [heard, Port.told, joined]
    case isFalse => simp [told_joinPort, heard]

/-- An UP port that joins does so with the HELLO it has heard. -/
theorem port_takeHello_joins {s : State} {p : PortIx} {i : HelloInfo} (fits : helloMatches s p i = true) (up : (s.port p).st = .up) :
    (takeHello p i s).port p = (joinPort p i (heard p i s)).port p := by
  rw [takeHello_match fits, if_neg (by simp [up]), port_raise]

theorem port_heard (p : PortIx) (i : HelloInfo) (s : State) :
    (heard p i s).port p = { s.port p with hello := some i, partnerRank := i.rank } := port_onPort_same ..

/-- An UP port joins afresh where not both sides resume and nothing waits to be sent. -/
theorem port_takeHello_fresh {s : State} {p : PortIx} {i : HelloInfo} (fits : helloMatches s p i = true) (up : (s.port p).st = .up)
    (waits : (s.port p).waiting = 0) (fresh : ((s.port p).resume && i.resume) = false) :
    (takeHello p i s).port p = { s.port p with
      hello := some i, partnerRank := i.rank, st := .joined, resume := false, retry := [], resends := 0, nakSent := false, refused := []
      txSeq := 0, rxSeq := 0, c0 := 2048, c1 := 12288, c2 := 8192, c3 := 10240, r0 := 0, r1 := 0, r2 := 0, r3 := 0 } := by
  rw [port_takeHello_joins fits up, joinPort_fresh, port_onPort_same, port_heard]
  · rw [port_heard]
    exact fresh
  · rw [port_heard]
    exact waits

/-- Where both sides resume it sends again what the partner has not had. -/
theorem port_takeHello_resumed {s : State} {p : PortIx} {i : HelloInfo} (fits : helloMatches s p i = true) (up : (s.port p).st = .up)
    (waits : (s.port p).waiting = 0) (resumes : ((s.port p).resume && i.resume) = true) : ∃ n,
    n = (i.nextSeq + 65536 - ((s.port p).txSeq + 65536 - (s.port p).retry.length) % 65536) % 65536 ∧
      (takeHello p i s).port p = { s.port p with
        hello := some i, partnerRank := i.rank, st := .joined, resume := false, retry := (s.port p).retry.drop n, resends := 0
        nakSent := false, refused := [], wire := (((s.port p).retry.drop n).map sealFrame).reverse ++ (s.port p).wire } := by
  obtain ⟨left, rest, joined⟩ := joinPort_resumed (s := heard p i s) (p := p) (i := i) (by rw [port_heard]; exact resumes)
    (by rw [port_heard]; exact waits)
  rw [port_heard] at rest joined
  subst rest
  exact ⟨_, rfl, (port_takeHello_joins fits up).trans joined⟩

-- A port that goes (R324, R344).

/-- What is left of a port that goes. -/
def Port.gone (st : PState) (q : Port) : Port :=
  { q with st := st, retry := [], resends := 0, resume := false, refused := [], hello := none, alignRx := none }

theorem portGone_rov (st : PState) (p : PortIx) (s : State) : (portGone st p s).rov = (s.onPort p (Port.gone st)).rov := by
  unfold portGone
  dsimp only
  split <;> rfl

/-- The ports stand in the roving block alone. -/
theorem port_of_rov {s t : State} (h : t.rov = s.rov) (q : PortIx) : t.port q = s.port q := congrArg (fun r => r.ports[q]) h

theorem port_portGone_same (st : PState) (p : PortIx) (s : State) : (portGone st p s).port p = (s.port p).gone st :=
  (port_of_rov (portGone_rov st p s) p).trans (port_onPort_same ..)

theorem port_portGone_other (st : PState) (s : State) {p q : PortIx} (h : q ≠ p) : (portGone st p s).port q = s.port q :=
  (port_of_rov (portGone_rov st p s) q).trans (port_onPort_other _ _ h)

/-- A port with a role leaves a fault outstanding. -/
theorem portGone_faults (st : PState) {p : PortIx} {s : State} (role : portRole s p ≠ 0) :
    (portGone st p s).stp.fault = true ∧ (portGone st p s).stp.portFault = true := by
  unfold portGone
  rw [if_pos (bne_iff_ne.2 role)]
  exact ⟨rfl, rfl⟩

theorem portGone_stp_of_noRole (st : PState) {p : PortIx} {s : State} (role : portRole s p = 0) : (portGone st p s).stp = s.stp := by
  unfold portGone
  rw [if_neg (by simp [role])]
  rfl

/-- What a state holds outside the ports, the telemetry and the step, as the state itself with those three taken out. -/
def State.offLine (s : State) : State := { s.quiet with stp := StpBlk.reset }

theorem State.offLine_rest {s t : State} (h : t.offLine = s.offLine) : t = { s with rov := t.rov, tel := t.tel, stp := t.stp } :=
  congrArg (fun x : State => { x with rov := t.rov, tel := t.tel, stp := t.stp }) h

theorem portGone_offLine (st : PState) (p : PortIx) (s : State) : (portGone st p s).offLine = s.offLine := by
  unfold portGone
  dsimp only
  split <;> rfl

-- PORT_DISABLE (R344): the nine ports in turn.

section
variable {f : State → PortIx → State} {p : PortIx} (apart : ∀ s q, q ≠ p → (f s q).port p = s.port p)
include apart

theorem port_foldl_of_notMem (l : List PortIx) (s : State) (h : p ∉ l) : (l.foldl f s).port p = s.port p :=
  List.foldlRecOn (motive := fun t => t.port p = s.port p) l f rfl fun t ht q hq =>
    (apart t q fun e => h (e ▸ hq)).trans ht

/-- Where each port changes itself alone, a port's turn comes once: what comes before and after leaves it as it is. -/
theorem port_foldl_finRange (s : State) :
    ∃ before : List PortIx, (before.foldl f s).port p = s.port p ∧
      ((List.finRange 9).foldl f s).port p = (f (before.foldl f s) p).port p := by
  obtain ⟨before, after, whole⟩ := List.append_of_mem (List.mem_finRange p)
  have once : (before ++ p :: after).Nodup := whole ▸ List.nodup_finRange 9
  have ⟨notBefore, notAfter⟩ : p ∉ before ∧ p ∉ after := not_or.1 (List.mem_append.not.1 (List.nodup_middle.1 once).notMem)
  refine ⟨before, port_foldl_of_notMem apart before s notBefore, ?_⟩
  rw [whole, List.foldl_append, List.foldl_cons, port_foldl_of_notMem apart after _ notAfter]
end

/-- A port's turn leaves it as it is, lets it go, or changes it alone. -/
theorem disablePort_cases (mask : BitVec 9) (s : State) (p : PortIx) :
    disablePort mask s p = s ∨ disablePort mask s p = portGone .disabled p s ∨ ∃ f, disablePort mask s p = s.onPort p f := by
  unfold disablePort
  dsimp only
  split
  · split
    · exact .inr (.inl rfl)
    · exact .inr (.inr ⟨_, rfl⟩)
  · split
    · exact .inr (.inr ⟨_, rfl⟩)
    · exact .inl rfl

theorem port_disablePort_other (mask : BitVec 9) (s : State) {p q : PortIx} (h : q ≠ p) :
    (disablePort mask s p).port q = s.port q := by
  rcases disablePort_cases mask s p with same | gone | ⟨f, alone⟩
  · rw [same]
  · rw [gone, port_portGone_other _ _ h]
  · rw [alone, port_onPort_other _ _ h]

theorem disablePort_disable (mask : BitVec 9) (s : State) (p : PortIx) : (disablePort mask s p).rov.disable = s.rov.disable := by
  rcases disablePort_cases mask s p with same | gone | ⟨f, alone⟩
  · rw [same]
  · rw [gone, portGone_rov]
    rfl
  · rw [alone]
    rfl

theorem disablePort_offLine (mask : BitVec 9) (s : State) (p : PortIx) : (disablePort mask s p).offLine = s.offLine := by
  rcases disablePort_cases mask s p with same | gone | ⟨f, alone⟩
  · rw [same]
  · rw [gone, portGone_offLine]
  · rw [alone]
    rfl

/-- A port that the mask newly names is disabled, without its retry buffer. -/
theorem disablePort_on {mask : BitVec 9} {s : State} {p : PortIx} (on : mask.getLsbD p.val = true)
    (was : s.rov.disable.getLsbD p.val = false) :
    ((disablePort mask s p).port p).st = .disabled ∧ ((disablePort mask s p).port p).retry = [] := by
  unfold disablePort
  simp only [on, was, Bool.not_false, Bool.and_true, if_true]
  split
  · rw [port_portGone_same]
    exact ⟨rfl, rfl⟩
  · rw [port_onPort_same]
    exact ⟨rfl, rfl⟩

/-- When READY, a port that the mask no longer names trains. -/
theorem disablePort_off {mask : BitVec 9} {s : State} {p : PortIx} (on : mask.getLsbD p.val = false)
    (was : s.rov.disable.getLsbD p.val = true) (ready : isReady s = true) : ((disablePort mask s p).port p).st = .training := by
  unfold disablePort
  simp only [on, was, ready, Bool.false_and, Bool.not_false, Bool.and_true, Bool.false_eq_true, if_false, if_true, port_onPort_same]

/-- A port whose bit of the mask stays is left as it is. -/
theorem disablePort_same {mask : BitVec 9} {s : State} {p : PortIx} (same : mask.getLsbD p.val = s.rov.disable.getLsbD p.val) :
    disablePort mask s p = s := by
  unfold disablePort
  simp only [same, Bool.and_not_self, Bool.false_eq_true, if_false]

/-- At a write of the mask each port has its turn on a state that has its own place and the mask before, and the block's readiness. -/
theorem port_writePortDisable (mask : BitVec 9) (s : State) (p : PortIx) :
    ∃ u : State, u.port p = s.port p ∧ u.rov.disable = s.rov.disable ∧ isReady u = isReady s ∧
      (writePortDisable mask s).port p = (disablePort mask u p).port p := by
  obtain ⟨before, untouched, turn⟩ := port_foldl_finRange (fun _ _ => port_disablePort_other mask _ ∘ Ne.symm) s
  refine ⟨_, untouched, ?_, ?_, turn⟩
  · exact List.foldlRecOn (motive := fun t => t.rov.disable = s.rov.disable) before _ rfl fun t ht q _ =>
      (disablePort_disable mask t q).trans ht
  · have rest : (before.foldl (disablePort mask) s).offLine = s.offLine :=
      List.foldlRecOn (motive := fun t => t.offLine = s.offLine) before _ rfl fun t ht q _ => (disablePort_offLine mask t q).trans ht
    rw [State.offLine_rest rest]
    rfl

theorem writePortDisable_offLine (mask : BitVec 9) (s : State) : (writePortDisable mask s).offLine = s.offLine :=
  List.foldlRecOn (motive := fun t => t.offLine = s.offLine) (List.finRange 9) _ rfl fun t ht q _ => (disablePort_offLine mask t q).trans ht

-- The rows of training.

/-- Without flyer or power the row of physical training does nothing. -/
theorem exec_physicalTrainingDone_idle {p : PortIx} {lanes : BitVec 8} {rtt : Word} {s : State}
    (idle : flyerRuns s = false ∨ unitsRun s = false) : exec (.physicalTrainingDone p lanes rtt) s = .next s := by
  have off : (flyerRuns s && unitsRun s) = false := Bool.and_eq_false_iff.2 idle
  simp [exec, execPhysicalTrainingDone, off]

theorem exec_physicalTrainingDone_training {p : PortIx} {lanes : BitVec 8} {rtt : Word} {s a : State} (flyer : flyerRuns s = true)
    (power : unitsRun s = true) (trains : (s.port p).st = .training ∨ (s.port p).st = .retraining ∨ (s.port p).st = .down)
    (noted : a = s.onPort p fun q => { q with lanes := lanes, rtt := rtt }) :
    exec (.physicalTrainingDone p lanes rtt) s = .next (if lanes = 0xFF then portUp p a else a) := by
  subst noted
  rcases trains with st | st | st <;> simp [exec, execPhysicalTrainingDone, flyer, power, st]

/-- A port that is linked or disabled takes no physical training. -/
theorem exec_physicalTrainingDone_settled {p : PortIx} {lanes : BitVec 8} {rtt : Word} {s : State}
    (settled : (s.port p).st = .up ∨ (s.port p).st = .joined ∨ (s.port p).st = .disabled) :
    exec (.physicalTrainingDone p lanes rtt) s = .next s := by
  rcases settled with st | st | st <;> simp [exec, execPhysicalTrainingDone, st]

/-- A good HELLO at an UP or JOINED port is judged. -/
theorem exec_hello {r : Rx} {s : State} (sum : r.frame.crc = frameSum r.frame) (allowed : frameAllowed r.frame = true)
    (clear : reservedSet r.frame = false) (blocks : r.blocks = blocksOf r.frame)
    (linked : (s.port r.port).st = .up ∨ (s.port r.port).st = .joined) (formed : frameOf 0x03 r = true) :
    exec (.hello r) s = .next (takeHello r.port (readHello r.frame.payload) (linkTaken r.port s)) := by
  show checked _ (receiveLink _ r s) = _
  rw [receiveLink_taken _ sum allowed clear blocks linked, checked, if_pos formed]

/-- A port in RETRAINING that does not rejoin goes DOWN. -/
theorem exec_portDown_retraining {p : PortIx} {s : State} (st : (s.port p).st = .retraining) :
    exec (.portDown p) s = .next (portGone .down p s) := by
  simp [exec, execPortDown, st]

theorem exec_portDisable_ready (mask : BitVec 9) {s : State} (ready : isReady s = true) :
    exec (.portDisable mask) s = .next (writePortDisable mask s) := by
  simp [exec, execPortDisable, gated, ready]

theorem exec_retrain_ready {p : PortIx} {v : Word} {s : State} (ready : isReady s = true) (asked : wbit v 0 = true) :
    exec (.retrain p v) s = .next (retrainPort p 4 s) := by
  simp [exec, execRetrain, gated, writeRetrain, ready, asked]

/-- A port that retrains leaves every other port, and all outside the ports and the telemetry. -/
theorem retrainPort_frame (p : PortIx) (cause : Nat) (s : State) : (∀ q, q ≠ p → (retrainPort p cause s).port q = s.port q) ∧
    retrainPort p cause s = { s with rov := (retrainPort p cause s).rov, tel := (retrainPort p cause s).tel } :=
  ⟨fun _ h => port_retrain_other cause s h, State.rest_of (retrainPort_quiet p cause s)⟩

/-- Settles O49: training and HELLO by the rules of the operations above; a mask of PORT_DISABLE gives each port one turn, which only that
port feels. -/
theorem portTrainingRows : Obligations.PortTrainingRows := by
  unfold Obligations.PortTrainingRows
  intro p s
  refine ⟨?trained, ?attempt, ?hello, ?silent, ?heard, ?wire, ?lock, ?lockJoined, ?lockUp, ?down, fun ready => ⟨?disable, ?retrain⟩⟩
  case trained =>
    rintro lanes rtt a _ noted rfl
    refine ⟨exec_physicalTrainingDone_idle, fun flyer power deaf => ?_,
      fun flyer power trains => exec_physicalTrainingDone_training flyer power trains noted, exec_physicalTrainingDone_settled⟩
    subst noted
    simp [exec, execPhysicalTrainingDone, flyer, power, deaf]
  case attempt =>
    rintro (st | st | st | st) <;> simp [exec, execTrainingAttemptTimeout, st]
  case hello =>
    rintro r h rfl sum allowed clear blocks linked formed rfl
    refine ⟨_, exec_hello sum allowed clear blocks linked formed, State.rest_of ((takeHello_quiet ..).trans (linkTaken_quiet ..)), ?_⟩
    obtain ⟨st, hello, rank⟩ : _ ∧ _ ∧ _ := by
      simpa only [Port.told, Prod.mk.injEq] using told_takeHello r.port (readHello r.frame.payload) (linkTaken r.port s)
    refine ⟨hello, rank, fun fits => st.trans (if_pos fits), fun fails => ?_, fun fits up waits fresh => ?_,
      fun fits up waits resumes => ?_⟩
    · obtain ⟨port, others⟩ := takeHello_mismatch (s := linkTaken r.port s) fails
      rw [port, port_linkTaken_same]
      exact ⟨rfl, rfl, fun q h => (others q h).trans (port_linkTaken_other s h)⟩
    · rw [port_takeHello_fresh (s := linkTaken r.port s) fits, port_linkTaken_same] <;> rw [port_linkTaken_same] <;> assumption
    · have joined := port_takeHello_resumed (s := linkTaken r.port s) (p := r.port) fits
      rw [port_linkTaken_same] at joined
      exact joined up waits resumes
  case silent =>
    intro up
    simp [exec, execHelloTimeout, up, sendHello]
  case heard =>
    intro other
    simp [exec, execHelloTimeout, other]
  case wire =>
    exact fun f u => ⟨port_putWire_same p f u, fun q h => port_putWire_other f u h, State.rest_of (putWire_quiet p f u)⟩
  case lock =>
    rintro lanes t ⟨⟩
    obtain ⟨others, rest⟩ := retrainPort_frame p (causeCode .lock) (s.onPort p fun q => { q with lanes := lanes })
    exact ⟨fun q h => (others q h).trans (port_onPort_other _ _ h), rest⟩
  case lockJoined =>
    intro lanes joined
    refine ⟨_, rfl, ?_⟩
    rw [port_retrain_joined _ _ _ (by rw [port_onPort_same]; exact joined), port_onPort_same]
    rfl
  case lockUp =>
    intro lanes up
    refine ⟨_, rfl, ?_⟩
    rw [port_retrain_up _ _ _ (by rw [port_onPort_same]; exact up), port_onPort_same]
    rfl
  case down =>
    intro st
    have port := port_portGone_same .down p s
    exact ⟨_, exec_portDown_retraining st, by rw [port]; rfl, by rw [port]; rfl, portGone_faults .down, portGone_stp_of_noRole .down,
      fun q h => port_portGone_other .down s h, State.offLine_rest (portGone_offLine .down p s)⟩
  case disable =>
    intro mask
    obtain ⟨u, port, disable, readiness, turn⟩ := port_writePortDisable mask s p
    rw [← disable, ← port]
    refine ⟨_, exec_portDisable_ready mask ready, rfl, fun on was => ?_, fun on was => ?_, fun same => ?_,
      State.offLine_rest (writePortDisable_offLine mask s)⟩
    · rw [turn]
      exact disablePort_on on was
    · rw [turn]
      exact disablePort_off on was (readiness.trans ready)
    · rw [turn, disablePort_same same]
  case retrain =>
    intro v joined asked
    exact ⟨_, exec_retrain_ready ready asked, port_retrain_joined p 4 s joined, retrainPort_frame p 4 s⟩

end Sys2Proof.Machine
end

section
/-! The NAK of a roving port, whose first word holds the next SEQ below the bit that asks for the resend. -/

namespace Sys2Proof.Machine

-- NAK (R315, R330).

/-- The first word of a NAK asks for the resend while NEXT_SEQ keeps to its 16 bits: one bit more carries into the bit that asks. -/
theorem nakWord_asks_iff (nextSeq : Nat) : wbit (w32 (65536 + nextSeq)) 16 = true ↔ nextSeq / 65536 % 2 = 0 := by
  have bit : wbit (w32 (65536 + nextSeq)) 16 = decide ((65536 + nextSeq) / 65536 % 2 = 1) := by
    simp only [wbit, w32, BitVec.getLsbD_ofNat, Nat.testBit_eq_decide_div_mod_eq]
    exact Bool.true_and _
  rw [bit, decide_eq_true_iff]
  omega

/-- A NAK is one LINK_CTRL on the line, with the port's next SEQ in its first word. -/
theorem port_nakNow_wire (p : PortIx) (s : State) :
    ∃ f, ((nakNow p s).port p).wire = f :: (s.port p).wire ∧ wordAt f.payload 0 = w32 (65536 + (s.port p).rxSeq) := by
  unfold nakNow sendLinkCtrl
  dsimp only
  rw [port_putWire_same, port_onPort_same]
  exact ⟨_, rfl, rfl⟩

/-- What a codeword that touches a frame of a linked port sends. -/
theorem exec_uncorrectableCodeword_naks {p : PortIx} {n : Nat} {s : State} (touches : 0 < n)
    (linked : (s.port p).st = .up ∨ (s.port p).st = .joined) :
    ∃ t f, exec (.uncorrectableCodeword p n) s = .next t ∧ (t.port p).wire = f :: (s.port p).wire ∧
      (wbit (wordAt f.payload 0) 16 = true ↔ (s.port p).rxSeq / 65536 % 2 = 0) := by
  simp only [exec, execUncorrectableCodeword, if_pos (And.intro touches linked.symm)]
  obtain ⟨f, sent, word⟩ := port_nakNow_wire p (_ : State)
  refine ⟨_, f, rfl, sent.trans ?_, ?_⟩
  · simp
  · rw [word, nakWord_asks_iff]
    simp

/-- Port 0 UP, its next SEQ one more than the 16 bits of NEXT_SEQ hold. -/
def wideSeqState : State := State.reset.onPort 0 fun q => { q with st := .up, rxSeq := 65536 }

/-- Refutes O50: the statement takes every state, also one whose next SEQ is 65,536, which no run reaches since SEQ counts modulo 65,536
(R329). There the NAK for an uncorrectable codeword leaves without the bit that asks for the resend. -/
theorem not_portLinkRows : ¬ Obligations.PortLinkRows := by
  unfold Obligations.PortLinkRows
  intro rows
  obtain ⟨-, -, -, -, -, -, uncorrectable, -⟩ := rows 0 wideSeqState
  obtain ⟨t, row, -, -, naks, -⟩ := uncorrectable 1
  obtain ⟨-, f, sent, -, asks⟩ := naks Nat.one_pos (.inl rfl)
  obtain ⟨u, g, row', sent', asks_iff⟩ := exec_uncorrectableCodeword_naks (p := 0) (s := wideSeqState) Nat.one_pos (.inl rfl)
  obtain rfl : t = u := Host.Outcome.next.inj (row.symm.trans row')
  obtain rfl : f = g := (List.cons.inj (sent.symm.trans sent')).1
  have clear : wbit (wordAt f.payload 0) 16 ≠ true := asks_iff.not.2 (by decide)
  exact clear asks

end Sys2Proof.Machine
end

section
/-! Registers before READY (family 11): every row that writes a register outside the boot window is refused there (R352). -/

namespace Sys2Proof.Machine

section
variable {s : State}

/-- Before READY a row that writes a register is refused. -/
theorem next_gated_unready {off : Nat} {f : State → State} (early : isReady s = false) :
    (.next (gated off f s) : Out) = .next (refuseWrite off s) := by
  rw [gated, if_neg (by simp [early])]

/-- When READY the row writes its register. -/
theorem next_gated_ready {off : Nat} {f : State → State} (ready : isReady s = true) : (.next (gated off f s) : Out) = .next (f s) := by
  rw [gated, if_pos ready]

/-- So it is with a row whose operand has its form. -/
theorem checked_gated_unready {form : Bool} {off : Nat} {f : State → State} (formed : form = true) (early : isReady s = false) :
    checked form (gated off f s) = .next (refuseWrite off s) :=
  (if_pos formed).trans (next_gated_unready early)

theorem checked_gated_ready {form : Bool} {off : Nat} {f : State → State} (formed : form = true) (ready : isReady s = true) :
    checked form (gated off f s) = .next (f s) :=
  (if_pos formed).trans (next_gated_ready ready)

theorem writeReg_unready {off : Nat} (v : Word) (early : isReady s = false) (outside : inBootWindow off = false) :
    writeReg off v s = refuseWrite off s := by
  simp [writeReg, early, outside]

theorem badBarAccess_unready {off : Nat} (n : Nat) (early : isReady s = false) (outside : inBootWindow off = false) :
    badBarAccess true off n s = refuseWrite off s := by
  simp [badBarAccess, early, outside]

theorem spoolWindow_write_unready (c : CoreIx) (w : Nat) (v : Word) (early : isReady s = false) :
    spoolWindow c w (.write v) s = refuseWrite (coreBase c.val + 0x8000 + 4 * w) s := by
  simp [spoolWindow, early]

end

/-- Settles O8: each row is `gated` at the offset of its register, or one of the three accesses that name their offset themselves; a
refused write is the count with the event behind it. -/
theorem registerWritesBeforeReady : Obligations.RegisterWritesBeforeReady := by
  unfold Obligations.RegisterWritesBeforeReady
  intro s early
  refine ⟨fun off v outside => congrArg Host.Outcome.next (writeReg_unready v early outside),
    fun off n outside => congrArg Host.Outcome.next (badBarAccess_unready n early outside), fun r v => next_gated_unready early,
    fun b => next_gated_unready early, fun b => next_gated_unready early, fun a => next_gated_unready early,
    fun c v => next_gated_unready early, fun c w v => congrArg Host.Outcome.next (spoolWindow_write_unready c w.val v early),
    fun c => next_gated_unready early, fun v => next_gated_unready early, fun k v => next_gated_unready early,
    fun m => next_gated_unready early, fun p v => next_gated_unready early, fun q v => next_gated_unready early,
    fun q v => next_gated_unready early, fun q v enable => checked_gated_unready enable early,
    fun q v disable => checked_gated_unready (by simp [disable]) early, fun v => next_gated_unready early,
    fun v => next_gated_unready early, fun v => next_gated_unready early, fun v request => checked_gated_unready request early,
    fun v => next_gated_unready early, fun v request => checked_gated_unready request early, fun off t => ⟨rfl, rfl⟩⟩

end Sys2Proof.Machine
end

section
/-! The weft queues and the event ring (family 11): their control registers, the descriptors they take in, and their time limits (R348,
R356 to R360, R369 to R374). -/

namespace Sys2Proof.Machine

-- A queue after a change of it.

section
variable (s : State) (q : QueueIx) (f g : Queue → Queue)

@[simp] theorem State.queue_onQueue : (s.onQueue q f).queue q = f (s.queue q) := by
  unfold State.queue State.onQueue
  split <;> rfl

theorem State.onQueue_onQueue : (s.onQueue q f).onQueue q g = s.onQueue q fun x => g (f x) := by
  unfold State.onQueue State.onWeft
  split <;> rfl

end

-- Control registers (R348, R356 to R358, R373).

section
variable {q : QueueIx} {v : Word} {s : State}

/-- ENABLE of a DISABLED queue with a size in range. -/
theorem writeQueueCtrl_enable (enable : wbit v 31 = true) (off : (s.queue q).st = .disabled) (least : 6 ≤ wfield v 4 0)
    (most : wfield v 4 0 ≤ 14) :
    writeQueueCtrl q v s = s.onQueue q fun x => { x with enable := true, sizeLog2 := wfield v 4 0, cause := 0, st := .enabled } := by
  simp [writeQueueCtrl, enable, off, least, most, State.onQueue_onQueue]

/-- A cleared ENABLE takes the queue back to reset; a queue that is not DISABLED keeps its size. -/
theorem writeQueueCtrl_disable (disable : wbit v 31 = false) (on : (s.queue q).st ≠ .disabled) :
    writeQueueCtrl q v s = s.onQueue q fun x =>
      { Queue.reset with sizeLog2 := x.sizeLog2, errorSeen := x.errorSeen, baseLo := x.baseLo, baseHi := x.baseHi,
                         complLo := x.complLo, complHi := x.complHi } := by
  simp only [writeQueueCtrl, disable, beq_false_of_ne on, Bool.false_and, Bool.false_eq_true, if_false]
  exact State.onQueue_congr rfl

theorem writeComplHead_within (on : (s.queue q).st = .enabled) (within : wfield v 15 0 < (s.queue q).size) :
    writeComplHead q v s = s.onQueue q fun x =>
      { x with released := x.released + (wfield v 15 0 + x.size - x.complHead) % x.size, complHead := wfield v 15 0,
               blockedRaised := x.blockedRaised && wfield v 15 0 == x.complHead } := by
  simp [writeComplHead, on, within]

theorem writeTail_within (on : (s.queue q).st = .enabled) (within : wfield v 15 0 < (s.queue q).size) :
    writeTail q v s = s.onQueue q fun x => { x with tail := wfield v 15 0 } := by
  simp [writeTail, on, Nat.not_le.2 within]

theorem writeTail_beyond (on : (s.queue q).st = .enabled) (beyond : (s.queue q).size ≤ wfield v 15 0) :
    writeTail q v s = queueError q 1 s := by
  simp [writeTail, on, beyond]

end

/-- Settles O11: when READY each row is the write of its register, of which there is one lemma per case. -/
theorem queueControlRows : Obligations.QueueControlRows := by
  unfold Obligations.QueueControlRows
  intro q v s ready
  refine ⟨fun enable off least most => ?enable, fun disable on => ?disable, fun on within => ?complHead, fun on within => ?tail,
    fun on beyond => ?error⟩
  case enable => exact (checked_gated_ready enable ready).trans (congrArg _ (writeQueueCtrl_enable enable off least most))
  case disable => exact (checked_gated_ready (by simp [disable]) ready).trans (congrArg _ (writeQueueCtrl_disable disable on))
  case complHead => exact (next_gated_ready ready).trans (congrArg _ (writeComplHead_within on within))
  case tail => exact (next_gated_ready ready).trans (congrArg _ (writeTail_within on within))
  case error => exact (next_gated_ready ready).trans (congrArg _ (writeTail_beyond on beyond))

-- The event ring (R371, R373).

section
variable {v : Word} {s : State}

/-- ENABLE with a size in range. -/
theorem writeEventCtrl_enable (enable : wbit v 31 = true) (least : 6 ≤ wfield v 4 0) (most : wfield v 4 0 ≤ 16) :
    writeEventCtrl v s = s.onTel fun t =>
      { t with ring := { t.ring with enable := true, evInt := wbit v 30, sizeLog2 := wfield v 4 0 } } := by
  simp [writeEventCtrl, enable, least, most]

/-- Without ENABLE the ring is emptied, whatever becomes of its size. -/
theorem writeEventCtrl_disable (disable : wbit v 31 = false) : ∃ n, writeEventCtrl v s = s.onTel fun t =>
    { t with ring := { t.ring with enable := false, evInt := wbit v 30, sizeLog2 := n, tail := 0, head := 0, written := 0 } } := by
  simp only [writeEventCtrl, disable, Bool.false_eq_true, if_false]
  exact ⟨_, rfl⟩

theorem writeEventHead_within (within : wfield v 15 0 < s.tel.ring.size) :
    writeEventHead v s = s.onTel fun t => { t with ring := { t.ring with head := wfield v 15 0 } } := by
  simp [writeEventHead, State.onTel, within]

end

/-- Settles O12: when READY each row is the write of its register. -/
theorem eventRingRows : Obligations.EventRingRows := by
  unfold Obligations.EventRingRows
  intro v s ready
  refine ⟨fun enable least most => ?enable, fun disable => ?disable, fun within => ?head⟩
  case enable => exact (next_gated_ready ready).trans (congrArg _ (writeEventCtrl_enable enable least most))
  case disable =>
    obtain ⟨n, empties⟩ := writeEventCtrl_disable (s := s) disable
    exact ⟨n, (next_gated_ready ready).trans (congrArg _ empties)⟩
  case head => exact (next_gated_ready ready).trans (congrArg _ (writeEventHead_within within))

-- Descriptors that are copied in, and the time limits (R358 to R360, R369, R374).

/-- A descriptor can be taken in: one is posted, a credit is left, and room to prefetch (R358, R360). -/
def CanConsume (q : QueueIx) (s : State) : Prop :=
  (s.queue q).hasPosted = true ∧ 0 < (s.queue q).credits ∧ (s.queue q).fetched.length < prefetchRoom q

theorem prefetchRoom_eq (q : QueueIx) : prefetchRoom q = if q = 0 then 4 else 16 := by simp [prefetchRoom]

section
variable {q : QueueIx} {ws : List Word} {s : State}

theorem execDescriptorConsume_takes (whole : ws.length = 32) (can : CanConsume q s) :
    execDescriptorConsume q ws s = .next (s.onQueue q fun x =>
      { x with fetched := x.fetched ++ [⟨x.head, x.consumed / x.size % 2 == 0, ws⟩], head := (x.head + 1) % x.size,
               consumed := x.consumed + 1 }) := by
  obtain ⟨posted, credit, room⟩ := can
  simp [execDescriptorConsume, checked, whole, posted, credit, room]

theorem execDescriptorConsume_waits (whole : ws.length = 32) (cannot : ¬ CanConsume q s) : execDescriptorConsume q ws s = .next s := by
  have stays : ((s.queue q).hasPosted && decide (0 < (s.queue q).credits) &&
      decide ((s.queue q).fetched.length < prefetchRoom q)) ≠ true := by
    simpa [CanConsume] using cannot
  simp only [execDescriptorConsume, checked, whole, beq_self_eq_true, if_true, if_neg stays]

theorem execDescriptorReadTimeout_posted (posted : (s.queue q).hasPosted = true) :
    execDescriptorReadTimeout q s = .next (queueError q 2 (raise 0x5023 [q.val, (s.queue q).head] s)) :=
  congrArg _ (if_pos posted)

theorem execHostWriteTimeout_completion (on : (s.queue q).st = .enabled) :
    execHostWriteTimeout (.completion q) s = .next (queueError q 3 (raise 0x5024 [q.val, (s.queue q).head] s)) :=
  congrArg _ (if_pos (by simp [on]))

theorem execHostWriteTimeout_eventRing (on : s.tel.ring.enable = true) :
    execHostWriteTimeout .eventRing s = .next (raise 0x5024 [2, s.tel.ring.tail] s) :=
  congrArg _ (if_pos on)

theorem execCompletionBlocked_first (posted : (s.queue q).hasPosted = true) (spent : (s.queue q).credits = 0)
    (fresh : (s.queue q).blockedRaised = false) :
    execCompletionBlocked q s =
      .next (raise 0x5025 [q.val, (s.queue q).head] (s.onQueue q fun x => { x with blockedRaised := true })) :=
  congrArg _ (if_pos (by simp [posted, spent, fresh]))

theorem execCompletionBlocked_again (raised : (s.queue q).blockedRaised = true) : execCompletionBlocked q s = .next s :=
  congrArg _ (if_neg (by simp [raised]))

end

/-- Settles O13: what `CanConsume` asks decides whether a descriptor comes in, and each time limit is one condition. -/
theorem descriptorQueueRows : Obligations.DescriptorQueueRows := by
  unfold Obligations.DescriptorQueueRows
  intro q ws s
  rw [← prefetchRoom_eq]
  refine ⟨fun whole posted credit room => execDescriptorConsume_takes whole ⟨posted, credit, room⟩, fun whole lacks => ?waits,
    execDescriptorReadTimeout_posted, execHostWriteTimeout_completion, execHostWriteTimeout_eventRing, execCompletionBlocked_first,
    execCompletionBlocked_again, fun n => rfl⟩
  case waits =>
    refine execDescriptorConsume_waits whole fun ⟨posted, credit, room⟩ => ?_
    rcases lacks with none | spent | full
    · simp [posted] at none
    · omega
    · omega

end Sys2Proof.Machine
end

section
/-! What a report leaves of the telemetry (families 11 and 12): the event ring stays enabled or disabled, the MSI-X table stays, and host
memory keeps what was written (R347, R370, R371, R406). -/

namespace Sys2Proof.Machine

/-- Reports lead from `t` to `t'`: the ring is enabled as before, the MSI-X table stays, and no write into host memory is taken back. -/
structure Reported (t t' : TelBlk) : Prop where
  enable : t'.ring.enable = t.ring.enable
  table : t'.msix.table = t.msix.table
  writes : t.hostWrites ⊆ t'.hostWrites

namespace Reported

theorem refl (t : TelBlk) : Reported t t := ⟨rfl, rfl, fun _ h => h⟩

theorem trans {t u v : TelBlk} (h : Reported t u) (h' : Reported u v) : Reported t v :=
  ⟨h'.enable.trans h.enable, h'.table.trans h.table, fun _ m => h'.writes (h.writes m)⟩

end Reported

theorem Msix.signal_table (v : Nat) (m : Msix) : (m.signal v).table = m.table := by
  unfold Msix.signal
  split <;> rfl

theorem TelBlk.count_reported (bits key n : Nat) (t : TelBlk) : Reported t (t.count bits key n).1 := ⟨rfl, rfl, fun _ h => h⟩

theorem TelBlk.hostCopy_reported (e : Event) (t : TelBlk) : Reported t (t.hostCopy e).1 := by
  unfold TelBlk.hostCopy
  split
  · refine ⟨rfl, ?_, fun _ h => List.mem_cons_of_mem _ h⟩
    dsimp only
    split
    · exact Msix.signal_table 2 t.msix
    · rfl
  · exact TelBlk.count_reported 48 kEventsDropped 1 t

theorem TelBlk.emit1_reported (e : Event) (t : TelBlk) : Reported t (t.emit1 e).1 := by
  unfold TelBlk.emit1
  dsimp only
  refine Reported.trans ?_ (TelBlk.hostCopy_reported e _)
  split
  · exact ⟨rfl, rfl, fun _ h => h⟩
  · exact ⟨rfl, rfl, fun _ h => h⟩

theorem TelBlk.emit_reported (exec fuel : Nat) (es : List Event) (t : TelBlk) : Reported t (TelBlk.emit exec fuel es t) := by
  induction fuel generalizing es t with
  | zero => exact .refl t
  | succ fuel ih =>
    cases es with
    | nil => exact .refl t
    | cons e es => exact (TelBlk.emit1_reported e t).trans (ih _ _)

theorem raise_reported (c : Half) (p : List Nat) (s : State) : Reported s.tel (raise c p s).tel := TelBlk.emit_reported _ _ _ _

theorem count_reported (bits key n : Nat) (s : State) : Reported s.tel (count bits key n s).tel :=
  (TelBlk.count_reported bits key n s.tel).trans (TelBlk.emit_reported _ _ _ _)

theorem signal_reported (v : Nat) (s : State) : Reported s.tel (signal v s).tel :=
  ⟨rfl, Msix.signal_table v s.tel.msix, fun _ h => h⟩

theorem hostWrite_reported (addr : Nat) (data : List Byte) (s : State) : Reported s.tel (hostWrite addr data s).tel :=
  ⟨rfl, rfl, fun _ h => List.mem_cons_of_mem _ h⟩

theorem hostWrite_mem (addr : Nat) (data : List Byte) (s : State) : ⟨addr, data⟩ ∈ (hostWrite addr data s).tel.hostWrites :=
  List.mem_cons_self

theorem complete_reported (q : QueueIx) (d : Desc) (c : Compl) (s : State) : Reported s.tel (complete q d c s).tel := by
  have written := hostWrite_reported (pairAddr (s.queue q).complLo (s.queue q).complHi + 64 * d.slot) (wordsBytes (complRecord s d c)) s
  have record := written.trans (count_reported 48 (queueBase q + 0x28) 1 _)
  unfold complete
  dsimp only
  split
  · exact record.trans (signal_reported q.val _)
  · exact record

end Sys2Proof.Machine
end

section
/-! The host link and the host attach resets (family 11): a link that trains, retrains and stays down, what an attach reset takes, and a
snoop (R66, R346, R348, R349, R464). -/

namespace Sys2Proof.Machine

-- The end of a load that an attach reset aborts (R66).

theorem leaveHalted_rest (s : State) : ∃ st resumed,
    leaveHalted s = { s with warp := { s.warp with state := st }, job := { s.job with resumed := resumed } } := by
  unfold leaveHalted
  split
  · exact ⟨_, _, rfl⟩
  · exact ⟨_, _, rfl⟩

/-- The end of a load changes the loader, which keeps its image, and may take up a START that was held for it. -/
theorem endLoad_rest (fresh : Loader) (s : State) : ∃ warp resumed,
    endLoad fresh s = { s with warp := warp, job := { s.job with resumed := resumed } } ∧ warp.image = s.warp.image := by
  obtain ⟨st, resumed, leaves⟩ := leaveHalted_rest (s.onWarp fun w => _)
  exact ⟨_, resumed, leaves, rfl⟩

theorem abortLoad_rest (s : State) : ∃ tel warp resumed,
    abortLoad s = { s with tel := tel, warp := warp, job := { s.job with resumed := resumed } } ∧ warp.image = s.warp.image ∧
      Reported s.tel tel := by
  unfold abortLoad
  split
  · obtain ⟨warp, resumed, ends, image⟩ := endLoad_rest .empty s
    rw [ends]
    exact ⟨_, warp, resumed, rfl, image, raise_reported 0x5004 [] _⟩
  · exact ⟨s.tel, s.warp, s.job.resumed, rfl, rfl, .refl s.tel⟩

-- The attach reset (R348).

/-- The host block after an attach reset: HUB_BOOT_SCRATCH and the copies of WEFT_ registers are gone, and a link that goes down is down. -/
def HubBlk.attached (kind : AttachKind) (h : HubBlk) : HubBlk :=
  let r := { h with bootScratch := 0, latched := h.latched.filter fun c => !isWeft c.1 }
  if kind == .linkDown then r.down else r

theorem HubBlk.attached_bootScratch (kind : AttachKind) (h : HubBlk) : (h.attached kind).bootScratch = 0 := by
  cases kind <;> rfl

/-- An attach reset is the reset of the host's registers, with the load that it aborts and the reports of both. -/
theorem attachReset_rest (kind : AttachKind) (s : State) : ∃ tel warp resumed,
    attachReset kind s = { s with weft := WeftBlk.reset, tel := tel, hub := s.hub.attached kind, warp := warp
                                  job := { s.job with resumed := resumed } } ∧
      warp.image = s.warp.image ∧ tel.ring.enable = false ∧ tel.msix.table = List.replicate 16 0 := by
  unfold attachReset
  dsimp only
  generalize hu : ({ s with weft := _, tel := _, hub := _ } : State) = u
  obtain ⟨tel, warp, resumed, aborts, image, aborted⟩ := abortLoad_rest u
  rw [aborts]
  have reports := aborted.trans
    (raise_reported 0x4042 [attachCode kind] { u with tel := tel, warp := warp, job := { u.job with resumed := resumed } })
  subst hu
  exact ⟨_, warp, resumed, rfl, image, reports.enable, reports.table⟩

theorem attachReset_linkDown_hub (s : State) :
    (attachReset .linkDown s).hub.linkUp = false ∧ (attachReset .linkDown s).hub.retraining = false := by
  obtain ⟨tel, warp, resumed, resets, -⟩ := attachReset_rest .linkDown s
  rw [resets]
  exact ⟨rfl, rfl⟩

/-- Settles O15: `attachReset_rest` names every block that the reset touches. -/
theorem hostAttachRows : Obligations.HostAttachRows := by
  unfold Obligations.HostAttachRows
  intro k a s
  refine ⟨?reset, fun up => congrArg _ (if_pos up)⟩
  case reset =>
    obtain ⟨tel, warp, resumed, resets, image, enable, table⟩ := attachReset_rest k s
    refine ⟨attachReset k s, rfl, ?_⟩
    rw [resets]
    exact ⟨rfl, enable, table, s.hub.attached_bootScratch k, rfl, image⟩

-- The link (R349, R464).

section
variable {s : State}

theorem execHostLinkRetrain_up (up : s.hub.linkUp = true) :
    execHostLinkRetrain s =
      .next (signal 3 (raise 0x4040 [] (countErr 0x1C (s.onHub fun h => { h with retraining := true })))) :=
  congrArg _ (if_pos up)

theorem execHostLinkDown_retraining (retrains : s.hub.retraining = true) :
    execHostLinkDown s = .next (attachReset .linkDown (raise 0x4041 [] s)) :=
  congrArg _ (if_pos retrains)

theorem execHostLinkUp_trained (b : BitVec 64) (runs : flyerRuns s = true) (powered : s.trd.ladder ≠ .t4) :
    ∃ hub, execHostLinkUp b s = .next { s with hub := hub, freeCtr := s.freeCtr + 1 } ∧ hub.linkUp = true ∧ hub.retraining = false :=
  ⟨_, congrArg _ (if_pos (by simp [runs, powered])), rfl, rfl⟩

theorem execHostLinkNotTrained_first (runs : flyerRuns s = true) (down : s.hub.linkUp = false) (fresh : s.mod.linkLateRaised = false) :
    execHostLinkNotTrained s = .next (raise 0x4043 [] (s.onMod fun m => { m with linkLateRaised := true })) :=
  congrArg _ (if_pos (by simp [runs, down, fresh]))

theorem execHostLinkNotTrained_again (raised : s.mod.linkLateRaised = true) : execHostLinkNotTrained s = .next s :=
  congrArg _ (if_neg (by simp [raised]))

end

/-- Settles O14: each row acts under one condition; a retrain that fails is the attach reset of a link that goes down. -/
theorem hostLinkRows : Obligations.HostLinkRows := by
  unfold Obligations.HostLinkRows
  intro b s
  refine ⟨execHostLinkRetrain_up, fun retrains => ?down, fun runs powered => ?up, execHostLinkNotTrained_first,
    execHostLinkNotTrained_again⟩
  case down =>
    obtain ⟨down, still⟩ := attachReset_linkDown_hub (raise 0x4041 [] s)
    exact ⟨_, execHostLinkDown_retraining retrains, rfl, down, still⟩
  case up =>
    obtain ⟨hub, trains, up, still⟩ := execHostLinkUp_trained b runs powered
    exact ⟨_, trains, up, still, rfl⟩

end Sys2Proof.Machine
end

section
/-! What the data descriptors leave behind (family 11): INFER, the checkpoints and the copies (R347, R348, R365 to R368, R399, R402,
R403). -/

namespace Sys2Proof.Machine

-- The completion of a descriptor (R359, R368).

section
variable (q : QueueIx) (c : Compl) (s : State)

/-- A completion takes the descriptor from the head of its queue and reports; nothing else changes. -/
theorem completeHead_rest : ∃ tel weft, completeHead q c s = { s with tel := tel, weft := weft } ∧ Reported s.tel tel ∧
    ((completeHead q c s).queue q).fetched = (s.queue q).fetched.tail := by
  unfold completeHead
  split
  case h_1 empty => exact ⟨_, _, rfl, .refl s.tel, by rw [empty]; rfl⟩
  case h_2 d ds _ =>
    have reports := complete_reported q d c (s.onQueue q fun x => { x with fetched := x.fetched.drop 1 })
    rw [complete_tel]
    refine ⟨_, _, rfl, reports, ?_⟩
    have queue := State.queue_onQueue s q fun x => { x with fetched := x.fetched.drop 1 }
    exact (congrArg Queue.fetched queue).trans List.drop_one

/-- So does a refusal. -/
theorem refuseHead_rest (st det : Nat) : ∃ tel weft, refuseHead q st det s = { s with tel := tel, weft := weft } ∧
    ((refuseHead q st det s).queue q).fetched = (s.queue q).fetched.tail := by
  unfold refuseHead
  split
  case h_1 empty => exact ⟨_, _, rfl, by rw [empty]; rfl⟩
  case h_2 d ds _ =>
    obtain ⟨told, tells⟩ := (countErr_tellsOnly (queueBase q + 0x30) s).trans (raise_tellsOnly 0x5021 [q.val, d.slot, st, det] _)
    rw [tells]
    obtain ⟨tel, weft, completes, -, fetched⟩ := completeHead_rest q { status := st, detail := det, batch := s.stp.batch }
      { s with tel := told }
    exact ⟨tel, weft, completes, fetched⟩

end

/-- The checks before one that fails find nothing. -/
theorem firstStatus_append {l : List (Nat × Option Nat)} (more : List (Nat × Option Nat)) (passes : firstStatus l = none) :
    firstStatus (l ++ more) = firstStatus more := by
  induction l with
  | nil => rfl
  | cons c cs ih =>
    cases fails : c.2 with
    | none =>
      simp only [firstStatus, fails, List.cons_append] at passes ⊢
      exact ih passes
    | some det => simp [firstStatus, fails] at passes

/-- A single check refuses where it fails. -/
theorem checkedHead_single {c : Prop} [Decidable c] (q : QueueIx) (st det : Nat) (k : State → State) (s : State) :
    checkedHead q [(st, if c then some det else none)] k s = if c then refuseHead q st det s else k s := by
  by_cases h : c <;> simp [checkedHead, firstStatus, h]

-- INFER (R272 to R275, R365).

theorem sampleRequest_rest (id : Word) (logits : List Word) (r : Request) (s : State) :
    (sampleRequest id logits r s).1.length = 4 ∧ TellsOnly s (sampleRequest id logits r s).2 := by
  unfold sampleRequest
  split
  · exact ⟨rfl, .refl s⟩
  · exact ⟨rfl, raise_tellsOnly ..⟩

/-- What an INFER samples, request by request: the result words, and the state with their reports. -/
def inferPass (d : Desc) (b : BatchIn) (reqTable : List Word) (err : Option UnitError) (s : State) : List Word × State :=
  (List.range (wfield (wordAt d.words 2) 31 16)).foldl (fun acc i =>
    let q := readRequest reqTable i
    let x := sampleRequest ((samplingStream s).getD 0) (logitRow s b q) q acc.2
    (acc.1 ++ x.1, x.2)) ([], keyError err s)

theorem runInfer_eq (d : Desc) (b : BatchIn) (reqTable : List Word) (err : Option UnitError) (s : State) :
    runInfer d b reqTable err s = completeHead 0 { status := 0, batch := s.stp.batch }
      (hostWrite (nat64 d.words 11) (wholeLines (wordsBytes (inferPass d b reqTable err s).1)) (inferPass d b reqTable err s).2) := rfl

/-- Passes that give four words each and change telemetry only. -/
theorem foldl_fourWords {α : Type} {f : α → State → List Word × State} (h : ∀ x s, (f x s).1.length = 4 ∧ TellsOnly s (f x s).2)
    (l : List α) (acc : List Word × State) :
    (l.foldl (fun acc x => (acc.1 ++ (f x acc.2).1, (f x acc.2).2)) acc).1.length = acc.1.length + 4 * l.length ∧
      TellsOnly acc.2 (l.foldl (fun acc x => (acc.1 ++ (f x acc.2).1, (f x acc.2).2)) acc).2 := by
  induction l generalizing acc with
  | nil => exact ⟨rfl, .refl _⟩
  | cons x xs ih =>
    obtain ⟨four, tells⟩ := h x acc.2
    obtain ⟨length, later⟩ := ih (acc.1 ++ (f x acc.2).1, (f x acc.2).2)
    rw [List.foldl_cons]
    refine ⟨length.trans ?_, tells.trans later⟩
    simp only [List.length_append, List.length_cons, four]
    omega

theorem inferPass_rest (d : Desc) (b : BatchIn) (reqTable : List Word) (err : Option UnitError) (s : State) :
    (inferPass d b reqTable err s).1.length = 4 * wfield (wordAt d.words 2) 31 16 ∧
      TellsOnly (keyError err s) (inferPass d b reqTable err s).2 := by
  have pass := foldl_fourWords
    (f := fun i => sampleRequest ((samplingStream s).getD 0) (logitRow s b (readRequest reqTable i)) (readRequest reqTable i))
    (fun _ _ => sampleRequest_rest _ _ _ _) (List.range (wfield (wordAt d.words 2) 31 16)) ([], keyError err s)
  refine ⟨pass.1.trans ?_, pass.2⟩
  rw [List.length_range]
  exact Nat.zero_add _

theorem wholeLines_length (bs : List Byte) : (wholeLines bs).length = (bs.length + 63) / 64 * 64 := by
  simp only [wholeLines, List.length_append, List.length_replicate]
  omega

/-- A key error of a pass is a report and a fault of the step at most. -/
theorem keyError_usable {e : Option UnitError} (h : e = none ∨ ∃ g k, e = some (.nepKey g k)) (s : State) :
    ∃ tel stp, keyError e s = { s with tel := tel, stp := stp } ∧ (e = none → stp = s.stp) := by
  rcases h with rfl | ⟨g, k, rfl⟩
  · exact ⟨_, _, rfl, fun _ => rfl⟩
  · exact ⟨_, _, rfl, fun clean => nomatch clean⟩

/-- An accepted INFER writes its result lines and completes. -/
theorem runInfer_rest {e : Option UnitError} (usable : e = none ∨ ∃ g k, e = some (.nepKey g k)) (d : Desc) (b : BatchIn)
    (r : List Word) (s : State) : ∃ tel weft stp data,
      runInfer d b r e s = { s with tel := tel, weft := weft, stp := stp } ∧ (e = none → stp = s.stp) ∧
      ⟨nat64 d.words 11, data⟩ ∈ tel.hostWrites ∧ data.length = (16 * wfield (wordAt d.words 2) 31 16 + 63) / 64 * 64 ∧
      ((runInfer d b r e s).queue 0).fetched = (s.queue 0).fetched.tail := by
  obtain ⟨tel, stp, key, clean⟩ := keyError_usable usable s
  obtain ⟨length, tel', pass⟩ := inferPass_rest d b r e s
  rw [key] at pass
  rw [runInfer_eq]
  generalize hdata : wholeLines (wordsBytes (inferPass d b r e s).1) = data
  rw [pass]
  obtain ⟨tel'', weft, completes, reports, fetched⟩ := completeHead_rest 0 { status := 0, batch := s.stp.batch }
    (hostWrite (nat64 d.words 11) data { s with tel := tel', stp := stp })
  refine ⟨tel'', weft, stp, data, completes, clean, reports.writes (hostWrite_mem ..), ?_, fetched⟩
  rw [← hdata, wholeLines_length, wordsBytes_length, length]
  omega

theorem inferHead_idle {a t r : List Word} {p : Option Nat} {e : Option UnitError} {d : Desc} {s : State} (step : s.stp.inStep = false)
    (desc : s.stp.desc = none) (on : arithmeticOn s = true) :
    inferHead a t r p e d s = checkedHead 0 (inferChecks s d (inferIn d a t p) r) (runInfer d (inferIn d a t p) r e) s := by
  simp [inferHead, step, desc, on]

-- CKPT_SAVE (R399, R401).

/-- A sealing key in use is one of the enrolled ones; the choice moves the free-value counter. -/
theorem sealKey_enrolled {s : State} (keys : s.flash.sealKeys ≠ []) :
    ∃ key ∈ s.flash.sealKeys, sealKey s = (some key, { s with freeCtr := s.freeCtr + 1 }) := by
  unfold sealKey
  split
  case h_1 empty => exact absurd empty keys
  case h_2 k ks enrolled =>
    have inside : Config.freeChoice s.freeCtr % (ks.length + 1) < (k :: ks).length := Nat.mod_lt _ (Nat.succ_pos _)
    refine ⟨(k :: ks).getD (Config.freeChoice s.freeCtr % (ks.length + 1)) k, ?_, rfl⟩
    rw [List.getD_eq_getElem _ _ inside, enrolled]
    exact List.getElem_mem inside

/-- A CKPT_SAVE of the right form is treated: no step runs or waits, every scale and the ply digest are agreed, an image is loaded. -/
structure SaveTurn (d : Desc) (s : State) : Prop where
  step : s.stp.inStep = false
  desc : s.stp.desc = none
  scales : ∀ h ∈ s.reel.hanks, h.agreed = true
  digest : s.reel.initialised = false ∨ s.stp.stepIndex < s.reel.leafStep
  fields : firstStatus (ckptFields d) = none
  loaded : s.warp.state = .loaded

/-- The device has a job that it can save, and a key to seal it. -/
def CanSave (s : State) : Prop := s.nep.seed.isSome = true ∧ s.reel.initialised = true ∧ s.flash.sealKeys ≠ []

section
variable {e : Option UnitError} {d : Desc} {s x : State}

theorem SaveTurn.goesOn (turn : SaveTurn d s) : ¬ (s.stp.inStep || s.stp.desc.isSome || !(s.reel.hanks.all (·.agreed)) ||
    decide (s.reel.initialised ∧ s.reel.leafStep ≤ s.stp.stepIndex)) = true := by
  obtain ⟨step, desc, scales, digest, -, -⟩ := turn
  have agreed : s.reel.hanks.all (·.agreed) = true := List.all_eq_true.2 scales
  rcases digest with fresh | settled
  · simp [step, desc, agreed, fresh]
  · simp [step, desc, agreed, settled]

/-- The checks of a save come down to whether the device can save. -/
theorem SaveTurn.firstStatus_eq (turn : SaveTurn d s) (can : Bool) :
    firstStatus (ckptFields d ++ [(0x04, noImage s), (0x12, failIf (!can))]) = if can then none else some (0x12, 0) := by
  rw [firstStatus_append _ turn.fields]
  cases can <;> simp [firstStatus, noImage, failIf, turn.loaded]

theorem saveHead_cannot (turn : SaveTurn d s) (lacks : s.nep.seed = none ∨ s.reel.initialised = false ∨ s.flash.sealKeys = []) :
    saveHead e d s = refuseHead 0 0x12 0 s := by
  have cannot : (s.nep.seed.isSome && s.reel.initialised && !s.flash.sealKeys.isEmpty) = false := by
    rcases lacks with lack | lack | lack <;> simp [lack]
  rw [saveHead, if_neg turn.goesOn]
  dsimp only
  rw [cannot, checkedHead_refused (turn.firstStatus_eq false)]

theorem saveHead_unread (turn : SaveTurn d s) (can : CanSave s) (lost : readShards e s = (x, false)) :
    saveHead e d s = refuseHead 0 0x12 0 x := by
  obtain ⟨seed, job, keys⟩ := can
  have able : (s.nep.seed.isSome && s.reel.initialised && !s.flash.sealKeys.isEmpty) = true := by simp [seed, job, keys]
  rw [saveHead, if_neg turn.goesOn]
  dsimp only
  rw [able, checkedHead_passed (turn.firstStatus_eq true), lost]
  cases x.warp.image <;> rfl

theorem saveHead_sealed {im : Image} {key : Word × BitVec 256} {t : State} (turn : SaveTurn d s) (can : CanSave s)
    (read : readShards e s = (x, true)) (image : x.warp.image = some im) (sealing : sealKey x = (some key, t)) :
    saveHead e d s = if nat64 d.words 4 < (checkpoint t im key).length then refuseHead 0 0x13 (checkpoint t im key).length t
      else writeCheckpoint d (checkpoint t im key) t := by
  obtain ⟨seed, job, keys⟩ := can
  have able : (s.nep.seed.isSome && s.reel.initialised && !s.flash.sealKeys.isEmpty) = true := by simp [seed, job, keys]
  rw [saveHead, if_neg turn.goesOn]
  dsimp only
  rw [able, checkedHead_passed (turn.firstStatus_eq true), read]
  simp only [image, sealing, if_true, checkedHead_single]

/-- The checkpoint that is written completes its descriptor, and the status registers show an accepted save. -/
theorem writeCheckpoint_rest (d : Desc) (bs : List Byte) (s : State) : ∃ tel weft, writeCheckpoint d bs s =
      { s with tel := tel, weft := weft, ply := { s.ply with ckptOp := 1, ckptAccepted := true, ckptCause := 0 } } ∧
    ((writeCheckpoint d bs s).queue 0).fetched = (s.queue 0).fetched.tail := by
  unfold writeCheckpoint
  dsimp only
  generalize hu : raiseExec 0x2130 _ _ = u
  obtain ⟨tel, weft, completes, -, fetched⟩ := completeHead_rest 0 { status := 0, bytes := bs.length, batch := s.stp.batch } u
  rw [fetched, completes]
  subst hu
  exact ⟨tel, weft, rfl, rfl⟩

end

-- CKPT_RESTORE (R402, R403).

section
variable {buf : List Byte} {p : Bool} {d : Desc} {s : State} {im : Image}

theorem restoreHead_refused {c : Nat} (image : s.warp.image = some im) (passes : firstStatus (restoreChecks s p d) = none)
    (cause : restoreCause s im (fit (nat64 d.words 4) buf) = some c) :
    restoreHead buf p d s = refuseRestore c (countSigFail (manifestFails im (fit (nat64 d.words 4) buf)) s) := by
  rw [restoreHead, checkedHead_passed passes]
  simp only [image, cause]

theorem restoreHead_accepted {b : Bundle} (image : s.warp.image = some im) (passes : firstStatus (restoreChecks s p d) = none)
    (sound : restoreCause s im (fit (nat64 d.words 4) buf) = none) (bundle : readBundle im (fit (nat64 d.words 4) buf) = some b) :
    restoreHead buf p d s = completeHead 0 { status := 0, batch := s.stp.batch } (restoreFrom im b s) := by
  rw [restoreHead, checkedHead_passed passes]
  simp only [image, sound, bundle]

theorem countSigFail_tellsOnly (n : Nat) (s : State) : TellsOnly s (countSigFail n s) := (TellsOnly.refl s).ite (count_tellsOnly ..)

/-- A refused restore completes its descriptor and changes the status of the last operation. -/
theorem refuseRestore_rest (c : Nat) (s : State) : ∃ tel weft, refuseRestore c s =
      { s with tel := tel, weft := weft, ply := { s.ply with ckptOp := 2, ckptAccepted := false, ckptCause := c } } ∧
    ((refuseRestore c s).queue 0).fetched = (s.queue 0).fetched.tail := by
  unfold refuseRestore
  generalize hu : raiseExec 0x2132 _ _ = u
  obtain ⟨tel, weft, refuses, fetched⟩ := refuseHead_rest 0 u 0x15 c
  rw [fetched, refuses]
  subst hu
  exact ⟨tel, weft, rfl, rfl⟩

end

-- What a restore brings, and what the emission after it leaves of that (R204, R250, R403, R452).

/-- What a restore brings beside the batch and its step index: the nep block with the seed, the reason of the next mode, and that the job is
initialised. -/
def State.renewed (s : State) := (s.nep, s.stp.nextReason, s.reel.initialised)

theorem renewed_of_quiet {s t : State} (h : t.quiet = s.quiet) : t.renewed = s.renewed := by
  rw [State.rest_of h]
  rfl

theorem TellsOnly.renewed {s t : State} (h : TellsOnly s t) : t.renewed = s.renewed := by
  obtain ⟨_, rfl⟩ := h
  rfl

section
variable (s : State)

theorem foldl_renewed {α : Type} (f : State → α → State) (h : ∀ s x, (f s x).renewed = s.renewed) (l : List α) :
    (l.foldl f s).renewed = s.renewed := by
  induction l generalizing s with
  | nil => rfl
  | cons x xs ih => rw [List.foldl_cons, ih, h]

theorem distribute_renewed (marker : BitVec 4) (owner : Nat) (h : RHdr) (body : List Word) :
    (distribute marker owner h body s).renewed = s.renewed :=
  foldl_renewed s _ (fun t _ => renewed_of_quiet (sendOn_quiet _ _ t)) _

theorem placeSegment_renewed (p : Hank) (copy fmt tile seg : Nat) (bytes : List Byte) :
    (placeSegment p copy fmt tile seg bytes s).renewed = s.renewed := by
  unfold placeSegment
  (repeat' split) <;> rfl

theorem emitAll_renewed (p : Hank) (es : List Emitted) : (emitAll p es s).renewed = s.renewed :=
  (distribute_renewed ..).trans
    (foldl_renewed s _ (fun t _ => (distribute_renewed ..).trans (placeSegment_renewed t ..)) es)

theorem noteUpdateOvf_renewed (tag n : Nat) : (noteUpdateOvf tag n s).renewed = s.renewed := by
  unfold noteUpdateOvf
  split
  · rfl
  · exact (raiseIf_tellsOnly ..).renewed

theorem emitHank_renewed (p : Hank) : (emitHank p s).renewed = s.renewed := by
  unfold emitHank
  split
  · split
    · exact emitAll_renewed s p _
    · rfl
  · split
    · exact (noteUpdateOvf_renewed ..).trans (emitAll_renewed s p _)
    · rfl

theorem emitOwn_renewed : (emitOwn s).renewed = s.renewed := foldl_renewed s _ (fun t p => emitHank_renewed t p) _

theorem emitOwn_turn : (emitOwn s).turn = s.turn := foldl_turn s _ (fun t p => emitHank_turn t p) _

theorem formPairs_renewed (n : Nat) : (formPairs n s).renewed = s.renewed := by
  induction n generalizing s with
  | zero => rfl
  | succ n ih =>
    unfold formPairs
    dsimp only
    split
    · exact (ih _).trans rfl
    · rfl

theorem sendLeaf_renewed (tag : Nat) (leaf : List Byte) : (sendLeaf tag leaf s).renewed = s.renewed :=
  (formPairs_renewed ..).trans (distribute_renewed s ..)

theorem sendLeaves_renewed : (sendLeaves s).renewed = s.renewed := by
  refine foldl_renewed s _ (fun t p => ?_) _
  split
  · exact sendLeaf_renewed t ..
  · rfl

theorem sendLeaves_turn : (sendLeaves s).turn = s.turn := by
  refine foldl_turn s _ (fun t p => ?_) _
  split
  · exact sendLeaf_turn t ..
  · rfl

end

/-- `t` differs from `s` in the skein, its counters and the list of shards only. -/
def ShardsOnly (s t : State) : Prop :=
  ∃ skein skn shards, t = { s with skein := skein, skn := skn, reel := { s.reel with shards := shards } }

namespace ShardsOnly
variable {s t u : State}

theorem refl (s : State) : ShardsOnly s s := ⟨_, _, _, rfl⟩

theorem trans (h : ShardsOnly s t) (h' : ShardsOnly t u) : ShardsOnly s u := by
  obtain ⟨_, _, _, rfl⟩ := h
  obtain ⟨skein, skn, shards, rfl⟩ := h'
  exact ⟨skein, skn, shards, rfl⟩

theorem ite {c : Prop} [Decidable c] (ht : ShardsOnly s t) (hu : ShardsOnly s u) : ShardsOnly s (if c then t else u) := by
  split
  · exact ht
  · exact hu

theorem foldl {α : Type} {f : State → α → State} (h : ∀ s x, ShardsOnly s (f s x)) (l : List α) (s : State) :
    ShardsOnly s (l.foldl f s) := by
  induction l generalizing s with
  | nil => exact refl s
  | cons x xs ih => exact (h s x).trans (ih _)

end ShardsOnly

section
variable (s : State)

theorem initVector_shardsOnly (l : Layer) (slot : Nat) : ShardsOnly s (initVector l slot s) := by
  refine .ite ?_ (.refl s)
  dsimp only
  split
  · exact ⟨_, _, _, rfl⟩
  · exact .refl s

theorem initVectors_shardsOnly : ShardsOnly s (initVectors s) := by
  unfold initVectors
  split
  · exact .foldl (fun t l => (initVector_shardsOnly t l 1).trans (initVector_shardsOnly _ l 2)) _ s
  · exact .refl s

/-- The state header of one region of a shard is cleared. -/
def clearHeader (tag kind : Nat) (t : State) : State :=
  match shardRegion t kind tag with
  | some e => t.putSkeinWords e.addr (List.replicate 64 0)
  | none => t

theorem clearHeader_shardsOnly (tag kind : Nat) : ShardsOnly s (clearHeader tag kind s) := by
  unfold clearHeader
  split
  · exact ⟨_, _, _, rfl⟩
  · exact .refl s

/-- A shard starts with its headers clear and its values on side A (R249, R403). -/
theorem startShard_eq (p : Hank) (b : ShardBuf) :
    startShard p b s = (putSide p false b (clearHeader p.tag 11 (clearHeader p.tag 10 (clearHeader p.tag 9 s)))).onReel fun r =>
      { r with shards := r.shards ++ [⟨p.tag, false, false, [], leafOf p.tag b.w, 0, 0⟩] } := rfl

theorem startShard_shardsOnly (p : Hank) (b : ShardBuf) : ShardsOnly s (startShard p b s) := by
  have side (t : State) : ShardsOnly t (putSide p false b t) := ⟨_, _, _, putSide_eq p false b t⟩
  have headers := ((clearHeader_shardsOnly s p.tag 9).trans (clearHeader_shardsOnly _ p.tag 10)).trans (clearHeader_shardsOnly _ p.tag 11)
  rw [startShard_eq]
  exact (headers.trans (side _)).trans ⟨_, _, _, rfl⟩

theorem restoreShards_shardsOnly (im : Image) (b : Bundle) : ShardsOnly s (restoreShards im b s) := by
  have empties : ShardsOnly s (s.onReel fun r => { r with shards := [] }) := ⟨_, _, _, rfl⟩
  refine empties.trans (.foldl (fun t p => ?_) _ _)
  split
  · exact startShard_shardsOnly t ..
  · exact .refl t

/-- The emission that ends a restore, and its event, leave the turn and what the restore brings. -/
theorem emission_leaves (c : Half) (payload : List Nat) :
    (raise c payload (sendLeaves (emitOwn (awaitParams s)))).turn = s.turn ∧
      (raise c payload (sendLeaves (emitOwn (awaitParams s)))).renewed = s.renewed := by
  have event := raise_tellsOnly c payload (sendLeaves (emitOwn (awaitParams s)))
  constructor
  · rw [event.turn, sendLeaves_turn, emitOwn_turn, awaitParams_turn]
  · rw [event.renewed, sendLeaves_renewed, emitOwn_renewed]
    rfl

/-- The blocks that a restore takes from the record, before the shards (R403). -/
def recordTaken (im : Image) (b : Bundle) (s : State) : State :=
  { s with
    nep := { s.nep with seed := unsealed s b.job }
    num := restoreNum b.job s.num
    stp := { s.stp with stepIndex := b.job.index 3, batch := b.job.index 5, nextSettled := true, nextReason := 3, execRecords := [] }
    reel := restoreReel s im b (b.job.index 3) s.reel
    ply := { s.ply with ckptOp := 2, ckptAccepted := true, ckptCause := 0, suspects := [], excluded := [] } }

theorem restoreFrom_eq (im : Image) (b : Bundle) :
    restoreFrom im b s = raiseExec 0x2131 [b.job.index 3, b.job.index 5]
      (sendLeaves (emitOwn (awaitParams (initVectors (restoreShards im b (recordTaken im b s)))))) := rfl

/-- A restored state shows an accepted restore, has the seed, step and batch of the record, and the next step settled for reason 3. -/
structure Restored (s : State) (b : Bundle) (t : State) : Prop where
  op : t.ply.ckptOp = 2
  accepted : t.ply.ckptAccepted = true
  seed : t.nep.seed = unsealed s b.job
  stepIndex : t.stp.stepIndex = b.job.index 3
  batch : t.stp.batch = b.job.index 5
  settled : t.stp.nextSettled = true
  reason : t.stp.nextReason = 3
  initialised : t.reel.initialised = true
  acc : t.acc = s.acc
  spool : t.spool = s.spool
  flash : t.flash = s.flash

theorem restoreFrom_restored (im : Image) (b : Bundle) : Restored s b (restoreFrom im b s) := by
  obtain ⟨skein, skn, shards, brings⟩ := (restoreShards_shardsOnly (recordTaken im b s) im b).trans (initVectors_shardsOnly _)
  rw [restoreFrom_eq, brings, raiseExec]
  generalize ([b.job.index 3, b.job.index 5] ++ _ : List Nat) = payload
  obtain ⟨turn, renewed⟩ := emission_leaves
    { recordTaken im b s with skein := skein, skn := skn, reel := { (recordTaken im b s).reel with shards := shards } } 0x2131 payload
  simp only [State.turn, State.renewed, Prod.mk.injEq] at turn renewed
  obtain ⟨batch, stepIndex, -, -, -, nextSettled, -, -, ply, -, -, acc, spool, flash⟩ := turn
  obtain ⟨nep, nextReason, initialised⟩ := renewed
  exact ⟨congrArg PlyBlk.ckptOp ply, congrArg PlyBlk.ckptAccepted ply, congrArg NepBlk.seed nep, stepIndex, batch, nextSettled, nextReason,
    initialised, acc, spool, flash⟩

end

-- The copies (R347, R348, R366, R367).

section
variable {isIn p : Bool} {k : Desc → Nat → State → State} {d : Desc} {ds : List Desc} {s : State}

theorem copyType_carried (isIn : Bool) : carries 1 (copyType isIn) = true := by cases isIn <;> rfl

theorem copyType_beq (isIn : Bool) : (copyType isIn == 0x10) = isIn := by cases isIn <;> rfl

theorem copyRun_refused {x : Nat × Nat} (turn : AtTurn 1 d ds s) (type : d.type = copyType isIn)
    (fails : firstStatus (copyChecks s d isIn p) = some x) : copyRun isIn p k s = refuseHead 1 x.1 x.2 s := by
  rw [copyRun_head (.inl turn.free), atHead_ownRow turn (type ▸ copyType_carried isIn) type, copyStart, checkedHead_refused fails]

/-- Advancing the copy that runs. -/
theorem copyRun_goesOn (on : (s.queue 1).st = .enabled) (units : unitsRun s = true) (running : (s.queue 1).running = some d)
    (type : d.type = copyType isIn) : copyRun isIn p k s = k d (s.queue 1).moved s := by
  rw [copyRun_running on units running, if_pos (by rw [type, copyType_beq])]

/-- A copy that starts runs from its first byte. -/
theorem copyRun_starts (turn : AtTurn 1 d ds s) (type : d.type = copyType isIn) (passes : firstStatus (copyChecks s d isIn p) = none) :
    copyRun isIn p k s = copyRun isIn p k (s.onQueue 1 fun y => { y with fetched := ds, running := some d, moved := 0 }) := by
  have first : (s.onQueue 1 fun y => { y with fetched := y.fetched.drop 1, running := some d, moved := 0 }) =
      s.onQueue 1 fun y => { y with fetched := ds, running := some d, moved := 0 } :=
    State.onQueue_congr (by rw [turn.fetched]; rfl)
  have runs : copyRun isIn p k (s.onQueue 1 fun y => { y with fetched := ds, running := some d, moved := 0 }) = k d 0 _ :=
    copyRun_goesOn turn.enabled turn.units rfl type
  rw [copyRun_head (.inl turn.free), atHead_ownRow turn (type ▸ copyType_carried isIn) type, copyStart, checkedHead_passed passes, first,
    runs]

/-- The end of a copy completes it, and the queue runs none. -/
theorem endCopy_rest (d : Desc) (c : Compl) (s : State) : ∃ tel,
    endCopy d c s = { s.onQueue 1 (fun y => { y with running := none, moved := 0 }) with tel := tel } ∧ Reported s.tel tel :=
  ⟨_, complete_tel .., complete_reported 1 d c (s.onQueue 1 fun y => { y with running := none, moved := 0 })⟩

/-- The bytes that have moved are noted, and the last of them end the copy. -/
theorem copyMoved_rest (d : Desc) (n : Nat) (s : State) : ∃ tel weft, copyMoved d n s = { s with tel := tel, weft := weft } ∧
    Reported s.tel tel ∧ ((copyMoved d n s).queue 1).fetched = (s.queue 1).fetched ∧
    (n < copyBytes d → (copyMoved d n s).queue 1 = { s.queue 1 with moved := n }) ∧
    (copyBytes d ≤ n → ((copyMoved d n s).queue 1).running = none) := by
  unfold copyMoved
  split
  case isTrue all =>
    obtain ⟨tel, ends, reports⟩ := endCopy_rest d { status := 0, bytes := copyBytes d, batch := s.stp.batch } s
    rw [ends]
    exact ⟨tel, _, rfl, reports, rfl, fun more => absurd all (Nat.not_le.2 more), fun _ => rfl⟩
  case isFalse more => exact ⟨s.tel, _, rfl, .refl s.tel, rfl, fun _ => rfl, fun all => absurd all more⟩

theorem windowWrite_rest (off : Nat) (bs : List Byte) (s : State) :
    ∃ skn, windowWrite off bs s = { s with skein := writePlaces (windowRange off bs.length) bs s.skein, skn := skn } := ⟨_, rfl⟩

/-- Bytes that find no error on their way stand in the window range, and the copy goes on from there. -/
theorem copyInRun_rest {data bs : List Byte} {m : Nat} (d : Desc) (s : State) (taken : bs = data.take (copyBytes d - m)) :
    ∃ tel weft skn, copyInRun data false none d m s =
        { s with tel := tel, weft := weft, skn := skn
                 skein := writePlaces (windowRange (nat64 d.words 4 + m) bs.length) bs s.skein } ∧
      ((copyInRun data false none d m s).queue 1).fetched = (s.queue 1).fetched ∧
      (m + bs.length < copyBytes d → (copyInRun data false none d m s).queue 1 = { s.queue 1 with moved := m + bs.length }) ∧
      (copyBytes d ≤ m + bs.length → ((copyInRun data false none d m s).queue 1).running = none) := by
  have run : copyInRun data false none d m s = copyMoved d (m + bs.length) (windowWrite (nat64 d.words 4 + m) bs s) := by
    rw [taken]
    rfl
  obtain ⟨skn, write⟩ := windowWrite_rest (nat64 d.words 4 + m) bs s
  obtain ⟨tel, weft, moves, -, queue⟩ := copyMoved_rest d (m + bs.length)
    { s with skein := writePlaces (windowRange (nat64 d.words 4 + m) bs.length) bs s.skein, skn := skn }
  rw [run, write]
  exact ⟨tel, weft, skn, moves, queue⟩

/-- What a COPY_OUT reads goes to the host; the lines that it could not read do not. -/
theorem copyOutRun_rest {b n m : Nat} {e : Option UnitError} {data : Option (List Byte)} {d : Desc} {s x : State}
    (count : n = min b (copyBytes d - m)) (takes : windowTake e (nat64 d.words 4 + m) n s = (x, data)) :
    ∃ tel weft, copyOutRun b e d m s = { x with tel := tel, weft := weft } ∧
      (∀ bs, data = some bs → ⟨nat64 d.words 2 + m, bs⟩ ∈ tel.hostWrites) ∧
      (m + n < copyBytes d → (copyOutRun b e d m s).queue 1 = { x.queue 1 with moved := m + n }) ∧
      (copyBytes d ≤ m + n → ((copyOutRun b e d m s).queue 1).running = none) := by
  cases data with
  | none =>
    obtain ⟨tel, weft, moves, -, -, queue⟩ := copyMoved_rest d (m + n) x
    rw [copyOutRun, ← count, takes]
    exact ⟨tel, weft, moves, fun _ bytes => (nomatch bytes), queue⟩
  | some bs =>
    obtain ⟨tel, weft, moves, reports, -, queue⟩ := copyMoved_rest d (m + n) (hostWrite (nat64 d.words 2 + m) bs x)
    rw [copyOutRun, ← count, takes]
    refine ⟨tel, weft, moves, fun _ same => ?_, queue⟩
    obtain rfl := Option.some.inj same
    exact reports.writes (hostWrite_mem ..)

/-- Poisoned data ends the copy; what it has written stays. -/
theorem copyInRun_poisoned (data : List Byte) (e : Option UnitError) (d : Desc) (m : Nat) (s : State) : ∃ tel weft,
    copyInRun data true e d m s = { s with tel := tel, weft := weft } ∧ ((copyInRun data true e d m s).queue 1).running = none := by
  obtain ⟨told, tells⟩ := (countErr_tellsOnly (queueBase 1 + 0x30) s).trans (raise_tellsOnly 0x5021 [1, d.slot, 0x10, 2] _)
  obtain ⟨tel, ends, -⟩ := endCopy_rest d { status := 0x10, detail := 2, bytes := m, batch := s.stp.batch } { s with tel := told }
  rw [copyInRun, if_pos rfl, tells, ends]
  exact ⟨tel, _, rfl, rfl⟩

/-- A guarded window range is refused to COPY_IN with WINDOW_BUSY, where no status before it applies (R285). -/
theorem copyChecks_guarded (h : guarded s (nat64 d.words 4) (copyBytes d) = true) :
    ∃ st det, firstStatus (copyChecks s d true false) = some (st, det) ∧ st ≤ 0x14 :=
  firstStatus_upTo (0x14, failIf (true && guarded s (nat64 d.words 4) (copyBytes d))) [] (by simp [failIf, h]) le_rfl [_, _, _] (by simp)

end

end Sys2Proof.Machine
end

section
/-! INFER, CKPT_SAVE, CKPT_RESTORE and the copies as rows (family 11). -/

namespace Sys2Proof.Machine

section
variable {d : Desc} {ds : List Desc} {s : State}

/-- A row of queue 0 that meets a descriptor of its own type is what the row does with that descriptor. -/
theorem next_atHead_ownRow {ty : Nat} {k : Desc → State → State} (turn : AtTurn 0 d ds s) (type : d.type = ty)
    (carried : carries 0 ty = true) : (.next (atHead 0 ty k s) : Out) = .next (k d s) :=
  congrArg Host.Outcome.next (atHead_ownRow turn (type ▸ carried) type)

theorem exec_infer {a t r : List Word} {p : Option Nat} {e : Option UnitError} (turn : AtTurn 0 d ds s) (type : d.type = 2)
    (step : s.stp.inStep = false) (desc : s.stp.desc = none) (on : arithmeticOn s = true) :
    exec (.infer a t r p e) s =
      .next (checkedHead 0 (inferChecks s d (inferIn d a t p) r) (runInfer d (inferIn d a t p) r e) s) :=
  (next_atHead_ownRow turn type rfl).trans (congrArg _ (inferHead_idle step desc on))

/-- An accepted INFER writes its result lines and completes; without a key error it leaves the step controller too. -/
theorem exec_infer_accepted {a t r : List Word} {p : Option Nat} {e : Option UnitError} (turn : AtTurn 0 d ds s) (type : d.type = 2)
    (step : s.stp.inStep = false) (desc : s.stp.desc = none) (on : arithmeticOn s = true)
    (passes : firstStatus (inferChecks s d (inferIn d a t p) r) = none) (usable : e = none ∨ ∃ g k, e = some (.nepKey g k)) :
    ∃ u, exec (.infer a t r p e) s = .next u ∧ (u.queue 0).fetched = ds ∧ (∃ data, ⟨nat64 d.words 11, data⟩ ∈ u.tel.hostWrites ∧
        data.length = (16 * wfield (wordAt d.words 2) 31 16 + 63) / 64 * 64) ∧
      (e = none → u = { s with tel := u.tel, out := u.out, weft := u.weft }) ∧
      u = { s with tel := u.tel, out := u.out, weft := u.weft, stp := u.stp } := by
  rw [exec_infer turn type step desc on, checkedHead_passed passes]
  obtain ⟨tel, weft, stp, data, runs, clean, written, length, left⟩ := runInfer_rest usable d (inferIn d a t p) r s
  rw [turn.fetched] at left
  refine ⟨_, rfl, left, ?_⟩
  rw [runs]
  exact ⟨⟨data, written, length⟩, fun noError => by rw [clean noError], rfl⟩

theorem exec_ckptSave {e : Option UnitError} (turn : AtTurn 0 d ds s) (type : d.type = 4) : exec (.ckptSave e) s = .next (saveHead e d s) :=
  next_atHead_ownRow turn type rfl

theorem exec_ckptRestore {buf : List Byte} {p : Bool} (turn : AtTurn 0 d ds s) (type : d.type = 5) :
    exec (.ckptRestore buf p) s = .next (restoreHead buf p d s) :=
  next_atHead_ownRow turn type rfl

/-- A restore whose buffer fails a check of R402 leaves the cause in the status registers and completes. -/
theorem exec_ckptRestore_refused {buf : List Byte} {p : Bool} {im : Image} {c : Nat} (turn : AtTurn 0 d ds s) (type : d.type = 5)
    (image : s.warp.image = some im) (passes : firstStatus (restoreChecks s p d) = none)
    (cause : restoreCause s im (fit (nat64 d.words 4) buf) = some c) :
    ∃ t, exec (.ckptRestore buf p) s = .next t ∧ t.ply.ckptOp = 2 ∧ t.ply.ckptAccepted = false ∧ t.ply.ckptCause = c ∧
      (t.queue 0).fetched = ds ∧ t = { s with tel := t.tel, out := t.out, weft := t.weft, ply := t.ply } := by
  rw [exec_ckptRestore turn type, restoreHead_refused image passes cause]
  obtain ⟨told, tells⟩ := countSigFail_tellsOnly (manifestFails im (fit (nat64 d.words 4) buf)) s
  rw [tells]
  obtain ⟨tel, weft, refuses, left⟩ := refuseRestore_rest c { s with tel := told }
  have head : (State.queue { s with tel := told } 0).fetched = d :: ds := turn.fetched
  rw [head] at left
  refine ⟨_, rfl, ?_, ?_, ?_, left, ?_⟩ <;> rw [refuses]

/-- One that passes them all brings the record's job and completes. -/
theorem exec_ckptRestore_accepted {buf : List Byte} {p : Bool} {im : Image} {b : Bundle} (turn : AtTurn 0 d ds s) (type : d.type = 5)
    (image : s.warp.image = some im) (passes : firstStatus (restoreChecks s p d) = none)
    (sound : restoreCause s im (fit (nat64 d.words 4) buf) = none) (bundle : readBundle im (fit (nat64 d.words 4) buf) = some b) :
    ∃ t, exec (.ckptRestore buf p) s = .next t ∧ Restored s b t := by
  rw [exec_ckptRestore turn type, restoreHead_accepted image passes sound bundle]
  have restored := restoreFrom_restored s im b
  generalize restoreFrom im b s = w at restored ⊢
  obtain ⟨op, accepted, seed, stepIndex, batch, settled, reason, initialised, acc, spool, flash⟩ := restored
  obtain ⟨tel, weft, completes, -, -⟩ := completeHead_rest 0 { status := 0, batch := s.stp.batch } w
  rw [completes]
  exact ⟨_, rfl, ⟨op, accepted, seed, stepIndex, batch, settled, reason, initialised, acc, spool, flash⟩⟩

theorem exec_copyIn {data : List Byte} {p : Bool} {e : Option UnitError} (lines : wholeLinesLong data.length = true) :
    exec (.copyIn data p e) s = .next (copyRun true p (copyInRun data p e) s) := if_pos lines

theorem exec_copyOut {n : Nat} {e : Option UnitError} (lines : wholeLinesLong n = true) :
    exec (.copyOut n e) s = .next (copyRun false false (copyOutRun n e) s) := if_pos lines

/-- A copy at the head is refused, or starts from its first byte. -/
theorem copyRun_start_rows {isIn p : Bool} {k : Desc → Nat → State → State} (turn : AtTurn 1 d ds s) (type : d.type = copyType isIn) :
    (∀ st det, firstStatus (copyChecks s d isIn p) = some (st, det) → (.next (copyRun isIn p k s) : Out) = .next (refuseHead 1 st det s)) ∧
      (firstStatus (copyChecks s d isIn p) = none → (.next (copyRun isIn p k s) : Out) =
        .next (copyRun isIn p k (s.onQueue 1 fun y => { y with fetched := ds, running := some d, moved := 0 }))) :=
  ⟨fun st det fails => by rw [copyRun_refused turn type fails], fun passes => by rw [← copyRun_starts turn type passes]⟩

/-- An accepted CKPT_SAVE seals under an enrolled key, and completes, or is refused where BYTES is too small. -/
theorem exec_ckptSave_seals {e : Option UnitError} {x : State} {im : Image} (turn : AtTurn 0 d ds s) (type : d.type = 4)
    (saves : SaveTurn d s) (can : CanSave s) (read : readShards e s = (x, true)) (image : x.warp.image = some im)
    (keys : x.flash.sealKeys ≠ []) :
    ∃ key t, key ∈ x.flash.sealKeys ∧ t = { x with freeCtr := t.freeCtr } ∧
      (nat64 d.words 4 < (checkpoint t im key).length →
        exec (.ckptSave e) s = .next (refuseHead 0 0x13 (checkpoint t im key).length t)) ∧
      ((checkpoint t im key).length ≤ nat64 d.words 4 → ∃ u, exec (.ckptSave e) s = .next u ∧ u.ply.ckptOp = 1 ∧
        u.ply.ckptAccepted = true ∧ (x.queue 0 = s.queue 0 → (u.queue 0).fetched = ds) ∧
        u = { x with tel := u.tel, out := u.out, weft := u.weft, ply := u.ply, freeCtr := u.freeCtr }) := by
  obtain ⟨key, enrolled, sealing⟩ := sealKey_enrolled keys
  have row := (exec_ckptSave turn type).trans (congrArg Host.Outcome.next (saveHead_sealed saves can read image sealing))
  refine ⟨key, { x with freeCtr := x.freeCtr + 1 }, enrolled, rfl, fun short => ?short, fun fits => ?fits⟩
  case short => rw [row, if_pos short]
  case fits =>
    rw [row, if_neg (Nat.not_lt.2 fits)]
    obtain ⟨tel, weft, writes, fetched⟩ := writeCheckpoint_rest d (checkpoint { x with freeCtr := x.freeCtr + 1 } im key)
      { x with freeCtr := x.freeCtr + 1 }
    refine ⟨_, rfl, by rw [writes], by rw [writes], fun same => ?_, by rw [writes]⟩
    have head : (x.queue 0).fetched = d :: ds := by rw [same, turn.fetched]
    exact fetched.trans (congrArg List.tail head)

end

/-- Settles O52: each row reaches the head of its queue by `atHead` or `copyRun`, and what it then does is one lemma per descriptor; an
accepted restore is `Restored`, and a copy that runs is what `copyMoved_rest` says of its bytes. -/
theorem descriptorDataRows : Obligations.DescriptorDataRows := by
  unfold Obligations.DescriptorDataRows
  intro s d ds
  refine ⟨fun fetched enabled units free => ⟨fun a b r p e type step desc on => ?infer,
      fun type step desc scales e digest fields loaded => ?save, fun buf p im type image => ?restore⟩,
    fun fetched enabled units free u e hu => ⟨fun data p lines type => ?startIn, fun n lines type => ?startOut⟩,
    fun m running enabled units moved => ⟨fun data bs lines type hbs => ?copyIn, fun data e lines type => ?poisoned,
      fun b n e x data lines type hn takes same => ?copyOut⟩,
    copyChecks_guarded⟩
  case infer =>
    have turn : AtTurn 0 d ds s := ⟨fetched, enabled, units, free⟩
    exact ⟨fun st det fails => by rw [exec_infer turn type step desc on, checkedHead_refused fails],
      fun passes usable => exec_infer_accepted turn type step desc on passes usable⟩
  case save =>
    have turn : AtTurn 0 d ds s := ⟨fetched, enabled, units, free⟩
    have saves : SaveTurn d s := ⟨step, desc, scales, digest, fields, loaded⟩
    refine ⟨fun lacks => by rw [exec_ckptSave turn type, saveHead_cannot saves lacks], fun x ok read seed job keys => ⟨fun lost => ?_,
      fun im good image keys' => ?_⟩⟩
    · rw [exec_ckptSave turn type, saveHead_unread saves ⟨seed, job, keys⟩ (lost ▸ read)]
    · exact exec_ckptSave_seals turn type saves ⟨seed, job, keys⟩ (good ▸ read) image keys'
  case restore =>
    have turn : AtTurn 0 d ds s := ⟨fetched, enabled, units, free⟩
    refine ⟨fun st det fails => by rw [exec_ckptRestore turn type, restoreHead, checkedHead_refused fails],
      fun passes => ⟨fun c cause => exec_ckptRestore_refused turn type image passes cause, fun b sound bundle => ?_⟩⟩
    obtain ⟨t, row, op, accepted, seed, stepIndex, batch, settled, reason, initialised, acc, spool, flash⟩ :=
      exec_ckptRestore_accepted turn type image passes sound bundle
    exact ⟨t, row, op, accepted, seed, stepIndex, batch, settled, reason, initialised, acc, spool, flash⟩
  case startIn =>
    rw [exec_copyIn lines, exec_copyIn lines, hu]
    exact copyRun_start_rows (isIn := true) ⟨fetched, enabled, units, free⟩ type
  case startOut =>
    rw [exec_copyOut lines, exec_copyOut lines, hu]
    exact copyRun_start_rows (isIn := false) ⟨fetched, enabled, units, free⟩ type
  case copyIn =>
    rw [exec_copyIn lines, copyRun_goesOn (isIn := true) enabled units running type, moved]
    obtain ⟨tel, weft, skn, runs, left, more, all⟩ := copyInRun_rest d s hbs
    refine ⟨_, rfl, by rw [runs], fun short => ?_, all, left, by rw [runs]⟩
    rw [more short]
    exact ⟨running, rfl⟩
  case poisoned =>
    rw [exec_copyIn lines, copyRun_goesOn (isIn := true) enabled units running type]
    obtain ⟨tel, weft, ends, idle⟩ := copyInRun_poisoned data e d (s.queue 1).moved s
    exact ⟨_, rfl, idle, by rw [ends]⟩
  case copyOut =>
    rw [exec_copyOut lines, copyRun_goesOn (isIn := false) enabled units running type, moved]
    obtain ⟨tel, weft, runs, written, more, all⟩ := copyOutRun_rest hn takes
    refine ⟨_, rfl, by rw [runs]; exact written, fun short => ?_, all, by rw [runs]⟩
    rw [more short, same]
    exact ⟨running, rfl⟩

end Sys2Proof.Machine
end

section
/-! What leaves the queue and module flash (families 12 to 15): operations that earlier families had no such lemma for. -/

namespace Sys2Proof.Machine

/-- A fold over a state carried beside other data leaves the queue and module flash where each of its steps does. -/
theorem foldl_pair_lead {α β : Type} (p : β → State) (f : β → α → β) (h : ∀ x a, (p (f x a)).lead = (p x).lead) (l : List α) (x : β) :
    (p (l.foldl f x)).lead = (p x).lead :=
  List.foldlRecOn (motive := fun y => (p y).lead = (p x).lead) l f rfl fun y hy a _ => (h y a).trans hy

-- Skein reads (R292, R302, R306).

@[simp] theorem uncorrectable_lead (addr cls : Nat) (s : State) : (uncorrectable addr cls s).lead = s.lead := by
  unfold uncorrectable
  dsimp only
  split
  · simp
  · split <;> simp

@[simp] theorem decodeWord_lead (cls : Nat) (x : State × Bool) (w : Nat × Ecc) : (decodeWord cls x w).1.lead = x.1.lead := by
  unfold decodeWord
  split
  · simp
  · split <;> simp

@[simp] theorem decodeRead_lead (cls addr len : Nat) (ecc : List Ecc) (s : State) : (decodeRead cls addr len ecc s).1.lead = s.lead :=
  foldl_pair_lead Prod.fst _ (decodeWord_lead cls) _ _

@[simp] theorem skeinTake_lead (cls addr n : Nat) (s : State) : (skeinTake cls addr n s).1.lead = s.lead := by
  unfold skeinTake
  split <;> simp

@[simp] theorem skeinTakes_lead (cls : Nat) (ps : List (Nat × Nat)) (s : State) : (skeinTakes cls ps s).1.lead = s.lead := by
  refine foldl_pair_lead Prod.fst _ (fun x p => ?_) _ _
  exact skeinTake_lead cls p.1 p.2 x.1

@[simp] theorem skeinRead_lead (q : SkeinReq) (s : State) : (skeinRead q s).lead = s.lead := by
  unfold skeinRead
  split <;> simp

@[simp] theorem sramRead_lead (l : Loc) (ecc : List Ecc) (s : State) : (sramRead l ecc s).1.lead = s.lead := by
  unfold sramRead
  dsimp only
  split <;> simp

theorem fromSram_lead (len : Nat) (src : Loc) (ecc : List Ecc) (k : List Byte → State → State) (s : State)
    (hk : ∀ bs t, (k bs t).lead = t.lead) : (fromSram len src ecc k s).lead = s.lead := by
  simp [fromSram, hk]

@[simp] theorem serveRequest_lead (q : SkeinReq) (s : State) : (serveRequest q s).lead = s.lead := by
  unfold serveRequest
  split
  · simp
  · split
    · simp
    · exact fromSram_lead _ _ _ _ _ fun _ _ => skeinWrite_lead ..
    · exact fromSram_lead _ _ _ _ _ fun _ _ => State.storeAt_lead ..
    · simp

@[simp] theorem skeinRequest_lead (q : SkeinReq) (s : State) : (skeinRequest q s).lead = s.lead := by
  simp [skeinRequest]

@[simp] theorem skeinTick_lead (s : State) : (skeinTick s).lead = s.lead := by
  simp [skeinTick]

@[simp] theorem tick_lead (s : State) : (tick s).lead = s.lead := by
  simp [tick]

@[simp] theorem cxlRead_lead (off len : Nat) (ecc : List Ecc) (parity : Option (Fin 8)) (s : State) :
    (cxlRead off len ecc parity s).lead = s.lead := by
  simp [cxlRead]

@[simp] theorem scrubWord_lead (addr : Nat) (kind : ScrubKind) (s : State) : (scrubWord addr kind s).lead = s.lead := by
  unfold scrubWord
  split <;> simp

@[simp] theorem engineError_lead (cls cluster : Nat) (e : Option UnitError) (s : State) : (engineError cls cluster e s).1.lead = s.lead := by
  unfold engineError
  split <;> simp

-- The bobbin (R187 to R194).

@[simp] theorem takeGrain_lead (stage : Nat) (g : Grain) (s : State) : (takeGrain stage g s).1.lead = s.lead := by
  unfold takeGrain
  split <;> simp

@[simp] theorem takeGrains_lead (stage : Nat) (gs : List Grain) (s : State) : (takeGrains stage gs s).1.lead = s.lead := by
  refine foldl_pair_lead Prod.fst _ (fun x g => ?_) _ _
  exact takeGrain_lead stage g x.1

@[simp] theorem takePieces_lead (ps : List (Loc × Nat)) (s : State) : (takePieces ps s).1.lead = s.lead := by
  refine foldl_pair_lead Prod.fst _ (fun x p => ?_) _ _
  dsimp only
  split <;> simp

@[simp] theorem pushRecord_lead (l : Layer) (mb : Nat) (p : PushSpec) (s : State) : (pushRecord l mb p s).lead = s.lead := by
  unfold pushRecord
  split
  · rfl
  · dsimp only
    split
    · rfl
    · split <;> simp

@[simp] theorem prefetchGrain_lead (stage number i : Nat) (s : State) : (prefetchGrain stage number i s).lead = s.lead := by
  unfold prefetchGrain
  split
  · rfl
  · split
    · rfl
    · split
      · split
        · rfl
        · dsimp only
          split <;> simp
      · rfl

@[simp] theorem prefetchNext_lead (stage mb : Nat) (s : State) : (prefetchNext stage mb s).lead = s.lead := by
  unfold prefetchNext
  split <;> simp

@[simp] theorem popRecord_lead (stage mb layer : Nat) (dst : Loc) (damage : List Word) (err : Option UnitError) (s : State) :
    (popRecord stage mb layer dst damage err s).lead = s.lead := by
  unfold popRecord
  split
  · rfl
  · split
    · dsimp only
      split <;> simp
    · rfl

-- Shards, stream keys and writes (R97, R145, R200, R270).

@[simp] theorem readShard_lead (p : Hank) (s : State) : (readShard p s).1.lead = s.lead := skeinTakes_lead 3 _ s

@[simp] theorem keyError_lead (e : Option UnitError) (s : State) : (keyError e s).lead = s.lead := engineError_lead 3 tableUnit e s

@[simp] theorem streamDraws_lead (id : Word) (core n : Nat) (coord : Nat → Nat × Nat × Nat) (s : State) :
    (streamDraws id core n coord s).2.lead = s.lead := by
  unfold streamDraws
  split
  · rfl
  · split <;> rfl

theorem writeNarrowRow_lead (w : Writer) (d : NarrowDest) (c : Layer) (wf : WriteFmt) (x : Wrote × Counts) (p : List Word × Nat) :
    (writeNarrowRow w d c wf x p).1.st.lead = x.1.st.lead := by
  unfold writeNarrowRow
  dsimp only
  split <;> simp

@[simp] theorem writeNarrow_lead (w : Writer) (d : NarrowDest) (rows : List (List Word)) (x : Wrote) :
    (writeNarrow w d rows x).st.lead = x.st.lead := by
  unfold writeNarrow
  split
  · rfl
  · split
    · rfl
    · dsimp only
      rw [countFor_lead]
      exact foldl_pair_lead (fun y : Wrote × Counts => y.1.st) _ (writeNarrowRow_lead w d _ _) _ _

@[simp] theorem writeWide_lead (half : Bool) (base : Loc) (stride : Nat) (rows : List (List Word)) (x : Wrote) :
    (writeWide half base stride rows x).st.lead = x.st.lead :=
  foldl_pair_lead Wrote.st _ (fun _ _ => State.storeAt_lead ..) _ _

@[simp] theorem drainDest_lead (d : DrainSpec) (w : TileWork) (l : Layer) (rows pre : List (List Word)) (x : Wrote) (dest : Dest) :
    (drainDest d w l rows pre x dest).st.lead = x.st.lead := by
  cases dest <;> simp [drainDest]

-- Engine tiles, and what follows the work of an engine or a whorl (R116 to R140).

@[simp] theorem loadStart_lead (a : AccRef) (t : TileWork) (s : State) : (loadStart a t s).lead = s.lead := by
  unfold loadStart
  split
  · rfl
  · rfl
  · split <;> rfl

@[simp] theorem faultTile_lead (on : Bool) (a : AccRef) (s : State) : (faultTile on a s).lead = s.lead := by
  cases on <;> rfl

@[simp] theorem runPart_lead (a : AccRef) (t : TileWork) (l : Layer) (s : State) : (runPart a t l s).lead = s.lead := by
  simp [runPart]

@[simp] theorem slubRun_lead (a : AccRef) (w : TileWork) (l : Layer) (parts : List TileWork) (s : State) :
    (slubRun a w l parts s).lead = s.lead := by
  simp [slubRun]

@[simp] theorem afterWork_lead (l : Layer) (p : Phase) (mb : Nat) (push : Option PushSpec) (ring : Option RingSend) (m : Option RingMove)
    (last : Bool) (before s : State) : (afterWork l p mb push ring m last before s).lead = s.lead := by
  cases push <;> cases ring <;> simp [afterWork]

@[simp] theorem whorlSkein_lead (w : WhorlWork) (s : State) : (whorlSkein w s).1.lead = s.lead := by
  unfold whorlSkein
  split <;> simp

-- Descriptors and checkpoints (R361 to R369, R399 to R403).

@[simp] theorem sampleRequest_lead (id : Word) (logits : List Word) (r : Request) (s : State) : (sampleRequest id logits r s).2.lead = s.lead := by
  unfold sampleRequest
  split <;> simp

@[simp] theorem runInfer_lead (d : Desc) (b : BatchIn) (reqTable : List Word) (err : Option UnitError) (s : State) :
    (runInfer d b reqTable err s).lead = s.lead := by
  unfold runInfer
  rw [completeHead_lead, hostWrite_lead]
  refine (foldl_pair_lead Prod.snd _ (fun acc i => ?_) _ _).trans (keyError_lead err s)
  exact sampleRequest_lead ..

@[simp] theorem inferHead_lead (table tokens reqTable : List Word) (poison : Option Nat) (err : Option UnitError) (d : Desc) (s : State) :
    (inferHead table tokens reqTable poison err d s).lead = s.lead := by
  simp [inferHead]

@[simp] theorem windowPut_lead (err : Option UnitError) (off : Nat) (bs : List Byte) (s : State) : (windowPut err off bs s).lead = s.lead := by
  simp [windowPut]

@[simp] theorem windowTake_lead (err : Option UnitError) (off n : Nat) (s : State) : (windowTake err off n s).1.lead = s.lead := by
  simp [windowTake]

@[simp] theorem copyInRun_lead (data : List Byte) (poisoned : Bool) (err : Option UnitError) (d : Desc) (moved : Nat) (s : State) :
    (copyInRun data poisoned err d moved s).lead = s.lead := by
  simp [copyInRun]

@[simp] theorem copyOutRun_lead (bytes : Nat) (err : Option UnitError) (d : Desc) (moved : Nat) (s : State) :
    (copyOutRun bytes err d moved s).lead = s.lead := by
  unfold copyOutRun
  dsimp only
  split <;> simp

@[simp] theorem sealKey_lead (s : State) : (sealKey s).2.lead = s.lead := by
  unfold sealKey
  split <;> rfl

@[simp] theorem readShards_lead (err : Option UnitError) (s : State) : (readShards err s).1.lead = s.lead := by
  refine (foldl_pair_lead Prod.fst _ (fun x p => ?_) _ _).trans (engineError_lead 3 tableUnit err s)
  exact readShard_lead p x.1

@[simp] theorem saveHead_lead (err : Option UnitError) (d : Desc) (s : State) : (saveHead err d s).lead = s.lead := by
  have sealing (r : State × Bool) : (if r.2 then sealKey r.1 else (none, r.1)).2.lead = r.1.lead := by
    split <;> simp
  refine (ite_lead _ _ _).trans (ite_eq_left_iff.2 fun _ => checkedHead_lead _ _ _ _ fun t => ?_)
  have sealed := (sealing (readShards err t)).trans (readShards_lead err t)
  dsimp only
  split
  next key t1 _ hseal =>
    rw [hseal] at sealed
    exact (checkedHead_lead _ _ _ _ fun _ => writeCheckpoint_lead ..).trans sealed
  next => exact (checkedHead_lead _ _ _ _ fun _ => rfl).trans sealed

@[simp] theorem restoreFrom_lead (im : Image) (b : Bundle) (s : State) : (restoreFrom im b s).lead = s.lead := by
  simp only [restoreFrom, raiseExec_lead, sendLeaves_lead, emitOwn_lead, awaitParams_lead, initVectors_lead, restoreShards_lead]
  rfl

@[simp] theorem restoreHead_lead (buffer : List Byte) (poisoned : Bool) (d : Desc) (s : State) :
    (restoreHead buffer poisoned d s).lead = s.lead := by
  refine checkedHead_lead _ _ _ _ fun t => ?_
  split
  · rfl
  · dsimp only
    split
    · simp
    · split <;> simp

@[simp] theorem readTimeout_lead (q : QueueIx) (table tokens reqTable : List Word) (word : Nat) (s : State) :
    (readTimeout q table tokens reqTable word s).lead = s.lead := by
  unfold readTimeout
  split
  · rfl
  · split <;> simp

-- The registers (R352).

@[simp] theorem writeUnload_lead (cont : Bool) (s : State) : (writeUnload cont s).lead = s.lead := by
  unfold writeUnload
  split
  · simp
  · split <;> simp

@[simp] theorem writeHub_lead (off : Nat) (val : Word) (s : State) : (writeHub off val s).lead = s.lead := by
  have ctrl : (writeWarpCtrl val s).lead = s.lead := by
    unfold writeWarpCtrl
    split <;> simp
  simp [writeHub, ctrl]

@[simp] theorem writeBlock_lead (off : Nat) (val : Word) (s : State) : (writeBlock off val s).lead = s.lead := by
  unfold writeBlock
  cases coreAt off with
  | some c => simp
  | none => cases stackAt off <;> simp

@[simp] theorem writeReg_lead (off : Nat) (val : Word) (s : State) : (writeReg off val s).lead = s.lead := by
  simp [writeReg]

-- The readiness scheduler (R183 to R186).

theorem prefetchCore_lead (cl : ClusterIx) (x : State × List TileWork) (c : CoreIx) : (prefetchCore cl x c).1.lead = x.1.lead := by
  simp [prefetchCore]

@[simp] theorem prefetch_lead (cl : ClusterIx) (ready : List Work) (issued : Work) (s : State) : (prefetch cl ready issued s).lead = s.lead :=
  foldl_pair_lead Prod.fst _ (prefetchCore_lead cl) _ _

end Sys2Proof.Machine
end

section
/-! What of module flash is not changed by detections, carding and the work of the units (families 12 to 15). -/

namespace Sys2Proof.Machine

/-- Of the queue and module flash what few commands change: the queue, the four floors, and the enrolled and revoked keys. -/
def vault (x : List Instr × SecFlash) :=
  (x.1, x.2.floorDistaff, x.2.floorFlyer, x.2.floorSkein, x.2.floorWarp, x.2.warpKeys, x.2.revokedKeys, x.2.sealKeys)

@[simp] theorem ite_vault (c : Prop) [Decidable c] (a b : List Instr × SecFlash) :
    vault (if c then a else b) = if c then vault a else vault b := apply_ite ..

@[simp] theorem foldl_vault {α : Type} (f : State → α → State) (h : ∀ s x, vault (f s x).lead = vault s.lead) (l : List α) (s : State) :
    vault (l.foldl f s).lead = vault s.lead :=
  List.foldlRecOn (motive := fun t => vault t.lead = vault s.lead) l f rfl fun t ht x _ => (h t x).trans ht

/-- Writing module flash leaves the queue, and the rest of `vault` where the write does. -/
theorem onFlash_vault {f : SecFlash → SecFlash} {s : State} (h : vault (s.pending, f s.flash) = vault (s.pending, s.flash)) :
    vault (s.onFlash f).lead = vault s.lead := h

-- Quarantine, detections and carding (R383 to R390).

@[simp] theorem quarantineCore_vault (cause : QCause) (s : State) (c : CoreIx) : vault (quarantineCore cause s c).lead = vault s.lead := by
  unfold quarantineCore
  split
  · rfl
  · rw [raiseExec_lead]; exact onFlash_vault rfl

@[simp] theorem lastingFault_vault (s : State) (u : CardUnit) : vault (lastingFault s u).lead = vault s.lead := by
  cases u <;> simp [lastingFault]

@[simp] theorem selfTestFails_vault (units : List CardUnit) (s : State) : vault (selfTestFails units s).lead = vault s.lead := by
  simp [selfTestFails]

@[simp] theorem intermittent_vault (s : State) (c : CoreIx) : vault (intermittent s c).lead = vault s.lead := by
  simp [intermittent]

@[simp] theorem detect_vault (cores : List CoreIx) (replay later : List CardUnit) (s : State) :
    vault (detect cores replay later s).lead = vault s.lead := by
  simp [detect]

@[simp] theorem plyMismatch_vault (m : Mismatch) (c : Capture) (original checker : CoreIx) (s : State) :
    vault (plyMismatch m c original checker s).lead = vault s.lead := by
  simp [plyMismatch]

@[simp] theorem segmentCheck_vault (w : SegWait) (returned : List Word) (s : State) : vault (segmentCheck w returned s).lead = vault s.lead := by
  unfold segmentCheck
  dsimp only
  split <;> simp

@[simp] theorem cardingEnds_vault (u : CardUnit) (part : CardPart) (s : State) : vault (cardingEnds u part s).lead = vault s.lead := by
  simp [cardingEnds]

-- What protection finds in the units, and the work of tiles and whorls (R116 to R140, R303 to R306).

@[simp] theorem unitError_vault (a : AccRef) (e : UnitError) (s : State) : vault (unitError a e s).lead = vault s.lead := by
  cases e <;> simp [unitError]

@[simp] theorem unitErrors_vault (a : AccRef) (e : Option UnitError) (s : State) : vault (unitErrors a e s).lead = vault s.lead := by
  cases e <;> simp [unitErrors]

@[simp] theorem plyCheck_vault (u : PlyUnit) (rows : Nat → List ORow × List ORow) (re : Option ReExec) (s : State) :
    vault (plyCheck u rows re s).lead = vault s.lead := by
  unfold plyCheck
  split
  · dsimp only
    split
    · simp
    · split
      · simp
      · split <;> simp
  · rfl

@[simp] theorem issueTile_vault (a : AccRef) (t : TileWork) (err : Option UnitError) (s : State) :
    vault (issueTile a t err s).lead = vault s.lead := by
  unfold issueTile
  split
  · rfl
  · simp

@[simp] theorem slubPass_vault (a : AccRef) (err : Option UnitError) (s : State) : vault (slubPass a err s).lead = vault s.lead := by
  unfold slubPass
  split
  · split
    · simp
    · rfl
  · rfl

@[simp] theorem drainTile_vault (d : DrainSpec) (w : TileWork) (l : Layer) (s : State) : vault (drainTile d w l s).lead = vault s.lead := by
  have drained (x : Wrote) (ds : List Dest) (rows pre : List (List Word)) :
      (ds.foldl (drainDest d w l rows pre) x).st.lead = x.st.lead := foldl_pair_lead Wrote.st _ (drainDest_lead d w l rows pre) _ _
  have state (c : Bool) (x y : Wrote) : (if c = true then x else y).st = if c = true then x.st else y.st := apply_ite ..
  simp [drainTile, drained, state]

@[simp] theorem tileDrain_vault (d : DrainSpec) (s : State) : vault (tileDrain d s).lead = vault s.lead := by
  unfold tileDrain
  split
  · dsimp only
    split
    · split <;> simp
    · rfl
  · rfl

@[simp] theorem whorlError_vault (core : CoreIx) (e : Option UnitError) (s : State) : vault (whorlError core e s).lead = vault s.lead := by
  unfold whorlError
  split <;> simp

@[simp] theorem whorlOp_vault (w : WhorlWork) (l : Layer) (s : State) : vault (whorlOp w l s).lead = vault s.lead := by
  have written (x : Wrote) (ds : List NarrowDest) (rows : List (List Word)) (r : Writer) :
      (ds.foldl (fun y nd => writeNarrow r nd rows y) x).st.lead = x.st.lead :=
    foldl_pair_lead Wrote.st _ (fun y nd => writeNarrow_lead r nd rows y) _ _
  simp [whorlOp, written]

@[simp] theorem issueWork_vault (cl : ClusterIx) (err : Option UnitError) (s : State) (w : Work) :
    vault (issueWork cl err s w).lead = vault s.lead := by
  unfold issueWork
  split
  · split <;> simp
  · simp
  · split <;> simp

@[simp] theorem tileIssue_vault (cl : ClusterIx) (ready : List Work) (err : Option UnitError) (s : State) :
    vault (tileIssue cl ready err s).lead = vault s.lead := by
  unfold tileIssue
  split
  · rfl
  · split
    · simp
    · split <;> simp

end Sys2Proof.Machine
end

section
/-! The boot chain and the owner commands, and what they leave of the key store (family 14). -/

namespace Sys2Proof.Machine

-- The boot chain reads the key store, and loses it where its record is not valid (R443, R449).

/-- Module flash with an empty key store. -/
def emptied (f : SecFlash) : SecFlash := { f with warpKeys := [], revokedKeys := [], sealKeys := [] }

/-- `t` has the vault of `s`, or the same with an empty key store. -/
def HeldOrEmptied (s t : State) : Prop :=
  vault t.lead = vault s.lead ∨ vault t.lead = vault (s.onFlash emptied).lead

/-- Emptying the key store of states with one vault leaves them one vault. -/
theorem vault_emptied {s t : State} (h : vault t.lead = vault s.lead) : vault (t.onFlash emptied).lead = vault (s.onFlash emptied).lead :=
  congrArg (fun v => (v.1, v.2.1, v.2.2.1, v.2.2.2.1, v.2.2.2.2.1, ([] : List WarpKey), ([] : List Word), ([] : List (Word × BitVec 256)))) h

theorem HeldOrEmptied.of_left {s t u : State} (h : vault t.lead = vault s.lead) (r : HeldOrEmptied t u) : HeldOrEmptied s u := by
  unfold HeldOrEmptied
  rw [← h, ← vault_emptied h]
  exact r

theorem HeldOrEmptied.of_right {s t u : State} (h : vault u.lead = vault t.lead) (r : HeldOrEmptied s t) : HeldOrEmptied s u := by
  unfold HeldOrEmptied
  rw [h]
  exact r

@[simp] theorem readRecord_lead (kind generation : Nat) (body : List Byte) (o : Option DevRec) (s : State) :
    (readRecord kind generation body o s).2.lead = s.lead := by
  unfold readRecord
  split
  · rfl
  · split <;> simp

/-- What reading the key store's record, valid or not, leaves. -/
theorem storeRead_held (d : Bool × State) : HeldOrEmptied d.2 (if d.1 then d.2 else d.2.onFlash emptied) := by
  split
  · exact .inl rfl
  · exact .inr rfl

theorem readRecords_held (s : State) : HeldOrEmptied s (readRecords s) :=
  ((storeRead_held _).of_right rfl).of_left (by simp)

theorem HeldOrEmptied.ite {s a b : State} {c : Prop} [Decidable c] (ha : HeldOrEmptied s a) (hb : HeldOrEmptied s b) :
    HeldOrEmptied s (if c then a else b) := by
  split
  · exact ha
  · exact hb

theorem startDistaff_held (pufOk : Bool) (s : State) : HeldOrEmptied s (startDistaff pufOk s) := by
  refine HeldOrEmptied.ite ?_ (.inl (by simp))
  refine HeldOrEmptied.of_right (t := readRecords (raiseEarly (s.onMod fun m => { m with bring := .distaff }))) (by simp) ?_
  exact (readRecords_held _).of_left (by simp)

theorem startStage_held (st : BootStage) (stack : StackIx) (pufOk : Bool) (img : List Byte) (s : State) :
    HeldOrEmptied s (startStage st stack pufOk img s) := by
  cases st with
  | distaff => exact startDistaff_held _ _
  | flyer => exact .inl rfl
  | skeinBase => exact .inl (by simp [startStage])

/-- Writing the firmware slots leaves the vault. -/
theorem putSlots_vault (st : BootStage) (x : SecFlash → FwSlots) (s : State) :
    vault (s.onFlash fun f => f.putSlots st (x f)).lead = vault s.lead := by
  cases st <;> rfl

theorem bootFrom_held (st : BootStage) (stack : StackIx) (pufOk slotB : Bool) (img : List Byte) (s : State) :
    HeldOrEmptied s (bootFrom st stack pufOk slotB img s) := by
  unfold bootFrom
  exact (startStage_held ..).of_left (by rw [raise_lead]; exact putSlots_vault st (fun f => { f.slots st with bootedB := slotB }) s)

theorem bootStage_held (st : BootStage) (stack : StackIx) (pufOk : Bool) (s : State) : HeldOrEmptied s (bootStage st stack pufOk s) := by
  have slotted (x : FwSlots) : vault (s.onFlash fun f => f.putSlots st x).lead = vault s.lead := putSlots_vault st (fun _ => x) s
  refine HeldOrEmptied.ite ?_ (HeldOrEmptied.ite ?_ (.inl ?_))
  · exact (bootFrom_held ..).of_left (by simp only [countSigFail_lead, slotted])
  · exact (bootFrom_held ..).of_left (by simp only [countSigFail_lead, raise_lead, State.onSec_lead, slotted])
  · simp only [enterRecovery_lead, countSigFail_lead, raise_lead, State.onSec_lead, slotted]

theorem execBootStageVerified_held (stage : BootStage) (stack : StackIx) (pufOk : Bool) (s : State) :
    ∃ t, execBootStageVerified stage stack pufOk s = .next t ∧ HeldOrEmptied s t := by
  refine ⟨_, rfl, ?_⟩
  split
  · exact .inl rfl
  · split
    · exact bootStage_held ..
    · exact bootStage_held ..
    · split
      · exact .inl rfl
      · exact bootStage_held ..
    · exact .inl rfl

-- Owner commands (R446, R447).

/-- An owner command that is accepted has advanced the command counter before it acts. -/
def spent (s : State) : State := s.onFlash fun f => SecFlash.protect { f with cmdCounter := f.cmdCounter + 1 }

/-- The cause that answers an owner command: that of its envelope, else its own. -/
def answeredCause (opcode : Nat) (e : OwnerEnv) (operands : List (List Byte)) (cause : Nat) (s : State) : Nat :=
  if ownerCause opcode e operands s != 0 then ownerCause opcode e operands s else cause

theorem ownerCommand_accepted {opcode cause opFails : Nat} {e : OwnerEnv} {operands : List (List Byte)} {act : State → State} {s : State}
    (inSession : (distaffRuns s && s.sec.attestReady && s.spdm.session) = true) (good : answeredCause opcode e operands cause s = 0) :
    ownerCommand opcode e operands cause opFails act s = reply (.ownerStatus 0) (act (spent s)) := by
  unfold answeredCause at good
  simp only [ownerCommand, inSession, good]
  rfl

theorem ownerCommand_refused {opcode cause opFails : Nat} {e : OwnerEnv} {operands : List (List Byte)} {act : State → State} {s : State}
    (inSession : (distaffRuns s && s.sec.attestReady && s.spdm.session) = true) (bad : answeredCause opcode e operands cause s ≠ 0) :
    ∃ n, ownerCommand opcode e operands cause opFails act s =
      reply (.ownerStatus (answeredCause opcode e operands cause s)) (raise 0x6023 [answeredCause opcode e operands cause s] (countSigFail n s)) :=
  ⟨_, by
    simp only [ownerCommand, inSession, if_true]
    exact if_pos (bne_iff_ne.2 bad)⟩

theorem ownerCommand_unheard {opcode cause opFails : Nat} {e : OwnerEnv} {operands : List (List Byte)} {act : State → State} {s : State}
    (outside : (distaffRuns s && s.sec.attestReady && s.spdm.session) = false) :
    ownerCommand opcode e operands cause opFails act s = managed (reply .unsupported) s := by
  simp only [ownerCommand, outside]
  rfl

/-- An owner command answers with the vault unchanged, or, where its own cause is 0, by its action on a state with that vault. -/
theorem ownerCommand_cases (opcode : Nat) (e : OwnerEnv) (operands : List (List Byte)) (cause opFails : Nat) (act : State → State) (s : State) :
    vault (ownerCommand opcode e operands cause opFails act s).lead = vault s.lead ∨
      cause = 0 ∧ (ownerCommand opcode e operands cause opFails act s).lead = (act (spent s)).lead := by
  cases inSession : distaffRuns s && s.sec.attestReady && s.spdm.session with
  | false =>
    rw [ownerCommand_unheard inSession]
    exact .inl (by simp)
  | true =>
    by_cases good : answeredCause opcode e operands cause s = 0
    · rw [ownerCommand_accepted inSession good]
      refine .inr ⟨?_, rfl⟩
      unfold answeredCause at good
      split at good
      next bad => exact absurd good (bne_iff_ne.1 bad)
      next => exact good
    · obtain ⟨n, h⟩ := ownerCommand_refused (act := act) (opFails := opFails) inSession good
      rw [h]
      exact .inl (by simp)

end Sys2Proof.Machine
end

section
/-! No command changes the queue or lowers a floor, and the key store keeps its limits (O1, O5, O59). -/

namespace Sys2Proof.Machine

/-- The four floors of module flash. -/
def floors (f : SecFlash) := (f.floorDistaff, f.floorFlyer, f.floorSkein, f.floorWarp)

/-- What every command keeps: the queue, no floor falls, the warp floor but for its own command, the firmware floors but for the attainment of
ATTEST_READY, which takes each to the version that runs, and a key store within its limits. -/
structure Guarded (c : Instr) (s t : State) : Prop where
  queue : t.pending = s.pending
  floorsUp : s.flash.floorsUpTo t.flash
  limits : s.flash.withinLimits → t.flash.withinLimits
  warpFloor : (∀ e f, c ≠ .raiseWarpFloor e f) → t.flash.floorWarp = s.flash.floorWarp
  firmwareFloors : (∀ e m, c ≠ .attestationReady e m) →
    t.flash.floorDistaff = s.flash.floorDistaff ∧ t.flash.floorFlyer = s.flash.floorFlyer ∧ t.flash.floorSkein = s.flash.floorSkein
  attained : (∃ e m, c = .attestationReady e m) →
    (t.flash.floorDistaff = s.flash.floorDistaff ∨ t.flash.floorDistaff = s.sec.verDistaff) ∧
      (t.flash.floorFlyer = s.flash.floorFlyer ∨ t.flash.floorFlyer = s.sec.verFlyer) ∧
      (t.flash.floorSkein = s.flash.floorSkein ∨ t.flash.floorSkein = s.sec.verSkein)

theorem Guarded.of_floors {c : Instr} {s t : State} (queue : t.pending = s.pending) (same : floors t.flash = floors s.flash)
    (limits : s.flash.withinLimits → t.flash.withinLimits) : Guarded c s t := by
  simp only [floors, Prod.mk.injEq] at same
  obtain ⟨hd, hf, hk, hw⟩ := same
  exact ⟨queue, ⟨hd.ge, hf.ge, hk.ge, hw.ge⟩, limits, fun _ => hw, fun _ => ⟨hd, hf, hk⟩, fun _ => ⟨.inl hd, .inl hf, .inl hk⟩⟩

/-- What the vault fixes. -/
theorem parts_of_vault {s t : State} (h : vault t.lead = vault s.lead) :
    t.pending = s.pending ∧ floors t.flash = floors s.flash ∧ t.flash.warpKeys = s.flash.warpKeys ∧
      t.flash.revokedKeys = s.flash.revokedKeys ∧ t.flash.sealKeys = s.flash.sealKeys := by
  simp only [vault, State.lead, Prod.mk.injEq] at h
  obtain ⟨hp, hd, hf, hk, hw, hkeys, hrevoked, hseal⟩ := h
  exact ⟨hp, by simp only [floors, hd, hf, hk, hw], hkeys, hrevoked, hseal⟩

/-- With the vault unchanged everything is kept. -/
theorem Guarded.of_vault {c : Instr} {s t : State} (h : vault t.lead = vault s.lead) : Guarded c s t := by
  obtain ⟨queue, same, hkeys, hrevoked, hseal⟩ := parts_of_vault h
  refine .of_floors queue same fun within => ?_
  simpa only [SecFlash.withinLimits, SecFlash.liveKeys, hkeys, hrevoked, hseal] using within

/-- Every next state that the command `c` answers on `s` keeps what `Guarded` says. -/
def Guards (c : Instr) (s : State) : Prop := ∀ t, exec c s = .next t → Guarded c s t

theorem guards_next {c : Instr} {s t : State} (run : exec c s = .next t) (h : Guarded c s t) : Guards c s := by
  intro u hu
  obtain rfl : t = u := by simpa only [run, Host.Outcome.next.injEq] using hu
  exact h

/-- A row that leaves the vault. -/
theorem guards_vault {c : Instr} {s t : State} (run : exec c s = .next t) (h : vault t.lead = vault s.lead) : Guards c s :=
  guards_next run (.of_vault h)

/-- A row that first checks its operands' form, and leaves the vault. -/
theorem guards_checked {c : Instr} {s t : State} {ok : Bool} (run : exec c s = checked ok t) (h : vault t.lead = vault s.lead) : Guards c s := by
  cases ok with
  | true => exact guards_vault run h
  | false =>
    intro u hu
    rw [run] at hu
    cases hu

-- The rows that change the key store or a floor.

theorem bootStageVerified_guards (stage : BootStage) (stack : StackIx) (pufOk : Bool) (s : State) :
    Guards (.bootStageVerified stage stack pufOk) s := by
  obtain ⟨t, run, h⟩ := execBootStageVerified_held stage stack pufOk s
  refine guards_next run ?_
  rcases h with h | h
  · exact .of_vault h
  · obtain ⟨queue, same, hkeys, -, hseal⟩ := parts_of_vault h
    exact .of_floors queue same fun _ => by simp [SecFlash.withinLimits, SecFlash.liveKeys, hkeys, hseal, emptied]

theorem Guarded.ite {c : Instr} {s a b : State} {p : Prop} [Decidable p] (ha : Guarded c s a) (hb : Guarded c s b) :
    Guarded c s (if p then a else b) := by
  split
  · exact ha
  · exact hb

theorem managed_guarded {c : Instr} {f : State → State} {s : State} (h : Guarded c s (f s)) : Guarded c s (managed f s) :=
  .ite h (.ite (.of_vault (by simp)) (.of_vault rfl))

theorem ownershipVoucher_guards (v : Signed) (serial : BitVec 64) (sequence : BitVec 32) (edPub mlPub : List Byte) (s : State) :
    Guards (.ownershipVoucher v serial sequence edPub mlPub) s := by
  refine guards_next rfl (managed_guarded (.ite ?_ (.of_vault (by rw [countSigFail_lead]))))
  exact .of_floors rfl rfl fun _ => ⟨Nat.zero_le _, Nat.zero_le _⟩

/-- An owner command whose action, at cause 0 and once the counter is advanced, keeps the queue, the floors and the limits. -/
theorem ownerCommand_guarded {c : Instr} {opcode cause opFails : Nat} {e : OwnerEnv} {operands : List (List Byte)} {act : State → State}
    {s : State} (queue : (act (spent s)).pending = s.pending) (same : floors (act (spent s)).flash = floors s.flash)
    (limits : cause = 0 → s.flash.withinLimits → (act (spent s)).flash.withinLimits) :
    Guarded c s (ownerCommand opcode e operands cause opFails act s) := by
  rcases ownerCommand_cases opcode e operands cause opFails act s with h | ⟨hc, h⟩
  · exact .of_vault h
  · have hflash := State.flash_of h
    exact .of_floors ((State.pending_of h).trans queue) (hflash ▸ same) fun within => hflash ▸ limits hc within

/-- Enrolling a key pair under a KEY_ID adds at most one to the pairs that are not revoked, and none where it replaces one of them. -/
theorem liveKeys_enrolled {keys : List WarpKey} {revoked : List Word} {k : WarpKey} (fresh : revoked.contains k.id = false)
    (room : (keys.filter fun x => x.id != k.id).length < keys.length ∨ (keys.filter fun x => !revoked.contains x.id).length < 16)
    (within : (keys.filter fun x => !revoked.contains x.id).length ≤ 16) :
    (((keys.filter fun x => x.id != k.id) ++ [k]).filter fun x => !revoked.contains x.id).length ≤ 16 := by
  set live := keys.filter fun x => !revoked.contains x.id with hlive
  have others : ((keys.filter fun x => x.id != k.id).filter fun x => !revoked.contains x.id) = live.filter fun x => x.id != k.id := by
    simp only [hlive, List.filter_filter, Bool.and_comm]
  have one : ([k].filter fun x => !revoked.contains x.id).length = 1 := by simp only [List.filter_cons, fresh]; rfl
  rw [List.filter_append, List.length_append, others, one]
  rcases room with replaced | small
  · obtain ⟨x, hx, hid⟩ := List.length_filter_lt_length_iff_exists.1 replaced
    have named : x.id = k.id := by simpa using hid
    have kept : x ∈ live := List.mem_filter.2 ⟨hx, by rw [named, fresh]; rfl⟩
    have lt : (live.filter fun y => y.id != k.id).length < live.length := List.length_filter_lt_length_iff_exists.2 ⟨x, kept, hid⟩
    omega
  · have le := List.length_filter_le (fun x : WarpKey => x.id != k.id) live
    omega

theorem enrolWarpKey_guards (env : OwnerEnv) (keyId : BitVec 32) (edPub mlPub : List Byte) (s : State) :
    Guards (.enrolWarpKey env keyId edPub mlPub) s := by
  refine guards_next rfl (ownerCommand_guarded rfl rfl ?_)
  rintro cause ⟨live, sealed⟩
  refine ⟨?_, sealed⟩
  split at cause
  next => cases cause
  next fresh =>
    refine liveKeys_enrolled (keys := s.flash.warpKeys) (revoked := s.flash.revokedKeys) (k := ⟨keyId, edPub, mlPub⟩) (by simpa using fresh) ?_ live
    split at cause
    next replaced => exact .inl replaced
    next =>
      split at cause
      next => cases cause
      next small => exact .inr (by simpa [SecFlash.liveKeys] using small)

theorem revokeWarpKey_guards (env : OwnerEnv) (keyId : BitVec 32) (s : State) : Guards (.revokeWarpKey env keyId) s := by
  refine guards_next rfl (ownerCommand_guarded rfl rfl ?_)
  rintro - ⟨live, sealed⟩
  refine ⟨le_trans (List.Sublist.length_le (List.monotone_filter_right _ ?_)) live, sealed⟩
  intro k hk
  change (!(if s.flash.revokedKeys.contains keyId then s.flash.revokedKeys else s.flash.revokedKeys ++ [keyId]).contains k.id) = true at hk
  split at hk
  · exact hk
  · simp_all

theorem enrolSealingKey_guards (env : OwnerEnv) (keyId : BitVec 32) (key : BitVec 256) (s : State) :
    Guards (.enrolSealingKey env keyId key) s := by
  refine guards_next rfl (ownerCommand_guarded rfl rfl ?_)
  rintro cause ⟨live, -⟩
  refine ⟨live, ?_⟩
  change ((s.flash.sealKeys.filter fun k => k.1 != keyId) ++ [(keyId, key)]).length ≤ 16
  split at cause
  next => cases cause
  next small =>
    rw [List.length_append, List.length_singleton]
    omega

theorem revokeSealingKey_guards (env : OwnerEnv) (keyId : BitVec 32) (s : State) : Guards (.revokeSealingKey env keyId) s := by
  refine guards_next rfl (ownerCommand_guarded rfl rfl ?_)
  rintro - ⟨live, sealed⟩
  exact ⟨live, (List.length_filter_le _ _).trans sealed⟩

theorem applyServiceAuth_guards (env : OwnerEnv) (auth : Signed) (serial : BitVec 64) (generation : BitVec 32) (cores : List CoreIx) (s : State) :
    Guards (.applyServiceAuth env auth serial generation cores) s :=
  guards_next rfl (ownerCommand_guarded rfl rfl fun _ within => within)

theorem raiseWarpFloor_guards (env : OwnerEnv) (floor : BitVec 32) (s : State) : Guards (.raiseWarpFloor env floor) s := by
  refine guards_next rfl ?_
  rcases ownerCommand_cases 5 env [leBytes 4 floor.toNat] (if floor.toNat < s.flash.floorWarp then 6 else 0) 0
    (fun t => raise 0x6022 [3, floor.toNat] (t.onFlash fun f => SecFlash.protect { f with floorWarp := floor.toNat })) s with h | ⟨cause, h⟩
  · exact .of_vault h
  · have notBelow : s.flash.floorWarp ≤ floor.toNat := by
      by_contra below
      simp [not_le.1 below] at cause
    have hflash := State.flash_of h
    refine ⟨(State.pending_of h).trans rfl, hflash ▸ ⟨le_rfl, le_rfl, le_rfl, notBelow⟩, fun within => hflash ▸ within, fun other => ?_, fun _ => ?_, ?_⟩
    · exact absurd rfl (other env floor)
    · exact hflash ▸ ⟨rfl, rfl, rfl⟩
    · rintro ⟨_, _, ⟨⟩⟩

-- The attainment of ATTEST_READY (R445).

/-- Raising a floor takes it to the greater of itself and the version that runs. -/
theorem raiseFloor_raised {idx old new : Nat} {put : SecFlash → SecFlash} (floor : SecFlash → Nat) {s : State} (now : floor s.flash = old)
    (sets : ∀ f, floor (put f).protect = new) : floor (raiseFloor idx old new put s).flash = max old new := by
  unfold raiseFloor
  split
  next below => exact (sets s.flash).trans (max_eq_right below.le).symm
  next above => exact now.trans (max_eq_left (not_lt.1 above)).symm

/-- It leaves the rest of module flash that its write leaves. -/
theorem raiseFloor_kept {α : Type} {idx old new : Nat} {put : SecFlash → SecFlash} (part : SecFlash → α) (s : State)
    (keeps : ∀ f, part (put f).protect = part f) : part (raiseFloor idx old new put s).flash = part s.flash := by
  unfold raiseFloor
  split
  · exact keeps s.flash
  · rfl

/-- A floor that ends as the greater of what it was and the version that runs has not fallen, and is one of the two. -/
theorem attained_of_max {old new now : Nat} (h : now = max old new) : old ≤ now ∧ (now = old ∨ now = new) := by
  omega

/-- The firmware floors rise to the versions that run (R445). -/
def raiseFloors (f : SecFlash) (b : SecBlk) (s : State) : State :=
  raiseFloor 2 f.floorSkein b.verSkein (fun f => { f with floorSkein := b.verSkein }) <|
  raiseFloor 1 f.floorFlyer b.verFlyer (fun f => { f with floorFlyer := b.verFlyer }) <|
  raiseFloor 0 f.floorDistaff b.verDistaff (fun f => { f with floorDistaff := b.verDistaff }) s

theorem raiseFloors_distaff (b : SecBlk) (s : State) : (raiseFloors s.flash b s).flash.floorDistaff = max s.flash.floorDistaff b.verDistaff := by
  unfold raiseFloors
  exact (raiseFloor_kept SecFlash.floorDistaff _ fun _ => by rfl).trans <| (raiseFloor_kept SecFlash.floorDistaff _ fun _ => by rfl).trans <|
    raiseFloor_raised SecFlash.floorDistaff (by rfl) fun _ => by rfl

theorem raiseFloors_flyer (b : SecBlk) (s : State) : (raiseFloors s.flash b s).flash.floorFlyer = max s.flash.floorFlyer b.verFlyer := by
  unfold raiseFloors
  exact (raiseFloor_kept SecFlash.floorFlyer _ fun _ => by rfl).trans <|
    raiseFloor_raised SecFlash.floorFlyer (raiseFloor_kept SecFlash.floorFlyer _ fun _ => by rfl) fun _ => by rfl

theorem raiseFloors_skein (b : SecBlk) (s : State) : (raiseFloors s.flash b s).flash.floorSkein = max s.flash.floorSkein b.verSkein := by
  unfold raiseFloors
  exact raiseFloor_raised SecFlash.floorSkein
    ((raiseFloor_kept SecFlash.floorSkein _ fun _ => by rfl).trans (raiseFloor_kept SecFlash.floorSkein _ fun _ => by rfl)) fun _ => by rfl

theorem raiseFloors_kept {α : Type} (part : SecFlash → α) (f : SecFlash) (b : SecBlk) (s : State)
    (keeps : ∀ f d l k, part { f with floorDistaff := d, floorFlyer := l, floorSkein := k }.protect = part f) :
    part (raiseFloors f b s).flash = part s.flash :=
   (raiseFloor_kept part _ fun f => keeps f f.floorDistaff f.floorFlyer b.verSkein).trans <|
    (raiseFloor_kept part _ fun f => keeps f f.floorDistaff b.verFlyer f.floorSkein).trans <|
    raiseFloor_kept part _ fun f => keeps f b.verDistaff f.floorFlyer f.floorSkein

@[simp] theorem raiseFloors_pending (f : SecFlash) (b : SecBlk) (s : State) : (raiseFloors f b s).pending = s.pending := by
  simp only [raiseFloors, raiseFloor_pending]

theorem attestationReady_guards (edOk mlOk : Bool) (s : State) : Guards (.attestationReady edOk mlOk) s := by
  refine guards_next rfl (.ite (.of_vault rfl) (.ite (.of_vault (by simp)) ?_))
  set t1 := raise 0x6005 [] ((s.onSec fun b => { b with attestReady := true, bootStage := 4 }).onMod fun m => { m with attestMs := msSinceZero s })
  change Guarded _ s (raiseFloors t1.flash s.sec t1)
  obtain ⟨dUp, dIs⟩ := attained_of_max (raiseFloors_distaff s.sec t1)
  obtain ⟨fUp, fIs⟩ := attained_of_max (raiseFloors_flyer s.sec t1)
  obtain ⟨kUp, kIs⟩ := attained_of_max (raiseFloors_skein s.sec t1)
  have warp : (raiseFloors t1.flash s.sec t1).flash.floorWarp = s.flash.floorWarp := raiseFloors_kept SecFlash.floorWarp _ _ t1 fun _ _ _ _ => rfl
  refine ⟨raiseFloors_pending .., ⟨dUp, fUp, kUp, warp.ge⟩, fun within => ?_, fun _ => warp, fun other => absurd rfl (other edOk mlOk),
    fun _ => ⟨dIs, fIs, kIs⟩⟩
  rwa [raiseFloors_kept SecFlash.withinLimits _ _ t1 fun _ _ _ _ => rfl]

-- Rows that split on what a port, a hank or an arbiter holds, or on their operands.

theorem updateShard_guards (tag : BitVec 20) (err : Option UnitError) (s : State) : Guards (.updateShard tag err) s := by
  refine guards_vault rfl ?_
  split
  · split <;> simp
  · rfl

theorem stateRequest_guards (who : Requester) (val : Word) (s : State) : Guards (.stateRequest who val) s := by
  cases who with
  | host => exact guards_checked rfl (by simp)
  | distaff => exact guards_checked rfl (by simp)

theorem hostWriteTimeout_guards (ring : HostRing) (s : State) : Guards (.hostWriteTimeout ring) s := by
  cases ring with
  | completion => exact guards_vault rfl (by simp)
  | eventRing => exact guards_vault rfl (by simp)
  | report => exact guards_vault rfl (by simp)

theorem marginEvaluation_guards (slackOk : Bool) (shortfall : Nat) (s : State) : Guards (.marginEvaluation slackOk shortfall) s := by
  refine guards_next rfl (.ite (.of_vault ?_) (.of_vault rfl))
  rw [raise_lead]
  exact (onFlash_vault (by rfl)).trans (by simp)

/-- The firmware images of module flash are no part of the vault. -/
theorem writeSlots_vault (st : BootStage) (x : FwSlots) (s : State) : vault (s.onFlash fun f => f.putSlots st x).lead = vault s.lead :=
  putSlots_vault st (fun _ => x) s

theorem firmwareUpdate_guards (image : List Byte) (via : Carrier) (s : State) : Guards (.firmwareUpdate image via) s := by
  refine guards_next rfl (.ite (.of_vault rfl) (.ite (.ite (.of_vault ?_) (.of_vault (by simp))) (.of_vault (by simp))))
  rw [raise_lead, writeSlots_vault, countSigFail_lead]

theorem revocationList_guards (list : Signed) (sequence : BitVec 32) (names : List (BitVec 32)) (via : Carrier) (s : State) :
    Guards (.revocationList list sequence names via) s :=
  guards_next rfl (.ite (.of_vault rfl) (managed_guarded (.ite (.of_vault rfl) (.of_vault (by rw [countSigFail_lead])))))

/-- A request that waits for ATTEST_READY leaves the vault where its answer does. -/
theorem whenReady_vault {f : State → State} (h : ∀ s, (f s).lead = s.lead) (s : State) : vault (whenReady f s).lead = vault s.lead := by
  rw [whenReady_lead]
  exact h

theorem getMeasurements_guards (index : Nat) (nonce : List Byte) (s : State) : Guards (.getMeasurements index nonce) s := by
  refine guards_checked rfl (whenReady_vault (fun t => ?_) s)
  dsimp only
  split <;> simp

theorem keyExchange_guards (exchange : List Byte) (s : State) : Guards (.keyExchange exchange) s := by
  refine guards_vault rfl (whenReady_vault (fun t => ?_) s)
  split <;> rfl

theorem align_guards (port : PortIx) (num : Word) (s : State) : Guards (.align port num) s := by
  refine guards_vault rfl ?_
  split
  · split <;> simp
  · split <;> simp
  · rfl

theorem kvBlockTimeout_guards (layer shard block : Nat) (s : State) : Guards (.kvBlockTimeout layer shard block) s := by
  refine guards_vault rfl ?_
  split
  · rw [noteEnds_lead]
    split <;> simp
  · rfl

theorem physicalTrainingDone_guards (port : PortIx) (lanes : BitVec 8) (rtt : Word) (s : State) :
    Guards (.physicalTrainingDone port lanes rtt) s := by
  refine guards_vault rfl ?_
  split
  · rfl
  · split <;> simp

/-- Every command keeps the queue, the floors and the limits of the key store: all but nine leave the whole vault. -/
theorem exec_guards (c : Instr) (s : State) : Guards c s := by
  cases c with
  -- The rows that change a floor or the key store.
  | bootStageVerified => exact bootStageVerified_guards _ _ _ s
  | attestationReady => exact attestationReady_guards _ _ s
  | ownershipVoucher => exact ownershipVoucher_guards _ _ _ _ _ s
  | enrolWarpKey => exact enrolWarpKey_guards _ _ _ _ s
  | revokeWarpKey => exact revokeWarpKey_guards _ _ s
  | enrolSealingKey => exact enrolSealingKey_guards _ _ _ s
  | revokeSealingKey => exact revokeSealingKey_guards _ _ s
  | raiseWarpFloor => exact raiseWarpFloor_guards _ _ s
  | applyServiceAuth => exact applyServiceAuth_guards _ _ _ _ _ s
  -- Rows that split on what the state holds or on their operands.
  | updateShard => exact updateShard_guards _ _ s
  | stateRequest => exact stateRequest_guards _ _ s
  | hostWriteTimeout => exact hostWriteTimeout_guards _ s
  | marginEvaluation => exact marginEvaluation_guards _ _ s
  | firmwareUpdate => exact firmwareUpdate_guards _ _ s
  | revocationList => exact revocationList_guards _ _ _ _ s
  | getMeasurements => exact getMeasurements_guards _ _ s
  | keyExchange => exact keyExchange_guards _ s
  | align => exact align_guards _ _ s
  | distribute | scaleAgreementTimeout | hankTimeout | paramEndTimeout | nepTestDone | arbitration | burstLimit | trainingAttemptTimeout
  | idle | idleSend | alignSend | linkCtrlSend | vc0CreditTimeout | bootStageTimeout | samplePreload | updateSegmentCheck =>
    exact guards_vault rfl (by split <;> simp)
  | kvBlockTimeout => exact kvBlockTimeout_guards _ _ _ s
  | physicalTrainingDone => exact physicalTrainingDone_guards _ _ _ s
  | whorlOp | cxlMemRead | cxlMemWrite | bringupStart => exact guards_checked rfl (by split <;> simp)
  -- Rows made of operations that leave the vault, with and without a check of their operands' form.
  | tileIssue | bobbinPop | schedulerWaitTimeout | admitRequest | admitReply | nonfiniteNotice | verdict | layerCounts | shardRatios
  | skipNotice | commit | skip | replay | halt | start | decisionQuery | hankSegment | rescale | scaleProposal | scaleAgreed | factorResult
  | paramSegment | paramEnd | paramResend | plyLeaf | plyLeafQuery | kvBlock | skeinRequest | scrub | hello | linkCtrl | notReady
  | descriptorConsume | queueEnable | queueDisable | copyIn | copyOut | challenge | getReport | reportRequest =>
    exact guards_checked rfl (by simp)
  | _ => exact guards_vault rfl (by simp)

/-- Settles O1, by the equation of the step. -/
theorem stepRunsFrontCommand : Obligations.StepRunsFrontCommand := by
  intro c rest s waiting
  simp only [step, waiting]

/-- Settles O5, from what every command keeps. -/
theorem execLeavesQueue : Obligations.ExecLeavesQueue :=
  fun c s t run => (exec_guards c s t run).queue

/-- A step keeps the floors and the limits: a tick leaves module flash, and a command keeps them. -/
theorem step_keepsLimits {s t : State} (run : step s = .next t) :
    s.flash.floorsUpTo t.flash ∧ (s.flash.withinLimits → t.flash.withinLimits) := by
  unfold step at run
  split at run
  next =>
    obtain rfl : tick s = t := by injection run
    rw [State.flash_of (tick_lead s)]
    exact ⟨⟨le_rfl, le_rfl, le_rfl, le_rfl⟩, id⟩
  next c rest _ =>
    have kept := exec_guards c { s with pending := rest } t run
    exact ⟨kept.floorsUp, kept.limits⟩

/-- Settles O59. The key store is empty at reset; all but nine commands leave the vault, and those nine keep what `Guarded` says. -/
theorem flashKeepsItsLimits : Obligations.FlashKeepsItsLimits := by
  refine ⟨⟨Nat.zero_le _, Nat.zero_le _⟩, fun _ _ => step_keepsLimits, fun c s t run => ?_⟩
  have kept := exec_guards c s t run
  exact ⟨kept.floorsUp, kept.limits, kept.warpFloor, kept.firmwareFloors, kept.attained⟩

end Sys2Proof.Machine
end

section
/-! Caps, the governing reading and the droop reserve (O28, O29, family 13), and the test access port (O58, family 15). -/

namespace Sys2Proof.Machine

-- The branches of a row, and management commands (R457).

theorem next_pos {p : Prop} [Decidable p] {a b : State} (h : p) : (.next (if p then a else b) : Out) = .next a := by rw [if_pos h]
theorem next_neg {p : Prop} [Decidable p] {a b : State} (h : ¬p) : (.next (if p then a else b) : Out) = .next b := by rw [if_neg h]

/-- Once the distaff runs and ATTEST_READY is set, a management command does what its row says. -/
theorem managed_ready {f : State → State} {s : State} (runs : distaffRuns s = true) (ready : s.sec.attestReady = true) : managed f s = f s := by
  rw [managed, if_pos (by rw [runs, ready]; rfl)]

-- The check of a cap (R417).

theorem capRefusal_outside {n : Nat} (s : State) (h : n < 900 ∨ 2600 < n) : capRefusal n s = some 2 := if_pos h

theorem capRefusal_belowFloor {n : Nat} {s : State} (low : 900 ≤ n) (high : n ≤ 2600) (below : n * 8000 < floor8 s) : capRefusal n s = some 1 := by
  rw [capRefusal, if_neg (by omega), if_pos below]

theorem capRefusal_none {n : Nat} {s : State} (low : 900 ≤ n) (high : n ≤ 2600) (above : floor8 s ≤ n * 8000) : capRefusal n s = none := by
  rw [capRefusal, if_neg (by omega), if_neg (by omega)]

theorem setCap_accepted {n : Nat} {s : State} (writer : Nat) (put : TrdBlk → TrdBlk) (h : capRefusal n s = none) :
    setCap writer n put s = s.onTrd put := by
  rw [setCap, h]

theorem setCap_refused {n c : Nat} {s : State} (writer : Nat) (put : TrdBlk → TrdBlk) (h : capRefusal n s = some c) :
    setCap writer n put s = refuseCap n writer c s := by
  rw [setCap, h]

-- The caps come into force (R415, R417, R418).

theorem applyCaps_void {s : State} (low : s.trd.effective < minCap s) (first : s.trd.deadlineVoid = false) :
    applyCaps s = raise 0x3120 [s.trd.effective, minCap s] { s with trd := { s.trd with
      inForce := s.trd.effective, deadlineVoid := true, voidDuringStep := s.trd.voidDuringStep || s.stp.inStep } } := by
  have once : ¬s.trd.deadlineVoid = true := by rw [first]; exact Bool.false_ne_true
  exact (if_pos low).trans (if_neg once)

theorem applyCaps_held {s : State} (high : minCap s ≤ s.trd.effective) :
    applyCaps s = { s with trd := { s.trd with inForce := s.trd.effective, deadlineVoid := false } } :=
  if_neg (not_lt.2 high)

/-- The caps set bound the cap that comes into force. -/
theorem effective_le (t : TrdBlk) : t.effective ≤ t.hostCap ∧ t.effective ≤ t.mgmtCap ∧ ∀ c, t.sensorCap = some c → t.effective ≤ c := by
  unfold TrdBlk.effective
  cases t.sensorCap with
  | none => exact ⟨min_le_left .., min_le_right .., by rintro c ⟨⟩⟩
  | some v =>
    have caps := min_le_left (min t.hostCap t.mgmtCap) v
    refine ⟨caps.trans (min_le_left ..), caps.trans (min_le_right ..), ?_⟩
    rintro c ⟨⟩
    exact min_le_right ..

/-- Settles O28, by the cases of the check and, of a command, by its guard. -/
theorem capRows : Obligations.CapRows := by
  intro s
  refine ⟨fun n => ⟨capRefusal_outside s, capRefusal_belowFloor, capRefusal_none⟩, fun ready v => ⟨fun ok => ?_, fun c no => ?_⟩,
    fun runs attested => ⟨fun w ok => ?_, fun w c no => ?_, fun set => ?_⟩, applyCaps_void, applyCaps_held, effective_le s.trd⟩
  · exact (next_gated_ready ready).trans (congrArg _ (setCap_accepted 0 _ ok))
  · exact (next_gated_ready ready).trans (congrArg _ (setCap_refused 0 _ no))
  · refine congrArg _ ((managed_ready runs attested).trans ?_)
    rw [setCap_accepted 1 _ ok, ok]
    rfl
  · refine congrArg _ ((managed_ready runs attested).trans ?_)
    rw [setCap_refused 1 _ no, no]
    rfl
  · exact congrArg _ ((managed_ready runs attested).trans (if_pos set))

-- The droop reserve (R428 to R430).

/-- The reserve that an evaluation writes, where `down` is the free lowering (R429). -/
def nextReserve (now shortfall : Nat) (slackOk : Bool) (down : Nat) : Nat :=
  if 0 < shortfall then min 80 (now + 5 * ceilDiv shortfall 5) else if slackOk then max 30 (now - down) else now

theorem nextReserve_bounds {now down : Nat} (shortfall : Nat) (slackOk : Bool) (low : 30 ≤ now) (high : now ≤ 80) :
    30 ≤ nextReserve now shortfall slackOk down ∧ nextReserve now shortfall slackOk down ≤ 80 := by
  unfold nextReserve
  split
  · omega
  · split <;> omega

theorem le_nextReserve_of_shortfall {now shortfall : Nat} (slackOk : Bool) (down : Nat) (short : 0 < shortfall) (high : now ≤ 80) :
    now ≤ nextReserve now shortfall slackOk down := by
  rw [nextReserve, if_pos short]
  omega

theorem nextReserve_of_noSlack (now down : Nat) : nextReserve now 0 false down = now := rfl

theorem nextReserve_of_slack {now down : Nat} (low : 30 ≤ now) (step : down ≤ 5) :
    nextReserve now 0 true down ≤ now ∧ now ≤ nextReserve now 0 true down + 5 := by
  change max 30 (now - down) ≤ now ∧ now ≤ max 30 (now - down) + 5
  omega

theorem marginEvaluation_next {s : State} (runs : distaffRuns s = true) (slackOk : Bool) (shortfall : Nat) :
    ∃ down calib, down ≤ 5 ∧ exec (.marginEvaluation slackOk shortfall) s =
      .next (raise 0x3201 [s.trd.activeReserve, nextReserve s.trd.activeReserve shortfall slackOk down]
        { s with flash := s.flash.putTrim (nextReserve s.trd.activeReserve shortfall slackOk down) calib, freeCtr := s.freeCtr + 2 }) :=
  ⟨(freePick 6 s).1, (freePick (2 ^ 32) (freePick 6 s).2).1, Nat.le_of_lt_succ (Nat.mod_lt _ (by omega)), next_pos runs⟩

/-- Settles O29: each of the events acts where its time is over and its premises hold, and an evaluation by the bounds of `nextReserve`. -/
theorem powerMarginRows : Obligations.PowerMarginRows := by
  intro s
  refine ⟨fun long est noCap => ?_, fun early => ?_, fun long meas => ?_, fun early => ?_, fun long noCap e m he hm => ?_, fun early => ?_,
    fun t0 floor first above => ?_, fun runs => ⟨fun slack short low high => ?_, fun r above => ?_, fun r below => ?_⟩⟩
  · exact next_neg (by simp [est, noCap, long])
  · exact next_pos (by simp [early])
  · exact next_pos (by simp [meas, long])
  · exact next_neg (by simp [early])
  · subst he hm
    exact next_neg (by simp [noCap, long])
  · exact next_pos (by simp [early])
  · exact next_pos (by simp [t0, floor, first, above])
  · obtain ⟨down, calib, step, run⟩ := marginEvaluation_next runs slack short
    obtain ⟨least, most⟩ := nextReserve_bounds short slack low high
    refine ⟨_, run, least, most, rfl, rfl, fun more => le_nextReserve_of_shortfall slack down more high, ?_, ?_, rfl⟩
    · rintro rfl rfl
      exact nextReserve_of_noSlack _ down
    · rintro rfl rfl
      exact nextReserve_of_slack low step
  · exact next_pos ⟨above, runs⟩
  · exact next_neg fun h => absurd h.1 (not_lt.2 below)

-- The test access port (R474, R476, R478).

/-- In module reset the instructions for boundary test are decoded. -/
theorem boundaryTest_decoded {s : State} (inReset : s.mod.resetAsserted = true) {c : Instr} {i : TapInstr}
    (h : (c, i) ∈ ([(.extest, .extest), (.clamp, .clamp), (.extestPulse, .extestPulse), (.extestTrain, .extestTrain), (.highz, .highz)] :
      List (Instr × TapInstr))) : ∃ out, exec c s = .next (selectTap i out s) := by
  simp only [List.mem_cons, List.not_mem_nil, or_false, Prod.mk.injEq] at h
  rcases h with ⟨rfl, rfl⟩ | ⟨rfl, rfl⟩ | ⟨rfl, rfl⟩ | ⟨rfl, rfl⟩ | ⟨rfl, rfl⟩ <;> exact ⟨_, next_pos inReset⟩

/-- Outside module reset they are BYPASS. -/
theorem boundaryTest_bypassed {s : State} (out : s.mod.resetAsserted = false) {c : Instr}
    (h : c ∈ [Instr.extest, .clamp, .highz, .extestPulse, .extestTrain]) : exec c s = exec (.bypass 0) s := by
  have bypassed : ¬s.mod.resetAsserted = true := by rw [out]; exact Bool.false_ne_true
  simp only [List.mem_cons, List.not_mem_nil, or_false] at h
  rcases h with rfl | rfl | rfl | rfl | rfl <;> exact next_neg bypassed

/-- An instruction that drives the boundary register drives it in module reset. -/
theorem drivenPins_boundary {s : State} (h : s.mod.resetAsserted = true)
    (drives : s.jtag.ir ∈ [TapInstr.extest, .clamp, .extestPulse, .extestTrain]) : drivenPins s = some s.jtag.boundary := by
  unfold drivenPins
  rw [h]
  simp only [List.mem_cons, List.not_mem_nil, or_false] at drives
  rcases drives with e | e | e | e <;> rw [e] <;> rfl

theorem drivenPins_highz {s : State} (h : s.jtag.ir = .highz) : drivenPins s = none := by
  unfold drivenPins
  rw [h]
  split <;> rfl

/-- The identification word ends in a one (R478). -/
theorem wbit_idcodeWord_zero : wbit idcodeWord 0 = true := by
  unfold wbit idcodeWord w32
  rw [BitVec.getLsbD_ofNat, Nat.testBit_zero]
  simp only [Nat.ofNat_pos, decide_true, Bool.true_and, decide_eq_true_eq]
  omega

/-- Settles O58, instruction by instruction, by whether the module is in reset. -/
theorem testAccessRows : Obligations.TestAccessRows := by
  intro s
  refine ⟨fun a => ⟨fun on => next_pos on, fun off => next_neg (by simp [off])⟩, rfl, rfl, wbit_idcodeWord_zero,
    fun _ => rfl, fun _ => ⟨rfl, fun _ => rfl⟩, fun out c => boundaryTest_bypassed out, fun inReset => ⟨fun c i hc => ?_, ?_⟩⟩
  · have listed : i ∈ [TapInstr.extest, .clamp, .extestPulse, .extestTrain] := List.mem_map_of_mem (f := Prod.snd) hc
    obtain ⟨out, run⟩ := boundaryTest_decoded inReset (List.mem_append_left [(.highz, .highz)] hc)
    exact ⟨_, run, rfl, drivenPins_boundary (s := selectTap i out s) inReset listed, rfl⟩
  · obtain ⟨out, run⟩ := boundaryTest_decoded (s := s) (c := .highz) (i := .highz) inReset (by simp)
    exact ⟨_, run, rfl, drivenPins_highz rfl, rfl⟩

end Sys2Proof.Machine
end

section
/-! The check of a sampled update segment and carding tests (O26, O27, family 12). -/

namespace Sys2Proof.Machine

-- Detections of the update engines (R381, R383, R387).

theorem stopIfPlaced_whole {s : State} (h : structureLost s = false) : stopIfPlaced s = s := by
  rw [stopIfPlaced, h]
  rfl

/-- Whether a placed core is out of service depends on the loaded image and the quarantine map alone. -/
theorem structureLost_congr {s t : State} (warp : t.warp = s.warp) (flash : t.flash = s.flash) : structureLost t = structureLost s := by
  unfold structureLost placedCores quarantined
  rw [warp, flash]

/-- With no core among the suspects, and no placed core out of service, a detection notes the engines to card after the decision. -/
theorem detect_later {later : List CardUnit} {s : State} (whole : structureLost s = false) :
    ∃ ply, detect [] [] later s = { s with ply := ply } ∧ (∀ u ∈ later, u ∈ ply.cardLater) ∧ ply.lastMismatch = s.ply.lastMismatch ∧
      ply.segWaits = s.ply.segWaits := by
  refine ⟨_, stopIfPlaced_whole whole, fun u hu => ?_, rfl, rfl⟩
  by_cases noted : u ∈ s.ply.cardLater
  · exact List.mem_append_left _ noted
  · exact List.mem_append_right _ (List.mem_filter.2 ⟨hu, by simpa using noted⟩)

theorem segmentCheck_agrees {w : SegWait} {returned : List Word} {s : State} (same : firstWord 0 w.expected returned = none) :
    segmentCheck w returned s = countEvt 0x30001C { s with ply := { s.ply with segWaits := s.ply.segWaits.filter fun x => x != w } } := by
  rw [segmentCheck, same]
  rfl

/-- The state in which an engine's mismatch is detected: the counts, the capture, the failed ply check and event 0x2102 (R381, R385). -/
def segmentDiffers (w : SegWait) (m : Mismatch) (c : Capture) (s : State) : State :=
  let s1 := countEvt 0x30001C (s.onPly fun y => { y with segWaits := y.segWaits.filter fun x => x != w })
  let s2 := (countErr 0x300024 s1).onPly fun y => { y with lastMismatch := m.words s }
  raise 0x2102 ((m.words s).map (·.toNat)) <| capture (48 + (shardStack s w.tag).val) c (s2.onStp fun x => { x with plyFail := true })

theorem segmentDiffers_rest (w : SegWait) (m : Mismatch) (c : Capture) (s : State) :
    ∃ ply tel, segmentDiffers w m c s = { s with stp := { s.stp with plyFail := true }, ply := ply, tel := tel } ∧
      ply.segWaits = s.ply.segWaits.filter (fun x => x != w) ∧ ply.lastMismatch = m.words s := by
  obtain ⟨tel1, h1⟩ := countEvt_tellsOnly 0x30001C (s.onPly fun y => { y with segWaits := y.segWaits.filter fun x => x != w })
  obtain ⟨tel2, h2⟩ := countErr_tellsOnly 0x300024 { s.onPly fun y => { y with segWaits := y.segWaits.filter fun x => x != w } with tel := tel1 }
  unfold segmentDiffers
  dsimp only
  rw [h1, h2]
  obtain ⟨tel3, h3⟩ := raise_tellsOnly 0x2102 ((m.words s).map (·.toNat)) (capture (48 + (shardStack s w.tag).val) c
    ((State.onPly { s.onPly fun y => { y with segWaits := y.segWaits.filter fun x => x != w } with tel := tel2 }
      fun y => { y with lastMismatch := m.words s }).onStp fun x => { x with plyFail := true }))
  exact ⟨_, tel3, h3, rfl, rfl⟩

theorem segmentCheck_differs {w : SegWait} {returned : List Word} {s : State} {i : Nat} {a b : Word}
    (differ : firstWord 0 w.expected returned = some (i, a, b)) (whole : structureLost s = false) :
    ∃ ply tel, segmentCheck w returned s = { s with stp := { s.stp with plyFail := true }, ply := ply, tel := tel } ∧
      ply.segWaits = s.ply.segWaits.filter (fun x => x != w) ∧
      (∀ u ∈ [CardUnit.update (shardStack s w.tag), .update (shardStack s w.tag + 1)], u ∈ ply.cardLater) ∧
      ply.lastMismatch[6]? = some a ∧ ply.lastMismatch[7]? = some b := by
  have run : ∃ m c, segmentCheck w returned s =
      detect [] [] [.update (shardStack s w.tag), .update (shardStack s w.tag + 1)] (segmentDiffers w m c s) ∧ m.was = a ∧ m.got = b := by
    rw [segmentCheck, differ]
    exact ⟨_, _, rfl, rfl, rfl⟩
  obtain ⟨m, c, run, rfl, rfl⟩ := run
  obtain ⟨ply, tel, rest, waits, words⟩ := segmentDiffers_rest w m c s
  rw [run, rest]
  obtain ⟨ply', found, later, words', waits'⟩ := detect_later (s := { s with stp := { s.stp with plyFail := true }, ply := ply, tel := tel })
    ((structureLost_congr rfl rfl).trans whole)
  exact ⟨ply', tel, found, waits'.trans waits, later, by rw [words', words]; rfl, by rw [words', words]; rfl⟩

/-- Settles O26: the two outcomes of the comparison. -/
theorem segmentCheckRow : Obligations.SegmentCheckRow := by
  intro tag seg faulty w s runs found
  have run : exec (.updateSegmentCheck tag seg faulty) s = .next (segmentCheck w (faulty.getD (segmentShadow s w)) s) := by
    change execUpdateSegmentCheck tag seg faulty s = _
    rw [execUpdateSegmentCheck, if_pos runs, found]
  refine ⟨fun same => run.trans (congrArg _ (segmentCheck_agrees same)), fun i a b differ whole => ?_⟩
  obtain ⟨ply, tel, h, waits, later, was, got⟩ := segmentCheck_differs differ whole
  refine ⟨_, run.trans (congrArg _ h), rfl, waits, ?_, was, got, rfl⟩
  rintro u (rfl | rfl)
  · exact later _ List.mem_cons_self
  · exact later _ (List.mem_cons_of_mem _ List.mem_cons_self)

-- Carding (R384 to R388, R407).

/-- With RESULT of a test that reproduced nothing, nothing but the state of carding changes (R388). -/
theorem cardingEnds_good (u : CardUnit) (s : State) : ∃ ply tel, cardingEnds u .none s = { s with ply := ply, tel := tel } ∧
    ply.carding = s.ply.carding.filter (fun x => x != u) ∧ ply.cardResult = 2 ∧ ply.cardPart = 0 :=
  ⟨_, _, rfl, rfl, rfl, rfl⟩

theorem quarantineCore_quarantines (cause : QCause) (s : State) (c : CoreIx) : (quarantineCore cause s c).flash.map.getLsbD c.val = true := by
  unfold quarantineCore
  split
  next already => exact already
  next =>
    change (s.flash.map ||| BitVec.ofNat 576 (2 ^ c.val)).getLsbD c.val = true
    rw [BitVec.getLsbD_or, BitVec.getLsbD_ofNat, Nat.testBit_two_pow_self]
    simp

/-- A test of a core that ends badly puts the core in quarantine (R388). -/
theorem cardingEnds_quarantines {part : CardPart} (bad : part ≠ .none) (c : CoreIx) (s : State) :
    (cardingEnds (.core c) part s).flash.map.getLsbD c.val = true := by
  unfold cardingEnds
  dsimp only
  rw [if_pos (by simpa using bad), State.flash_of (stopIfPlaced_lead _)]
  exact quarantineCore_quarantines ..

theorem cardingResult_runs {u : CardUnit} {part : CardPart} {s : State} (tested : s.ply.carding.contains u = true) (runs : partRuns s u part = true) :
    exec (.cardingResult u part) s = .next (cardingEnds u part s) :=
  next_pos (by rw [tested, runs]; rfl)

/-- Settles O27: START by what else runs, the results by their part. -/
theorem cardingRows : Obligations.CardingRows := by
  intro s
  refine ⟨fun ready v u start keep known target => ⟨fun noStep none => ?_, fun busy => ?_⟩, fun u tested => ?_,
    fun u part tested runs => cardingResult_runs tested runs, fun u host => next_neg ?_, fun u tested => next_pos tested,
    fun c part bad => cardingEnds_quarantines bad c s⟩
  · refine (next_gated_ready ready).trans (congrArg _ ?_)
    simp [writeCardingCtrl, start, keep, known, target, noStep, none, State.onPly]
  · refine (next_gated_ready ready).trans (congrArg _ ?_)
    have refused : (wfield v 17 16 != 3 && !s.stp.inStep && s.ply.carding.isEmpty) = false := by
      rcases busy with step | test
      · simp [step]
      · simp [test]
    simp [writeCardingCtrl, start, keep, known, target, refused, State.onPly]
  · obtain ⟨ply, tel, h, carding, result, part⟩ := cardingEnds_good u s
    exact ⟨_, (cardingResult_runs tested rfl).trans (congrArg _ h), carding, result, part, rfl⟩
  · simp [partRuns, host]

end Sys2Proof.Machine
end

section
/-! A control interval and the issue throttle (O30, family 13). -/

namespace Sys2Proof.Machine

-- A control interval (R414 to R417, R425).

/-- Whatever the caps set, a control interval first takes them into force and judges the deadline (R417, R418). -/
theorem applyCaps_rest (s : State) : ∃ tel held missed,
    applyCaps s = { s with tel := tel, trd := { s.trd with inForce := s.trd.effective, deadlineVoid := held, voidDuringStep := missed } } := by
  unfold applyCaps voidCheck
  split
  · split
    · exact ⟨_, _, _, rfl⟩
    · exact ⟨_, _, _, rfl⟩
  · exact ⟨_, _, _, rfl⟩

theorem issueWant_bounds (t : TrdBlk) (e m tgt : Nat) (holds : Bool) : 32 ≤ issueWant t e m tgt holds ∧ issueWant t e m tgt holds ≤ 256 := by
  unfold issueWant
  dsimp only
  split_ifs <;> omega

/-- A governing reading above the cap takes n down by one at least, as far as 32 (R416). -/
theorem issueWant_above {t : TrdBlk} {e m : Nat} (tgt : Nat) (holds : Bool) (above : t.inForce < if t.measGoverns then m else e) :
    issueWant t e m tgt holds ≤ max 32 (t.issueN - 1) := by
  unfold issueWant
  dsimp only
  split
  · omega
  · rw [if_pos (by rw [decide_eq_true above]; rfl)]
    omega

/-- A root at or above 4.2 GHz stays there. -/
theorem le_slew {root : Nat} (allowed room close : Bool) (step : Nat) (high : 4200000 ≤ root) : 4200000 ≤ slew allowed room close step root := by
  unfold slew
  split
  · omega
  · split <;> omega

/-- The n of the next interval (R414, R421, R423). -/
def nextIssue (t : TrdBlk) (want : Nat) : Nat := if t.em.any then 32 else if t.ramp then min want (t.issueN + 160) else want

theorem nextIssue_bounds {t : TrdBlk} {want : Nat} (low : 32 ≤ want) (high : want ≤ 256) (was : 32 ≤ t.issueN) :
    32 ≤ nextIssue t want ∧ nextIssue t want ≤ 256 := by
  unfold nextIssue
  split
  · omega
  · split <;> omega

theorem nextIssue_free {t : TrdBlk} {want : Nat} (noEm : t.em.any = false) (noRamp : t.ramp = false) : nextIssue t want = want := by
  rw [nextIssue, noEm, noRamp]
  rfl

theorem control_rest (e m tgt : Nat) (hot : Sensor) (hq : Nat) (s : State) : ∃ trd, control e m tgt hot hq s =
      { s with trd := trd, freeCtr := s.freeCtr + 1 } ∧
    (∃ holds, trd.issueN = nextIssue s.trd (issueWant s.trd (s.trd.estimate e) m tgt holds)) ∧
    (∃ allowed room close step, trd.rootKhz = slew allowed room close step s.trd.rootKhz) ∧
    (trd.inForce = s.trd.inForce ∧ trd.ladder = s.trd.ladder ∧ trd.hostCap = s.trd.hostCap ∧ trd.mgmtCap = s.trd.mgmtCap ∧
      trd.sensorCap = s.trd.sensorCap) ∧
    trd.hotQuarter = hq ∧ trd.readings.head? = some (s.trd.estimate e, m) :=
  ⟨_, rfl, ⟨_, rfl⟩, ⟨_, _, _, _, rfl⟩, ⟨rfl, rfl, rfl, rfl, rfl⟩, rfl, rfl⟩

/-- The accumulator over one more cycle: it takes n, and allows an issue where it passes 256 (R414). -/
theorem issueCycles_succ {acc n : Nat} (k : Nat) (small : n ≤ 256) : issueCycles acc n (k + 1) =
    if 256 ≤ (issueCycles acc n k).1 + n then ((issueCycles acc n k).1 + n - 256, (issueCycles acc n k).2 + 1)
    else ((issueCycles acc n k).1 + n, (issueCycles acc n k).2) := by
  have next : acc + (k + 1) * n = acc + k * n + n := by rw [Nat.succ_mul, Nat.add_assoc]
  by_cases passes : 256 ≤ (issueCycles acc n k).1 + n
  · rw [if_pos passes]
    simp only [issueCycles, next, Prod.mk.injEq] at passes ⊢
    omega
  · rw [if_neg passes]
    simp only [issueCycles, next, Prod.mk.injEq] at passes ⊢
    omega

/-- Settles O30: the caps in force, then the loop of `control`; and the accumulator's arithmetic. -/
theorem controlIntervalRow : Obligations.ControlIntervalRow := by
  refine ⟨fun e m tgt hq hot s notOff notHeld low high root => ?_, fun acc n k bound small => ⟨?_, issueCycles_succ k small, ?_⟩⟩
  · obtain ⟨tel, held, missed, caps⟩ := applyCaps_rest s
    obtain ⟨trd, run, ⟨holds, issue⟩, ⟨allowed, room, close, step, slewed⟩, ⟨inForce, ladder, host, mgmt, sensor⟩, hotter, reading⟩ :=
      control_rest e m tgt hot hq (applyCaps s)
    rw [caps] at issue slewed inForce ladder host mgmt sensor reading
    have on : exec (.controlInterval e m tgt hot hq) s = .next (control e m tgt hot hq (applyCaps s)) :=
      next_neg (by simp [notOff, notHeld])
    rw [run, caps] at on
    obtain ⟨least, most⟩ := issueWant_bounds _ (s.trd.estimate e) m tgt holds
    obtain ⟨issueLow, issueHigh⟩ := nextIssue_bounds least most low
    refine ⟨_, on, rfl, inForce, issue ▸ issueLow, issue ▸ issueHigh, fun em => ?_,
      slewed ▸ le_slew _ _ _ _ root, ladder, host, mgmt, sensor, hotter, reading, fun noEm noRamp above => ?_⟩
    · exact issue.trans (if_pos em)
    · exact (issue.trans (nextIssue_free noEm noRamp)).trans_le (issueWant_above tgt holds above)
  · simp only [issueCycles, Prod.mk.injEq]
    omega
  · simp only [issueCycles, Prod.mk.injEq]
    omega

end Sys2Proof.Machine
end

section
/-! What a change of the ladder leaves (family 13). -/

namespace Sys2Proof.Machine

-- What a change of the ladder leaves (R411 to R413, R427).

/-- The ladder, what the host and a thermal trip have set beside it, and the module's own state. -/
def State.rung (s : State) := (s.trd.ladder, s.trd.target, s.trd.freeDraftEn, s.trd.tripped, s.mod)

theorem rung_of_quiet {s t : State} (h : t.quiet = s.quiet) : t.rung = s.rung := by
  rw [State.rest_of h]
  rfl

theorem portsOff_quiet (s : State) : (portsOff s).quiet = s.quiet := foldl_quiet _ (fun t p => retrainPort_quiet p _ t) _ s

@[simp] theorem portsOff_rung (s : State) : (portsOff s).rung = s.rung := rung_of_quiet (portsOff_quiet s)

@[simp] theorem abortLoad_rung (s : State) : (abortLoad s).rung = s.rung := by
  obtain ⟨tel, warp, resumed, h, -⟩ := abortLoad_rest s
  rw [h]
  rfl

@[simp] theorem attachReset_rung (kind : AttachKind) (s : State) : (attachReset kind s).rung = s.rung := by
  obtain ⟨tel, warp, resumed, h, -⟩ := attachReset_rest kind s
  rw [h]
  rfl

@[simp] theorem loseAll_rung (s : State) : (loseAll s).rung = s.rung := by
  change (if s.hub.linkUp then attachReset .linkDown s else abortLoad s).rung = s.rung
  split <;> simp only [attachReset_rung, abortLoad_rung]

@[simp] theorem completeStep_rung (status batch : Nat) (s : State) : (completeStep status batch s).rung = s.rung := by
  obtain ⟨tel, weft, h⟩ := completeStep_rest status batch s
  rw [h]
  rfl

@[simp] theorem leaveT3_rung (s : State) : (leaveT3 s).rung = s.rung := by
  unfold leaveT3
  dsimp only
  split
  · rw [completeStep_rung]
    rfl
  · rfl

@[simp] theorem arrive_rung (new : Ladder) (s : State) : (arrive new s).rung = s.rung := by
  cases new with
  | t0 | t1 => rfl
  | t2 => simp only [arrive, portsOff_rung]
  | t3 =>
    have lost (u : State) (f : HubBlk → HubBlk) : ((loseSram u).onHub f).rung = u.rung := rfl
    simp only [arrive, lost, portsOff_rung]
  | t4 => simp only [arrive, loseAll_rung]

@[simp] theorem dropImage_rung (st : Loader) (s : State) : (dropImage st s).rung = s.rung := by
  obtain ⟨rov, tel, weft, stp, h⟩ := haltStep_dropJobFrames_rest s
  change (haltStep (dropJobFrames s)).rung = s.rung
  rw [h]
  rfl

@[simp] theorem loseCommitted_rung (s : State) : (loseCommitted s).rung = s.rung :=
  (rung_of_quiet (helloAll_quiet _)).trans (dropImage_rung .empty s)

@[simp] theorem loseStep_rung (s : State) : (loseStep s).rung = s.rung := by
  obtain ⟨cores, bob, res, ply, hanks, lowRank, h⟩ := endExecution_rest (noteOutcome 5 s)
  change (endExecution (noteOutcome 5 s)).rung = s.rung
  rw [h]
  rfl

/-- The ladder enters the new state, and keeps the rest (R411). -/
theorem enterLadder_rung {new : Ladder} (who : Nat) {s : State} (other : s.trd.ladder ≠ new) :
    (enterLadder new who s).rung = (new, s.trd.target, s.trd.freeDraftEn, s.trd.tripped, s.mod) := by
  have left : (if s.trd.ladder == .t3 then leaveT3 s else s).rung = s.rung := by
    split <;> simp only [leaveT3_rung]
  have settled (u : State) (h : u.rung = s.rung) (f : TrdBlk → TrdBlk) (hf : ∀ t, (f t).ladder = new ∧ (f t).target = t.target ∧
      (f t).freeDraftEn = t.freeDraftEn ∧ (f t).tripped = t.tripped) :
      (arrive new (u.onTrd f)).rung = (new, s.trd.target, s.trd.freeDraftEn, s.trd.tripped, s.mod) := by
    rw [arrive_rung]
    simp only [State.rung, Prod.mk.injEq, State.onTrd] at h ⊢
    obtain ⟨-, target, draft, tripped, mod⟩ := h
    obtain ⟨l, a, b, c⟩ := hf u.trd
    exact ⟨l, a.trans target, b.trans draft, c.trans tripped, mod⟩
  unfold enterLadder
  rw [if_neg (by simpa using other)]
  exact settled _ left _ fun _ => ⟨rfl, rfl, rfl, rfl⟩

/-- Between T0 and T1 only the treadle changes, and an event says so (R413, R421, R423). -/
theorem enterLadder_near {old new : Ladder} (who : Nat) {s : State} (now : s.trd.ladder = old) (near : old ≠ new)
    (step : (old = .t0 ∨ old = .t1) ∧ (new = .t0 ∨ new = .t1)) :
    enterLadder new who s = raise 0x3001 [ladderCode old, ladderCode new, who] { s with trd := { s.trd with
      ladder := new, sinceTick := s.clk.refTimer, stopping := false, issueN := if old == .t1 && new == .t0 then 32 else s.trd.issueN
      ramp := old == .t1 && new == .t0 } } := by
  have arrived (u : State) : arrive new u = u := by
    rcases step.2 with rfl | rfl <;> rfl
  have stays : ((old == Ladder.t3) = true) = False := by
    rcases step.1 with rfl | rfl <;> simp
  simp only [enterLadder, now, beq_iff_eq, near, if_false, arrived, stays]
  rfl

end Sys2Proof.Machine
end

section
/-! The emergency cap (O31, family 13). -/

namespace Sys2Proof.Machine

theorem next_eq {t u : State} (h : t = u) : (.next t : Out) = .next u := congrArg _ h

-- The emergency cap (R421 to R423).

theorem Emergency.get_put (e : Emergency) (src : EmSource) (v : Bool) : (e.put src v).get src = v := by
  cases src <;> rfl

theorem Emergency.any_of_get {e : Emergency} {src : EmSource} (h : e.get src = true) : e.any = true := by
  cases src <;> simp_all [Emergency.get, Emergency.any]

theorem assertEmergency_again {src : EmSource} {s : State} (asserts : s.trd.em.get src = true) : assertEmergency src s = s := if_pos asserts

/-- The treadle once a source asserts: n at 32, units stopping in T0 (R421, R422). -/
def TrdBlk.asserted (src : EmSource) (inStep : Bool) (t : TrdBlk) : TrdBlk :=
  { t with em := t.em.put src true, issueN := 32, stopping := t.ladder == .t0, ramp := false, emDuringStep := t.emDuringStep || inStep }

theorem assertEmergency_first {src : EmSource} {s : State} (first : s.trd.em.get src = false) :
    assertEmergency src s = reportEmergency src { s with trd := s.trd.asserted src s.stp.inStep } :=
  if_neg (by rw [first]; exact Bool.false_ne_true)

/-- An assertion is reported once the distaff runs, and noted until then. -/
theorem assertEmergency_running {src : EmSource} {s : State} (first : s.trd.em.get src = false) (runs : distaffRuns s = true) :
    ∃ tel, assertEmergency src s = { s with trd := s.trd.asserted src s.stp.inStep, tel := tel } :=
  ⟨_, (assertEmergency_first first).trans (if_pos runs)⟩

theorem assertEmergency_early {src : EmSource} {s : State} (first : s.trd.em.get src = false) (early : distaffRuns s = false) :
    assertEmergency src s = { s with trd := s.trd.asserted src s.stp.inStep, mod := { s.mod with emEarly := s.mod.emEarly ++ [src] } } :=
  (assertEmergency_first first).trans (if_neg (ne_of_eq_of_ne early Bool.false_ne_true))

theorem asserted_em (src : EmSource) (inStep : Bool) (t : TrdBlk) : (t.asserted src inStep).em.get src = true :=
  Emergency.get_put t.em src true

theorem releaseEmergency_one {src : EmSource} {s : State} (asserts : s.trd.em.get src = true) (more : (s.trd.em.put src false).any = true) :
    releaseEmergency src s = { s with trd := { s.trd with em := s.trd.em.put src false } } := by
  unfold releaseEmergency
  rw [asserts]
  exact if_pos more

/-- The last release takes a device in T1 back to T0 (R423). -/
theorem releaseEmergency_last {src : EmSource} {s : State} (asserts : s.trd.em.get src = true) (last : (s.trd.em.put src false).any = false)
    (t1 : s.trd.ladder = .t1) : ∃ tel, releaseEmergency src s = { s with tel := tel, trd := { s.trd with
      em := s.trd.em.put src false, ladder := .t0, sinceTick := s.clk.refTimer, stopping := false, issueN := 32, ramp := true } } := by
  have quiet : ¬({ s.trd with em := s.trd.em.put src false } : TrdBlk).em.any = true := by
    rw [last]
    exact Bool.false_ne_true
  have here : (s.trd.ladder == Ladder.t1) = true := beq_iff_eq.2 t1
  have back := enterLadder_near (new := .t0) 2 (s := { s with trd := { s.trd with em := s.trd.em.put src false } }) t1 (by decide) (by decide)
  obtain ⟨tel, told⟩ := (raise_tellsOnly 0x3001 [ladderCode .t1, ladderCode .t0, 2] { s with trd := { s.trd with
    em := s.trd.em.put src false, ladder := .t0, sinceTick := s.clk.refTimer, stopping := false, issueN := 32, ramp := true } }).trans
    (raise_tellsOnly 0x3112 [] _)
  refine ⟨tel, Eq.trans ?_ told⟩
  unfold releaseEmergency
  rw [asserts]
  exact (if_neg quiet).trans (congrArg (raise 0x3112 []) ((if_pos here).trans back))

/-- Settles O31: assertion, release and the end of the stopping. -/
theorem emergencyRows : Obligations.EmergencyRows := by
  intro src s
  refine ⟨fun again => next_eq (assertEmergency_again again), fun first => ?_, rfl, rfl, fun runs ready => ⟨?_, ?_⟩,
    fun stopping asserted t0 => ?_, fun asserts more => next_eq (releaseEmergency_one asserts more), fun asserts last t1 => ?_⟩
  · have asserts := asserted_em src s.stp.inStep s.trd
    cases runs : distaffRuns s with
    | true =>
      obtain ⟨tel, h⟩ := assertEmergency_running first runs
      exact ⟨_, next_eq h, asserts, Emergency.any_of_get asserts, rfl, rfl, fun _ => rfl, nofun⟩
    | false =>
      exact ⟨_, next_eq (assertEmergency_early first runs), asserts, Emergency.any_of_get asserts, rfl, rfl, nofun, fun _ => rfl⟩
  · exact next_eq (managed_ready runs ready)
  · exact next_eq (managed_ready runs ready)
  · have near := enterLadder_near (new := .t1) 2 t0 (by decide) (by decide)
    exact ⟨_, (next_pos (by rw [stopping, asserted]; rfl)).trans (congrArg _ near), rfl, rfl, rfl⟩
  · obtain ⟨tel, h⟩ := releaseEmergency_last asserts last t1
    exact ⟨_, next_eq h, rfl, rfl, rfl, last, rfl⟩

end Sys2Proof.Machine
end

section
/-! STATE_REQUEST (O33, family 13). -/

namespace Sys2Proof.Machine

-- STATE_REQUEST (R411 to R413).

/-- The treadle once the host has written its control register (R411). -/
def TrdBlk.asked (who : Requester) (val : Word) (t : TrdBlk) : TrdBlk :=
  match who with
  | .host => { t with freeDraftEn := wbit val 31, target := wfield val 30 28 }
  | .distaff => t

/-- The targets that a requester may name (R412). -/
def mayName : Requester → Nat → Prop
  | .host, n => n ≤ 3
  | .distaff, n => n ≤ 4

/-- What a state is accepted by is not what the control register holds. -/
theorem stateAccepted_asked (who : Requester) (new : Ladder) (w : Requester) (val : Word) (s : State) :
    stateAccepted who new { s with trd := s.trd.asked w val } = stateAccepted who new s := by
  cases w <;> rfl

/-- A request for a target that its requester may name enters the state or is refused, by the conditions of R412. -/
theorem writeTrdCtrl_named {who : Requester} {val : Word} {s : State} (request : wbit val 27 = true) (named : mayName who (wfield val 30 28)) :
    writeTrdCtrl who val s = if stateAccepted who (ladderOf (wfield val 30 28)) s then
        enterLadder (ladderOf (wfield val 30 28)) (whoCode who) { s with trd := s.trd.asked who val }
      else refuseCap (wfield val 30 28) (whoCode who) 3 { s with trd := s.trd.asked who val } := by
  have inside : ¬((who == .host && decide (4 ≤ wfield val 30 28)) || decide (5 ≤ wfield val 30 28)) = true := by
    cases who <;> simp [mayName] at named ⊢ <;> omega
  rw [← stateAccepted_asked who _ who val]
  cases who with
  | host => exact (if_neg inside).trans (if_pos request)
  | distaff => exact (if_neg inside).trans (if_pos request)

theorem writeTrdCtrl_accepted {who : Requester} {val : Word} {s : State} (request : wbit val 27 = true)
    (named : mayName who (wfield val 30 28)) (accepted : stateAccepted who (ladderOf (wfield val 30 28)) s = true) :
    writeTrdCtrl who val s = enterLadder (ladderOf (wfield val 30 28)) (whoCode who) { s with trd := s.trd.asked who val } :=
  (writeTrdCtrl_named request named).trans (if_pos accepted)

theorem writeTrdCtrl_notAccepted {who : Requester} {val : Word} {s : State} (request : wbit val 27 = true)
    (named : mayName who (wfield val 30 28)) (no : stateAccepted who (ladderOf (wfield val 30 28)) s = false) :
    writeTrdCtrl who val s = refuseCap (wfield val 30 28) (whoCode who) 3 { s with trd := s.trd.asked who val } :=
  (writeTrdCtrl_named request named).trans (if_neg (ne_of_eq_of_ne no Bool.false_ne_true))

/-- A target that the requester may not name is refused, and not stored (R412). -/
theorem writeTrdCtrl_unnamed_host {val : Word} {s : State} (far : 4 ≤ wfield val 30 28) :
    writeTrdCtrl .host val s = refuseCap (wfield val 30 28) 0 3 { s with trd := { s.trd with freeDraftEn := wbit val 31 } } :=
  if_pos (by simp [far])

theorem writeTrdCtrl_unnamed_distaff {val : Word} {s : State} (far : 5 ≤ wfield val 30 28) :
    writeTrdCtrl .distaff val s = refuseCap (wfield val 30 28) 1 3 s :=
  if_pos (by simp [far])

/-- An accepted request enters its state, and leaves what stands beside the ladder, and module flash. -/
theorem writeTrdCtrl_enters {who : Requester} {val : Word} {s : State} (request : wbit val 27 = true)
    (named : mayName who (wfield val 30 28)) (accepted : stateAccepted who (ladderOf (wfield val 30 28)) s = true)
    (other : s.trd.ladder ≠ ladderOf (wfield val 30 28)) :
    (writeTrdCtrl who val s).trd.ladder = ladderOf (wfield val 30 28) ∧ (writeTrdCtrl who val s).trd.target = (s.trd.asked who val).target ∧
      (writeTrdCtrl who val s).trd.freeDraftEn = (s.trd.asked who val).freeDraftEn ∧ (writeTrdCtrl who val s).flash = s.flash := by
  have otherAsked : ({ s with trd := s.trd.asked who val } : State).trd.ladder ≠ ladderOf (wfield val 30 28) := by cases who <;> exact other
  have entered := enterLadder_rung (whoCode who) otherAsked
  have flash := State.flash_of (writeTrdCtrl_lead who val s)
  rw [writeTrdCtrl_accepted request named accepted] at flash ⊢
  simp only [State.rung, Prod.mk.injEq] at entered
  obtain ⟨ladder, target, draft, -⟩ := entered
  exact ⟨ladder, target, draft, flash⟩

theorem stateAccepted_t0_emergency {who : Requester} {s : State} (em : s.trd.em.any = true) : stateAccepted who .t0 s = false := by
  simp [stateAccepted, em]

theorem stateAccepted_t1_inStep {s : State} (step : s.stp.inStep = true) : stateAccepted .host .t1 s = false := by
  simp [stateAccepted, step]

theorem stateAccepted_busy {who : Requester} {n : Ladder} {s : State} (busy : s.stp.inStep = true ∨ loadRunning s = true)
    (deep : n = .t2 ∨ n = .t3 ∨ n = .t4) : stateAccepted who n s = false := by
  have working : (!s.stp.inStep && !loadRunning s) = false := by
    rcases busy with h | h <;> simp [h]
  rcases deep with rfl | rfl | rfl <;> simp only [stateAccepted, working, Bool.and_false]

theorem stateAccepted_host_t4 (s : State) : stateAccepted .host .t4 s = false := by
  simp [stateAccepted]

/-- Settles O33: the request by its requester, its target and the conditions of R412. -/
theorem stateRequestRow : Obligations.StateRequestRow := by
  intro v s request
  have host (ready : isReady s = true) : exec (.stateRequest .host v) s = .next (writeTrdCtrl .host v s) := checked_gated_ready request ready
  have distaff (runs : distaffRuns s = true) (attested : s.sec.attestReady = true) :
      exec (.stateRequest .distaff v) s = .next (writeTrdCtrl .distaff v s) :=
    (if_pos request).trans (next_eq (managed_ready runs attested))
  refine ⟨fun who => ⟨_, (if_pos request).trans rfl⟩, fun ready named other accepted => ?_, fun ready named no => ?_, fun ready far => ?_,
    fun runs attested named other accepted => ?_, fun runs attested no => ?_, fun who => stateAccepted_t0_emergency, stateAccepted_t1_inStep,
    fun who n => stateAccepted_busy, stateAccepted_host_t4 s⟩
  · exact ⟨_, host ready, writeTrdCtrl_enters (who := .host) request named accepted other⟩
  · exact (host ready).trans (next_eq (writeTrdCtrl_notAccepted (who := .host) request named no))
  · exact (host ready).trans (next_eq (writeTrdCtrl_unnamed_host far))
  · obtain ⟨ladder, -, -, flash⟩ := writeTrdCtrl_enters (who := .distaff) request named accepted other
    exact ⟨_, distaff runs attested, ladder, flash⟩
  · refine (distaff runs attested).trans (next_eq ?_)
    by_cases far : 5 ≤ wfield v 30 28
    · exact writeTrdCtrl_unnamed_distaff far
    · exact writeTrdCtrl_notAccepted (who := .distaff) request (Nat.le_of_lt_succ (not_le.1 far)) (no.resolve_left far)

end Sys2Proof.Machine
end

section
/-! The thermal limit, the hardware trip and the reference clock (O32, family 13). -/

namespace Sys2Proof.Machine

-- The thermal limit (R426).

theorem noteHot_em (x : Sensor) (q : Nat) (t : TrdBlk) : (noteHot x q t).em = t.em := by
  unfold noteHot
  split <;> rfl

theorem noteHot_ladder (x : Sensor) (q : Nat) (t : TrdBlk) : (noteHot x q t).ladder = t.ladder := by
  unfold noteHot
  split <;> rfl

theorem noteHot_quarter (x : Sensor) (q : Nat) (t : TrdBlk) : (noteHot x q t).hotQuarter = max t.hotQuarter q := by
  unfold noteHot
  split
  next hotter => exact (max_eq_right hotter.le).symm
  next cooler => exact (max_eq_left (not_lt.1 cooler)).symm

theorem noteHot_sensor {x : Sensor} {q : Nat} {t : TrdBlk} (hotter : t.hotQuarter < q) : (noteHot x q t).hotSensor = x := by
  rw [noteHot, if_pos hotter]

theorem thermalLimit_asserts {x : Sensor} {q : Nat} {s : State} (above : thermalAssert x < q) (runs : distaffRuns s = true)
    (first : s.trd.em.thermal = false) :
    ∃ tel, exec (.thermalLimit x q) s = .next { s with trd := (noteHot x q s.trd).asserted .thermal s.stp.inStep, tel := tel } := by
  obtain ⟨tel1, told⟩ := raise_tellsOnly 0x3301 [sensorCode x, q] (s.onTrd (noteHot x q))
  obtain ⟨tel, asserts⟩ := assertEmergency_running (src := .thermal) (s := { s.onTrd (noteHot x q) with tel := tel1 })
    ((congrArg Emergency.thermal (noteHot_em x q s.trd)).trans first) runs
  refine ⟨tel, (next_pos (by simp [above, runs, first])).trans (next_eq ?_)⟩
  rw [told]
  exact asserts

-- The hardware trip (R427).

/-- The fall of the ports takes each out of JOINED and UP. -/
theorem portsOff_off (p : PortIx) (s : State) : ((portsOff s).port p).st ≠ .joined ∧ ((portsOff s).port p).st ≠ .up := by
  obtain ⟨before, -, turn⟩ := port_foldl_finRange (p := p) (f := fun t q => retrainPort q (causeCode .lock) t)
    (fun t q other => port_retrain_other _ t (Ne.symm other)) s
  unfold portsOff
  rw [turn]
  generalize before.foldl _ s = u
  cases now : (u.port p).st with
  | joined => simp [port_retrain_joined _ _ _ now]
  | up =>
    rw [port_retrain_up _ _ _ now]
    dsimp only
    split <;> simp
  | _ => simp [retrainPort, now]

/-- What a hardware trip loses before it enters T3: the committed execution, or the running step. -/
def tripped (s : State) : State := if s.stp.pActive then loseCommitted s else if s.stp.inStep then loseStep s else s

theorem tripped_rung (s : State) : (tripped s).rung = s.rung := by
  unfold tripped
  split
  · exact loseCommitted_rung s
  · split
    · exact loseStep_rung s
    · rfl

theorem hardwareTrip_eq {s : State} (awake : s.trd.ladder ≠ .t4) : hardwareTrip s = enterLadder .t3 2 (tripped s) :=
  if_neg (by simpa using awake)

/-- The entry into T3 takes the ports down and switches the SRAM off. -/
theorem enterLadder_t3 (who : Nat) {s : State} (other : s.trd.ladder ≠ .t3) : (∀ p, ((enterLadder .t3 who s).port p).st ≠ .joined ∧
      ((enterLadder .t3 who s).port p).st ≠ .up) ∧
    (enterLadder .t3 who s).acc = [] ∧ (enterLadder .t3 who s).spool = [] ∧ (enterLadder .t3 who s).creel = [] := by
  have arrived (c : Half) (l : List Nat) (u : State) : (∀ p, ((raise c l (arrive .t3 u)).port p).st ≠ .joined ∧
      ((raise c l (arrive .t3 u)).port p).st ≠ .up) ∧
      (raise c l (arrive .t3 u)).acc = [] ∧ (raise c l (arrive .t3 u)).spool = [] ∧ (raise c l (arrive .t3 u)).creel = [] := by
    have port (v : State) (f : HubBlk → HubBlk) (p : PortIx) : (raise c l ((loseSram v).onHub f)).port p = v.port p := rfl
    simp only [arrive, port]
    exact ⟨fun p => portsOff_off p u, rfl, rfl, rfl⟩
  unfold enterLadder
  rw [if_neg (by simpa using other)]
  exact arrived ..

/-- A hardware trip of a device above T3 enters T3 (R427). -/
theorem hardwareTrip_t3 {s : State} (above : s.trd.ladder ≠ .t3) (awake : s.trd.ladder ≠ .t4) :
    (hardwareTrip s).rung = (.t3, s.trd.target, s.trd.freeDraftEn, s.trd.tripped, s.mod) ∧
    ((∀ p, ((hardwareTrip s).port p).st ≠ .joined ∧ ((hardwareTrip s).port p).st ≠ .up) ∧
      (hardwareTrip s).acc = [] ∧ (hardwareTrip s).spool = [] ∧ (hardwareTrip s).creel = []) ∧ (hardwareTrip s).flash = s.flash := by
  have same := tripped_rung s
  simp only [State.rung, Prod.mk.injEq] at same
  obtain ⟨ladder, target, draft, trip, mod⟩ := same
  have other : (tripped s).trd.ladder ≠ .t3 := ladder ▸ above
  have entered := enterLadder_rung 2 other
  rw [target, draft, trip, mod] at entered
  exact ⟨hardwareTrip_eq awake ▸ entered, hardwareTrip_eq awake ▸ enterLadder_t3 2 other, State.flash_of (hardwareTrip_lead s)⟩

theorem thermalTrip_trips {x : Sensor} {q : Nat} {s : State} (above : thermalTripAt x < q) (on : s.mod.bring ≠ .off) (free : s.mod.bring ≠ .held) :
    ∃ tel, exec (.thermalTrip x q) s = .next (hardwareTrip { s with trd := { noteHot x q s.trd with tripped := true }, tel := tel }) := by
  obtain ⟨tel, told⟩ := raise_tellsOnly 0x3302 [sensorCode x, q] (s.onTrd fun t => { noteHot x q t with tripped := true })
  exact ⟨tel, (next_pos (by simp [above, on, free])).trans (next_eq (congrArg hardwareTrip told))⟩

/-- Settles O32: the thermal limit, the trip and the reference clock, each by its condition. -/
theorem thermalRows : Obligations.ThermalRows := by
  intro x q s
  refine ⟨fun _ _ => ⟨rfl, rfl⟩, fun _ => ⟨rfl, rfl⟩, fun _ _ => ⟨rfl, rfl⟩, fun above runs first => ?_, fun below => next_neg ?_, rfl,
    fun above on free notT3 notT4 => ?_, fun below => next_neg ?_, fun good on => next_pos ?_, fun holdover => next_pos ?_,
    fun holdover notT3 notT4 => ?_, fun lost => next_pos ?_⟩
  · obtain ⟨tel, run⟩ := thermalLimit_asserts above runs first
    exact ⟨_, run, rfl, rfl, noteHot_quarter x q s.trd, noteHot_sensor, rfl⟩
  · simp [not_lt.2 below]
  · obtain ⟨tel, run⟩ := thermalTrip_trips above on free
    obtain ⟨rung, ⟨ports, acc, spool, creel⟩, flash⟩ :=
      hardwareTrip_t3 (s := { s with trd := { noteHot x q s.trd with tripped := true }, tel := tel })
        ((noteHot_ladder x q s.trd).trans_ne notT3) ((noteHot_ladder x q s.trd).trans_ne notT4)
    simp only [State.rung, Prod.mk.injEq] at rung
    obtain ⟨ladder, -, -, trip, -⟩ := rung
    exact ⟨_, run, ladder, trip, ports, acc, spool, creel, flash⟩
  · simp [not_lt.2 below]
  · simp [good, on]
  · simp [holdover]
  · have run : exec .refclkLost s = .next (hardwareTrip (raise 0x3402 [] { s with mod := { s.mod with refclk := .lost, refFault := true } })) :=
      next_pos (by simp [holdover])
    obtain ⟨rung, -, flash⟩ := hardwareTrip_t3 (s := raise 0x3402 [] { s with mod := { s.mod with refclk := .lost, refFault := true } }) notT3 notT4
    simp only [State.rung, Prod.mk.injEq] at rung
    obtain ⟨ladder, -, -, -, mod⟩ := rung
    exact ⟨_, run, by rw [mod]; rfl, by rw [mod]; rfl, ladder, flash⟩
  · simp [lost]

end Sys2Proof.Machine
end

section
/-! The SPDM responder and the host's report (O57, family 14). -/

namespace Sys2Proof.Machine

-- When the responder answers (R457).

/-- The responder answers with the distaff running, and in recovery. -/
def Responds (s : State) : Prop := distaffRuns s = true ∨ s.mod.recovery = true

section
variable {f : State → State} {s : State}

theorem answer_responds (up : Responds s) : answer f s = f s :=
  if_pos (Bool.or_eq_true_iff.2 up)

theorem whenReady_early (up : Responds s) (early : s.sec.attestReady = false) : whenReady f s = reply .notReady s :=
  (answer_responds up).trans (if_neg (ne_of_eq_of_ne early Bool.false_ne_true))

theorem whenReady_attested (up : Responds s) (attested : s.sec.attestReady = true) : whenReady f s = f s :=
  (answer_responds up).trans (if_pos attested)

theorem next_answer {a : State} (up : Responds s) (h : f s = a) : (.next (answer f s) : Out) = .next a :=
  next_eq ((answer_responds up).trans h)

theorem next_whenReady {a : State} (up : Responds s) (attested : s.sec.attestReady = true) (h : f s = a) :
    (.next (whenReady f s) : Out) = .next a :=
  next_eq ((whenReady_attested up attested).trans h)

/-- A request that first checks its nonce. -/
theorem checked_formed {ok : Bool} {a : State} (formed : ok = true) (h : s = a) : checked ok s = .next a :=
  (if_pos formed).trans (next_eq h)

theorem nonce_formed {n : List Byte} (h : n.length = 32) : (n.length == 32) = true := beq_iff_eq.2 h
end

theorem if_false_of {α : Type} {b : Bool} {x y : α} (h : b = false) : (if b = true then x else y) = y :=
  if_neg (ne_of_eq_of_ne h Bool.false_ne_true)

-- Requests before ATTEST_READY (R443, R457).

/-- The requests that wait for ATTEST_READY are answered not ready until then. -/
theorem request_early {s : State} (up : Responds s) (early : s.sec.attestReady = false) {c : Instr}
    (h : c ∈ [Instr.endSession, .heartbeat, .getQuarantineMap, .keyExchange [], .finish true, .getPqCert 0 1024, .challenge 0 (List.replicate 32 0),
      .getMeasurements 1 (List.replicate 32 0)]) : exec c s = .next (reply .notReady s) := by
  simp only [List.mem_cons, List.not_mem_nil, or_false] at h
  rcases h with rfl | rfl | rfl | rfl | rfl | rfl | rfl | rfl
  · exact next_eq (whenReady_early up early)
  · exact next_eq (whenReady_early up early)
  · exact next_eq (whenReady_early up early)
  · exact next_eq (whenReady_early up early)
  · exact next_eq (whenReady_early up early)
  · exact next_eq (whenReady_early up early)
  · exact checked_formed rfl (whenReady_early up early)
  · exact checked_formed rfl (whenReady_early up early)

-- Measurements (R456).

theorem getMeasurements_block {s : State} (up : Responds s) (attested : s.sec.attestReady = true) (agreed : s.spdm.algorithms = true)
    {n : List Byte} (formed : n.length = 32) {i : Nat} {b : List Byte} (low : 1 ≤ i) (high : i ≤ 8) (block : measBlock s i = some b) :
    exec (.getMeasurements i n) s = .next (reply (.measurements b (Config.edSign edSeed (Config.spdmSigned 0xE0 (n ++ b)))) s) := by
  refine checked_formed (nonce_formed formed) ((whenReady_attested up attested).trans ?_)
  dsimp only
  split
  next x chosen =>
    split at chosen
    · omega
    · omega
    · obtain rfl : b = x := Option.some.inj (block.symm.trans chosen)
      exact if_pos agreed
  next chosen =>
    split at chosen
    · cases chosen
    · cases chosen
    · cases block.symm.trans chosen

-- The host's report (R456, R462).

theorem reportRequest_row {s : State} (ready : isReady s = true) {v : Word} (start : wbit v 31 = true) (keep : wbit v 29 = false) :
    exec (.reportRequest v) s = .next (if s.sec.attestReady && s.sec.reporting.isNone && s.sec.addrLo.toNat % 64 == 0 then
        { s with sec := { s.sec with done := false, reporting := some (pairAddr s.sec.addrLo s.sec.addrHi, report (wordsBytes s.sec.nonce) s) } }
      else raise 0x6011 [1] { s with sec := { s.sec with refused := true } }) := by
  refine (checked_gated_ready start ready).trans (next_eq ?_)
  unfold writeReportCtrl
  rw [start, keep]
  rfl

theorem reportTick_of_some {s : State} {a : Nat} {bs : List Byte} (h : s.sec.reporting = some (a, bs)) : reportTick s =
    raise 0x6010 [1, s.sec.pairStep] (count 48 0x6000D8 1 (hostWrite a bs { s with sec := { s.sec with done := true, reporting := none } })) := by
  rw [reportTick, h]
  rfl

/-- Settles O57: each request by the state of the negotiation, ATTEST_READY and the session. -/
theorem spdmRows : Obligations.SpdmRows := by
  intro s
  refine ⟨fun up => ⟨?_, ?_, ?_, ?_, ?_, ?_, ?_, ?_⟩, fun session => next_pos session, fun none => next_eq (if_false_of none),
    fun ready v start keep => ⟨fun attested free aligned => ?_, fun bad => ?_⟩, fun a bs => reportTick_of_some⟩
  · exact next_answer up rfl
  · exact fun version => next_answer up (if_pos version)
  · exact fun capabilities => next_answer up (if_pos capabilities)
  · exact fun none => next_answer up (if_false_of none)
  · exact fun none => next_answer up (if_false_of none)
  · refine fun agreed => ⟨next_answer up (if_pos agreed), fun o n => next_answer up (if_pos (by rw [agreed]; rfl)),
      fun k o n other => next_answer up (if_false_of ?_)⟩
    rw [agreed]
    exact beq_false_of_ne other
  · intro early
    refine ⟨fun c => request_early up early, fun n formed => ?_⟩
    exact checked_formed (nonce_formed formed) ((answer_responds up).trans (if_false_of early))
  · intro attested
    refine ⟨fun n formed => ?_, ?_, ?_, ?_, ?_, ?_, ?_⟩
    · exact checked_formed (nonce_formed formed) ((answer_responds up).trans (if_pos attested))
    · exact next_whenReady up attested rfl
    · exact fun o n => next_whenReady up attested rfl
    · refine fun agreed => ⟨fun n formed => ⟨?_, fun i b low high => getMeasurements_block up attested agreed formed low high⟩,
        fun x => next_whenReady up attested (if_pos agreed)⟩
      exact checked_formed (nonce_formed formed) ((whenReady_attested up attested).trans (if_pos (by rw [agreed]; rfl)))
    · exact fun handshake ok => next_whenReady up attested (if_pos handshake)
    · exact fun none ok => next_whenReady up attested (if_false_of none)
    · exact fun session => ⟨next_whenReady up attested (if_pos session), next_whenReady up attested (if_pos session)⟩
  · refine (reportRequest_row ready start keep).trans (next_pos ?_)
    simp [attested, free, aligned]
  · refine (reportRequest_row ready start keep).trans (next_eq (if_false_of ?_))
    rcases bad with early | busy | askew
    · simp [early]
    · simp [Option.isNone_eq_false_iff.2 busy]
    · simp [askew]

end Sys2Proof.Machine
end

section
/-! Deliveries to module flash and the owner commands (O56, family 14). -/

namespace Sys2Proof.Machine

-- Management commands before and after ATTEST_READY (R443, R457).

section
variable {f : State → State} {s : State}

theorem managed_early (runs : distaffRuns s = true) (early : s.sec.attestReady = false) : managed f s = reply .notReady s := by
  rw [managed, runs, early]
  rfl
end

-- Deliveries (R438, R442, R443).

theorem slots_putSlots (f : SecFlash) (st : BootStage) (x : FwSlots) : (f.putSlots st x).slots st = x := by
  cases st <;> rfl

theorem floorWarp_putSlots (f : SecFlash) (st : BootStage) (x : FwSlots) : (f.putSlots st x).floorWarp = f.floorWarp := by
  cases st <;> rfl

/-- An image goes to the slot that the stage did not boot from (R442). -/
def delivered (img : List Byte) (x : FwSlots) : FwSlots :=
  if x.bootedB then { x with a := img, staged := true } else { x with b := img, staged := true }

theorem delivered_slots (img : List Byte) (x : FwSlots) : (delivered img x).staged = true ∧ (delivered img x).activeB = x.activeB ∧
    (delivered img x).bootedB = x.bootedB ∧ (delivered img x).get (!x.bootedB) = img ∧ (delivered img x).get x.bootedB = x.get x.bootedB := by
  obtain ⟨a, b, activeB, bootedB, staged⟩ := x
  cases bootedB <;> exact ⟨rfl, rfl, rfl, rfl, rfl⟩

/-- An image is taken in recovery, and once ATTEST_READY is set (R443). -/
def TakesImages (s : State) : Prop := s.mod.recovery = true ∨ (distaffRuns s = true ∧ s.sec.attestReady = true)

section
variable {img : List Byte} {via : Carrier} {s : State} (comes : admitted via s = true)
include comes

theorem notAdmitted_false : ¬(!admitted via s) = true := by
  rw [comes]
  exact Bool.false_ne_true

theorem firmwareUpdate_good (taken : TakesImages s) (good : (fwVerify s (imageStage img) img).2 = true) :
    ∃ tel, exec (.firmwareUpdate img via) s =
      .next { s with tel := tel, flash := s.flash.putSlots (imageStage img) (delivered img (s.flash.slots (imageStage img))) } := by
  obtain ⟨tel1, told⟩ := countSigFail_tellsOnly (fwVerify s (imageStage img) img).1 s
  obtain ⟨tel, tells⟩ := raise_tellsOnly 0x6050
    [stageNo (imageStage img), b2n !(s.flash.slots (imageStage img)).bootedB, (imageWord img 3).toNat]
    ((countSigFail (fwVerify s (imageStage img) img).1 s).onFlash fun f =>
      f.putSlots (imageStage img) (delivered img (s.flash.slots (imageStage img))))
  refine ⟨tel, (next_neg (notAdmitted_false comes)).trans ((next_pos ?_).trans ((next_pos good).trans (next_eq (tells.trans ?_))))⟩
  · simpa [TakesImages] using taken
  · rw [told]
    rfl

theorem firmwareUpdate_bad (taken : TakesImages s) (bad : (fwVerify s (imageStage img) img).2 = false) : exec (.firmwareUpdate img via) s =
    .next (raise 0x6051 [stageNo (imageStage img)] (countSigFail (fwVerify s (imageStage img) img).1 s)) := by
  refine (next_neg (notAdmitted_false comes)).trans ((next_pos ?_).trans (next_eq (if_false_of bad)))
  simpa [TakesImages] using taken

theorem firmwareUpdate_early (runs : distaffRuns s = true) (early : s.sec.attestReady = false) (healthy : s.mod.recovery = false) :
    exec (.firmwareUpdate img via) s = .next (reply .notReady s) := by
  refine (next_neg (notAdmitted_false comes)).trans ((next_neg ?_).trans (next_eq (managed_early runs early)))
  simp [early, healthy]
end

-- Owner commands (R446, R447).

/-- Owner commands are heard inside a session, once the distaff runs and ATTEST_READY is set. -/
def InSession (s : State) : Prop := distaffRuns s = true ∧ s.sec.attestReady = true ∧ s.spdm.session = true

section
variable {opcode cause opFails : Nat} {e : OwnerEnv} {operands : List (List Byte)} {act : State → State} {s : State} (inSession : InSession s)
include inSession

theorem inSession_true : (distaffRuns s && s.sec.attestReady && s.spdm.session) = true := by
  obtain ⟨runs, attested, session⟩ := inSession
  rw [runs, attested, session]
  rfl

/-- With a good envelope and no cause of its own against it, an owner command acts. -/
theorem ownerCommand_acts (envelope : ownerCause opcode e operands s = 0) (good : cause = 0) :
    ownerCommand opcode e operands cause opFails act s = reply (.ownerStatus 0) (act (spent s)) :=
  ownerCommand_accepted (inSession_true inSession) (by rw [answeredCause, envelope, good]; rfl)

/-- A refused owner command answers its cause and tells it, and changes nothing else. -/
theorem ownerCommand_answers (bad : answeredCause opcode e operands cause s ≠ 0) : ∃ tel out,
    ownerCommand opcode e operands cause opFails act s = { s with tel := tel, out := out } ∧
      out.mgmt = .ownerStatus (answeredCause opcode e operands cause s) :: s.out.mgmt := by
  obtain ⟨n, run⟩ := ownerCommand_refused (act := act) (opFails := opFails) (inSession_true inSession) bad
  obtain ⟨tel, told⟩ := (countSigFail_tellsOnly n s).trans (raise_tellsOnly 0x6023 [answeredCause opcode e operands cause s] _)
  exact ⟨tel, _, run.trans (congrArg (reply _) told), rfl⟩

theorem ownerCommand_denies {k : Nat} (envelope : ownerCause opcode e operands s = 0) (own : cause = k) (bad : k ≠ 0) : ∃ t,
    (.next (ownerCommand opcode e operands cause opFails act s) : Out) = .next t ∧ t.flash = s.flash ∧ t.out.mgmt = .ownerStatus k :: s.out.mgmt := by
  have answered : answeredCause opcode e operands cause s = k := by rw [answeredCause, envelope]; exact own
  obtain ⟨tel, out, run, status⟩ := ownerCommand_answers (act := act) (opFails := opFails) inSession (answered.trans_ne bad)
  exact ⟨_, next_eq run, rfl, answered ▸ status⟩

/-- What an owner command that acts leaves in module flash, and its answer. -/
theorem ownerCommand_does (envelope : ownerCause opcode e operands s = 0) (good : cause = 0) {f : SecFlash} (flash : (act (spent s)).flash = f)
    (out : (act (spent s)).out = s.out) : ∃ t, (.next (ownerCommand opcode e operands cause opFails act s) : Out) = .next t ∧
      t.out.mgmt = .ownerStatus 0 :: s.out.mgmt ∧ t.flash = f :=
  ⟨_, next_eq (ownerCommand_acts inSession envelope good), congrArg (fun o : OutBlk => MgmtReply.ownerStatus 0 :: o.mgmt) out, flash⟩

theorem ownerCommand_badEnvelope (bad : ownerCause opcode e operands s ≠ 0) : ∃ t,
    (.next (ownerCommand opcode e operands cause opFails act s) : Out) = .next t ∧
      t.out.mgmt = .ownerStatus (ownerCause opcode e operands s) :: s.out.mgmt ∧ t = { s with tel := t.tel, out := t.out, spdm := t.spdm } := by
  have own : answeredCause opcode e operands cause s = ownerCause opcode e operands s := if_pos (bne_iff_ne.2 bad)
  obtain ⟨tel, out, run, status⟩ := ownerCommand_answers (act := act) (opFails := opFails) inSession (own.trans_ne bad)
  exact ⟨_, next_eq run, own ▸ status, rfl⟩
end

/-- The mask of a list of cores has the bits of those cores. -/
theorem getLsbD_coreMask (cores : List CoreIx) (c : CoreIx) : (coreMask cores).getLsbD c.val = cores.contains c := by
  have folded (m : BitVec 576) : (cores.foldl (fun m c => m ||| BitVec.ofNat 576 (2 ^ c.val)) m).getLsbD c.val =
      (m.getLsbD c.val || cores.contains c) := by
    induction cores generalizing m with
    | nil => simp
    | cons d ds ih =>
      have bit : (BitVec.ofNat 576 (2 ^ d.val)).getLsbD c.val = (c == d) := by
        rw [BitVec.getLsbD_ofNat, Nat.testBit_two_pow, decide_eq_true c.isLt, Bool.true_and]
        simp [beq_eq_decide, Fin.ext_iff, eq_comm]
      rw [List.foldl_cons, ih, BitVec.getLsbD_or, bit, List.contains_cons, Bool.or_assoc]
  simpa [coreMask] using folded 0

/-- A service authorisation takes its cores out of quarantine, and no other (R450). -/
theorem getLsbD_cleared (map : BitVec 576) (cores : List CoreIx) (c : CoreIx) :
    (map &&& ~~~(coreMask cores)).getLsbD c.val = (map.getLsbD c.val && !cores.contains c) := by
  rw [BitVec.getLsbD_and, BitVec.getLsbD_not, getLsbD_coreMask, decide_eq_true c.isLt, Bool.true_and]

-- The lists and vouchers that a delivery brings (R438, R446).

/-- A voucher replaces the owner of a lower sequence number, or none. -/
def newerThan (n : Nat) (o : Option Owner) : Bool := match o with
  | none => true
  | some o => decide (o.sequence < n)

theorem newerThan_iff {n : Nat} {o : Option Owner} : newerThan n o = true ↔ ∀ p, o = some p → p.sequence < n := by
  cases o <;> simp [newerThan]

section
variable {s : State} (runs : distaffRuns s = true) (attested : s.sec.attestReady = true)
include runs attested

theorem revocationList_rows {l : Signed} {n : BitVec 32} {names : List (BitVec 32)} {via : Carrier} {k : Nat} (comes : admitted via s = true)
    (fails : k = sigFails (rootKeys s) "DVK-RVK" (Config.signedBytes 1 (leBytes 4 n.toNat :: names.map fun i => leBytes 4 i.toNat)) l.edSig l.mlSig) :
    (k = 0 → s.flash.rvkSeq ≤ n.toNat → exec (.revocationList l n names via) s =
      .next { s with flash := { s.flash with rvkSeq := n.toNat, rvkNames := names } }) ∧
    (k ≠ 0 ∨ n.toNat < s.flash.rvkSeq → exec (.revocationList l n names via) s = .next (countSigFail k s)) := by
  have run : exec (.revocationList l n names via) s = .next (if k == 0 && decide (s.flash.rvkSeq ≤ n.toNat) then
      s.onFlash fun f => { f with rvkSeq := n.toNat, rvkNames := names } else countSigFail k s) :=
    fails ▸ (next_neg (notAdmitted_false comes)).trans (next_eq (managed_ready runs attested))
  refine ⟨fun good newer => run.trans (next_pos (by simp [good, newer])), fun bad => run.trans (next_eq (if_false_of ?_))⟩
  rcases bad with bad | older
  · simp [bad]
  · simp [not_le.2 older]

theorem ownershipVoucher_rows {v : Signed} {ser : BitVec 64} {n : BitVec 32} {ed ml : List Byte} {k : Nat} (fails : k = sigFails (rootKeys s)
      "DVK-VOUCH" (Config.signedBytes 2 [leBytes 8 ser.toNat, leBytes 4 n.toNat, ed, ml]) v.edSig v.mlSig) :
    (k = 0 → ser.toNat = moduleSerial → (∀ o, s.flash.owner = some o → o.sequence < n.toNat) →
      exec (.ownershipVoucher v ser n ed ml) s = .next { s with flash := SecFlash.putStore { s.flash with
        owner := some ⟨ed, ml, n.toNat⟩, warpKeys := [], revokedKeys := [], sealKeys := [] } }) ∧
    (k ≠ 0 ∨ ser.toNat ≠ moduleSerial ∨ (∃ o, s.flash.owner = some o ∧ n.toNat ≤ o.sequence) →
      exec (.ownershipVoucher v ser n ed ml) s = .next (countSigFail k s)) := by
  have run : exec (.ownershipVoucher v ser n ed ml) s = .next (if k == 0 && ser.toNat == moduleSerial && newerThan n.toNat s.flash.owner then
      { s with flash := SecFlash.putStore { s.flash with
        owner := some ⟨ed, ml, n.toNat⟩, warpKeys := [], revokedKeys := [], sealKeys := [] } } else countSigFail k s) :=
    fails ▸ next_eq (managed_ready runs attested)
  refine ⟨fun good this newer => run.trans (next_pos ?_), fun bad => run.trans (next_eq (if_false_of ?_))⟩
  · rw [good, this, newerThan_iff.2 newer]
    simp
  · rcases bad with bad | other | ⟨o, owned, older⟩
    · simp [bad]
    · simp [other]
    · simp [owned, newerThan, not_lt.2 older]
end

-- The six owner commands.

/-- What speaks against the enrolment of a warp key (R446, R447). -/
def enrolCause (f : SecFlash) (id : Word) : Nat :=
  if f.revokedKeys.contains id then 6
  else if (f.warpKeys.filter fun k => k.id != id).length < f.warpKeys.length then 0
  else if 16 ≤ f.liveKeys then 4 else 0

theorem enrolCause_revoked {f : SecFlash} {id : Word} (revoked : f.revokedKeys.contains id = true) : enrolCause f id = 6 := if_pos revoked

theorem replaces_iff (f : SecFlash) (id : Word) :
    (f.warpKeys.filter fun k => k.id != id).length < f.warpKeys.length ↔ ∃ k ∈ f.warpKeys, k.id = id := by
  rw [List.length_filter_lt_length_iff_exists]
  simp

theorem enrolCause_full {f : SecFlash} {id : Word} (fresh : f.revokedKeys.contains id = false) (unknown : ∀ k ∈ f.warpKeys, k.id ≠ id)
    (full : 16 ≤ f.liveKeys) : enrolCause f id = 4 := by
  have adds : ¬(f.warpKeys.filter fun k => k.id != id).length < f.warpKeys.length := fun h =>
    let ⟨k, hk, same⟩ := (replaces_iff f id).1 h
    unknown k hk same
  exact (if_false_of fresh).trans ((if_neg adds).trans (if_pos full))

theorem enrolCause_room {f : SecFlash} {id : Word} (fresh : f.revokedKeys.contains id = false)
    (room : (∃ k ∈ f.warpKeys, k.id = id) ∨ f.liveKeys < 16) : enrolCause f id = 0 := by
  refine (if_false_of fresh).trans ?_
  split
  next => rfl
  next adds =>
    have small := room.resolve_left fun known => adds ((replaces_iff f id).2 known)
    exact if_neg (not_le.2 small)

section
variable {e : OwnerEnv} {s : State} (inSession : InSession s)
include inSession

theorem enrolWarpKey_rows {id : BitVec 32} {ed ml : List Byte} (envelope : ownerCause 1 e [leBytes 4 id.toNat, ed, ml] s = 0) :
    (s.flash.revokedKeys.contains id = true → ∃ t, exec (.enrolWarpKey e id ed ml) s = .next t ∧ t.flash = s.flash ∧
      t.out.mgmt = .ownerStatus 6 :: s.out.mgmt) ∧
    (s.flash.revokedKeys.contains id = false → (∀ k ∈ s.flash.warpKeys, k.id ≠ id) → 16 ≤ s.flash.liveKeys →
      ∃ t, exec (.enrolWarpKey e id ed ml) s = .next t ∧ t.flash = s.flash ∧ t.out.mgmt = .ownerStatus 4 :: s.out.mgmt) ∧
    (s.flash.revokedKeys.contains id = false → (∃ k ∈ s.flash.warpKeys, k.id = id) ∨ s.flash.liveKeys < 16 →
      ∃ t, exec (.enrolWarpKey e id ed ml) s = .next t ∧ t.out.mgmt = .ownerStatus 0 :: s.out.mgmt ∧
        t.flash = SecFlash.putStore { (spent s).flash with
          warpKeys := s.flash.warpKeys.filter (fun k => k.id != id) ++ [⟨id, ed, ml⟩] }) :=
  ⟨fun revoked => ownerCommand_denies inSession envelope (enrolCause_revoked revoked) (by decide),
    fun fresh unknown full => ownerCommand_denies inSession envelope (enrolCause_full fresh unknown full) (by decide),
    fun fresh room => ownerCommand_does inSession envelope (enrolCause_room fresh room) rfl rfl⟩

theorem revokeWarpKey_row {id : BitVec 32} (envelope : ownerCause 2 e [leBytes 4 id.toNat] s = 0) : ∃ t, exec (.revokeWarpKey e id) s = .next t ∧
    t.out.mgmt = .ownerStatus 0 :: s.out.mgmt ∧ id ∈ t.flash.revokedKeys ∧ (∀ k ∈ s.flash.revokedKeys, k ∈ t.flash.revokedKeys) ∧
    t.flash = SecFlash.putStore { (spent s).flash with revokedKeys := t.flash.revokedKeys } := by
  obtain ⟨t, run, status, flash⟩ := ownerCommand_does (opFails := 0) (act := fun t => raise 0x6021 [id.toNat] (putStore (fun f =>
    { f with revokedKeys := if f.revokedKeys.contains id then f.revokedKeys else f.revokedKeys ++ [id] }) t)) inSession envelope rfl rfl rfl
  have revoked : t.flash.revokedKeys = if s.flash.revokedKeys.contains id then s.flash.revokedKeys else s.flash.revokedKeys ++ [id] := by
    rw [flash]
    rfl
  refine ⟨t, run, status, ?_, fun k hk => ?_, by rw [revoked]; exact flash⟩
  · rw [revoked]
    split
    next known => simpa using known
    next => simp
  · rw [revoked]
    split
    · exact hk
    · exact List.mem_append_left _ hk

theorem enrolSealingKey_rows {id : BitVec 32} {key : BitVec 256} (envelope : ownerCause 3 e [leBytes 4 id.toNat, leBytes 32 key.toNat] s = 0) :
    ((s.flash.sealKeys.filter fun k => k.1 != id).length < 16 → ∃ t, exec (.enrolSealingKey e id key) s = .next t ∧
      t.out.mgmt = .ownerStatus 0 :: s.out.mgmt ∧
      t.flash = SecFlash.putStore { (spent s).flash with sealKeys := s.flash.sealKeys.filter (fun k => k.1 != id) ++ [(id, key)] }) ∧
    (16 ≤ (s.flash.sealKeys.filter fun k => k.1 != id).length → ∃ t, exec (.enrolSealingKey e id key) s = .next t ∧
      t.flash = s.flash ∧ t.out.mgmt = .ownerStatus 4 :: s.out.mgmt) :=
  ⟨fun room => ownerCommand_does inSession envelope (if_neg (not_le.2 room)) rfl rfl,
    fun full => ownerCommand_denies inSession envelope (if_pos full) (by decide)⟩

theorem raiseWarpFloor_rows {f : BitVec 32} (envelope : ownerCause 5 e [leBytes 4 f.toNat] s = 0) :
    (s.flash.floorWarp ≤ f.toNat → ∃ t, exec (.raiseWarpFloor e f) s = .next t ∧ t.out.mgmt = .ownerStatus 0 :: s.out.mgmt ∧
      t.flash = SecFlash.protect { (spent s).flash with floorWarp := f.toNat }) ∧
    (f.toNat < s.flash.floorWarp → ∃ t, exec (.raiseWarpFloor e f) s = .next t ∧ t.flash = s.flash ∧
      t.out.mgmt = .ownerStatus 6 :: s.out.mgmt) :=
  ⟨fun above => ownerCommand_does inSession envelope (if_neg (not_lt.2 above)) rfl rfl,
    fun below => ownerCommand_denies inSession envelope (if_pos below) (by decide)⟩

theorem applyServiceAuth_rows {a : Signed} {ser : BitVec 64} {gen : BitVec 32} {cores : List CoreIx}
    (envelope : ownerCause 6 e [serviceRegion ser gen cores, leBytes 4 a.signer.toNat, a.edSig, a.mlSig] s = 0) :
    (serviceOk a ser gen cores s = true → ∃ t, exec (.applyServiceAuth e a ser gen cores) s = .next t ∧
      t.out.mgmt = .ownerStatus 0 :: s.out.mgmt ∧ t.flash.mapGen = s.flash.mapGen + 1 ∧ t.flash.cmdCounter = s.flash.cmdCounter + 1 ∧
      (∀ c : CoreIx, quarantined t c.val = (quarantined s c.val && !cores.contains c))) ∧
    (serviceOk a ser gen cores s = false → ∃ t, exec (.applyServiceAuth e a ser gen cores) s = .next t ∧ t.flash = s.flash ∧
      t.out.mgmt = .ownerStatus 6 :: s.out.mgmt) := by
  refine ⟨fun good => ?_, fun bad => ownerCommand_denies inSession envelope (if_false_of bad) (by decide)⟩
  obtain ⟨t, run, status, flash⟩ := ownerCommand_does (opFails := serviceFails a ser gen cores)
    (act := fun t => raise 0x6032 (cores.map fun c => coreCode c.val) (t.onFlash fun f => f.putMap (f.map &&& ~~~(coreMask cores))))
    inSession envelope (if_pos good : (if serviceOk a ser gen cores s = true then 0 else 6) = 0) rfl rfl
  refine ⟨t, run, status, by rw [flash]; rfl, by rw [flash]; rfl, fun c => ?_⟩
  unfold quarantined
  rw [flash]
  exact getLsbD_cleared s.flash.map cores c

/-- An owner command whose envelope is bad is refused with the envelope's cause. -/
theorem badEnvelope_refused {c : Instr} {n : Nat} {v : List (List Byte)} (h : (c, n, v) ∈ ([(.revokeWarpKey e 0, 2, [leBytes 4 0]),
      (.revokeSealingKey e 0, 4, [leBytes 4 0]), (.raiseWarpFloor e 0, 5, [leBytes 4 0])] : List (Instr × Nat × List (List Byte))))
    (bad : ownerCause n e v s ≠ 0) : ∃ t, exec c s = .next t ∧ t.out.mgmt = .ownerStatus (ownerCause n e v s) :: s.out.mgmt ∧
      t = { s with tel := t.tel, out := t.out, spdm := t.spdm } := by
  simp only [List.mem_cons, List.not_mem_nil, or_false, Prod.mk.injEq] at h
  rcases h with ⟨rfl, rfl, rfl⟩ | ⟨rfl, rfl, rfl⟩ | ⟨rfl, rfl, rfl⟩
  · exact ownerCommand_badEnvelope inSession bad
  · exact ownerCommand_badEnvelope inSession bad
  · exact ownerCommand_badEnvelope inSession bad
end

/-- Settles O56: the deliveries by carrier and signature, then the owner commands in a session by envelope and cause. -/
theorem ownerAndDeliveryRows : Obligations.OwnerAndDeliveryRows := by
  intro s
  refine ⟨fun img st via comes stage taken => ⟨fun good => ?_, fun bad => ?_⟩, fun via stays => ⟨fun img => next_pos ?_, fun l n names => next_pos ?_⟩,
    fun l n names via k comes fails runs attested => revocationList_rows runs attested comes fails,
    fun v ser n ed ml k fails runs attested => ownershipVoucher_rows runs attested fails,
    fun runs early => ⟨fun l n names via comes => ?_, fun v ser n ed ml => next_eq (managed_early runs early),
      fun healthy img via comes => firmwareUpdate_early comes runs early healthy⟩,
    fun f => ⟨rfl, rfl⟩, fun k u => ?_, ?_⟩
  · subst stage
    obtain ⟨tel, run⟩ := firmwareUpdate_good comes taken good
    obtain ⟨staged, active, booted, got, other⟩ := delivered_slots img (s.flash.slots (imageStage img))
    exact ⟨_, run, by simpa [slots_putSlots] using staged, by simpa [slots_putSlots] using active, by simpa [slots_putSlots] using booted,
      by simpa [slots_putSlots] using got, by simpa [slots_putSlots] using other, rfl, floorWarp_putSlots ..⟩
  · subst stage
    exact firmwareUpdate_bad comes taken bad
  · simp [stays]
  · simp [stays]
  · exact (next_neg (notAdmitted_false comes)).trans (next_eq (managed_early runs early))
  · obtain ⟨tel, h⟩ := countSigFail_tellsOnly k u
    rw [h]
  · rintro e f1 rfl runs attested session
    have inSession : InSession s := ⟨runs, attested, session⟩
    exact ⟨fun id ed ml => enrolWarpKey_rows inSession, fun id => revokeWarpKey_row inSession, fun id key => enrolSealingKey_rows inSession,
      fun id envelope => ownerCommand_does inSession envelope rfl rfl rfl, fun f => raiseWarpFloor_rows inSession,
      fun a ser gen cores => applyServiceAuth_rows inSession, fun c n v => badEnvelope_refused inSession⟩

end Sys2Proof.Machine
end

section
/-! The boot chain: a stage tries its slots, starts, or ends in recovery (O55, family 14). -/

namespace Sys2Proof.Machine

-- The start of the distaff (R435, R441, R449).

theorem raiseEarly_rest (s : State) : ∃ tel, raiseEarly s = { s with tel := tel, mod := { s.mod with emEarly := [], spiIgnoredEarly := false } } := by
  have noted : TellsOnly s (s.mod.emEarly.foldl (fun t e => raise 0x3111 [sourceCode e] (countEvt 0x200040 t)) s) :=
    TellsOnly.foldl (fun t e => (countEvt_tellsOnly 0x200040 t).trans (raise_tellsOnly 0x3111 [sourceCode e] _)) _ s
  obtain ⟨tel, told⟩ := noted.trans (raiseIf_tellsOnly s.mod.spiIgnoredEarly 0x6006 [] _)
  exact ⟨tel, congrArg (fun t : State => t.onMod fun m => { m with emEarly := [], spiIgnoredEarly := false }) told⟩

theorem readRecord_tellsOnly (kind generation : Nat) (body : List Byte) (o : Option DevRec) (s : State) :
    TellsOnly s (readRecord kind generation body o s).2 := by
  unfold readRecord
  split
  · exact .refl s
  · split
    · exact .refl s
    · exact (countSigFail_tellsOnly _ s).trans (raise_tellsOnly ..)

/-- What reading the key store's record leaves is the state, but for what it tells and, where the record is not valid, the key store. -/
theorem readStore_rest {s : State} (d : Bool × State) (tells : TellsOnly s d.2) :
    ∃ tel flash, (if d.1 then d.2 else d.2.onFlash emptied) = { s with tel := tel, flash := flash } ∧ floors flash = floors s.flash := by
  obtain ⟨tel, told⟩ := tells
  rw [told]
  split
  · exact ⟨tel, s.flash, rfl, rfl⟩
  · exact ⟨tel, emptied s.flash, rfl, rfl⟩

theorem readRecords_rest (s : State) : ∃ tel flash trd ok, readRecords s = { s with
    tel := tel, flash := flash, trd := trd, sec := { s.sec with mapOk := ok }, mod := { s.mod with mapFault := !ok } } ∧
    floors flash = floors s.flash := by
  unfold readRecords
  extract_lets f a b mapOk c s1 d s2
  have copies : TellsOnly s b.2 := (readRecord_tellsOnly ..).trans (readRecord_tellsOnly ..)
  have trim : TellsOnly s (raiseIf (!c.1) 0x3203 [] c.2) :=
    ((copies.trans (raiseIf_tellsOnly ..)).trans (readRecord_tellsOnly ..)).trans (raiseIf_tellsOnly ..)
  obtain ⟨tel1, told⟩ := trim
  have one : s1 = { s with tel := tel1, trd := s1.trd } := by
    simp only [s1]
    rw [told]
    rfl
  obtain ⟨tel, flash, two, same⟩ := readStore_rest (s := s1) d (readRecord_tellsOnly ..)
  change s2 = _ at two
  rw [one] at two same
  rw [two]
  exact ⟨tel, flash, _, mapOk, rfl, same⟩

/-- With its PUF secret the distaff runs: it reads its records and checks its identity. -/
theorem startDistaff_runs {pufOk : Bool} {s : State} (secret : pufOk = true) (helper : s.flash.pufHelper = Config.pufHelper) :
    ∃ tel flash trd ok good, startDistaff pufOk s = { s with
      tel := tel, flash := flash, trd := trd, sec := { s.sec with mapOk := ok, identityOk := good }, i3c := { s.i3c with enabled := true }
      mod := { s.mod with bring := .distaff, emEarly := [], spiIgnoredEarly := false, mapFault := !ok } } ∧ floors flash = floors s.flash := by
  obtain ⟨tel1, early⟩ := raiseEarly_rest (s.onMod fun m => { m with bring := .distaff })
  obtain ⟨tel2, flash, trd, ok, read, same⟩ := readRecords_rest (raiseEarly (s.onMod fun m => { m with bring := .distaff }))
  rw [early] at read same
  obtain ⟨tel, told⟩ := countSigFail_tellsOnly (chainFails Config.edVerify (edChainOf s) + chainFails mlCertVerify (mlChainOf s))
    (readRecords (raiseEarly (s.onMod fun m => { m with bring := .distaff })))
  refine ⟨tel, flash, trd, ok, identityChecked s, ?_, same⟩
  unfold startDistaff
  rw [if_pos (by simp [secret, helper])]
  dsimp only
  rw [told, early, read]
  rfl

theorem startDistaff_fails {pufOk : Bool} {s : State} (none : pufOk = false ∨ s.flash.pufHelper ≠ Config.pufHelper) :
    startDistaff pufOk s = enterRecovery (raise 0x6004 [] s) := by
  refine if_neg ?_
  rcases none with secret | helper
  · simp [secret]
  · simp [helper]

-- A boot stage tries its two slots (R442).

/-- The slot that is tried first: the one last activated. -/
def firstSlot (x : FwSlots) : Bool := if x.staged then !x.bootedB else x.activeB

section
variable {st : BootStage} {k : StackIx} {pufOk : Bool} {s : State}

theorem putSlots_floors (f : SecFlash) (st : BootStage) (x : FwSlots) :
    floors (f.putSlots st x) = floors f ∧ (f.putSlots st x).pufHelper = f.pufHelper := by
  cases st <;> exact ⟨rfl, rfl⟩

/-- From the slot chosen the stage starts, with what is told and the slots in flash all that changed before. -/
theorem bootFrom_starts (slotB : Bool) (img : List Byte) (tel1 : TelBlk) (flash1 : SecFlash) :
    ∃ tel flash, bootFrom st k pufOk slotB img { s with tel := tel1, flash := flash1 } = startStage st k pufOk img { s with tel := tel, flash := flash } ∧
      floors flash = floors flash1 ∧ flash.pufHelper = flash1.pufHelper := by
  obtain ⟨tel, told⟩ := raise_tellsOnly 0x6001 [stageNo st, b2n slotB, (imageWord img 3).toNat]
    ({ s with tel := tel1, flash := flash1.putSlots st { flash1.slots st with bootedB := slotB } })
  exact ⟨tel, _, congrArg (startStage st k pufOk img) told, putSlots_floors ..⟩

/-- A first slot that verifies starts the stage. -/
theorem bootStage_first (good : (fwVerify s st ((s.flash.slots st).get (firstSlot (s.flash.slots st)))).2 = true) :
    ∃ tel flash, bootStage st k pufOk s =
      startStage st k pufOk ((s.flash.slots st).get (firstSlot (s.flash.slots st))) { s with tel := tel, flash := flash } ∧
      floors flash = floors s.flash ∧ flash.pufHelper = s.flash.pufHelper := by
  set x := s.flash.slots st
  obtain ⟨tel1, told⟩ := countSigFail_tellsOnly (fwVerify s st (x.get (firstSlot x))).1
    (s.onFlash fun f => f.putSlots st { x with activeB := firstSlot x, staged := false })
  obtain ⟨tel, flash, starts, same, helper⟩ := bootFrom_starts (st := st) (k := k) (pufOk := pufOk) (s := s) (firstSlot x) (x.get (firstSlot x)) tel1
    (s.flash.putSlots st { x with activeB := firstSlot x, staged := false })
  have tries : bootStage st k pufOk s = bootFrom st k pufOk (firstSlot x) (x.get (firstSlot x))
      (countSigFail (fwVerify s st (x.get (firstSlot x))).1
        (s.onFlash fun f => f.putSlots st { x with activeB := firstSlot x, staged := false })) := if_pos good
  rw [told] at tries
  exact ⟨tel, flash, tries.trans starts, same.trans (putSlots_floors ..).1, helper.trans (putSlots_floors ..).2⟩

/-- Where neither slot verifies the module enters recovery. -/
theorem bootStage_neither (bad : (fwVerify s st ((s.flash.slots st).get (firstSlot (s.flash.slots st)))).2 = false)
    (other : (fwVerify s st ((s.flash.slots st).get !(firstSlot (s.flash.slots st)))).2 = false) :
    ∃ tel flash, bootStage st k pufOk s = { s with
      tel := tel, flash := flash, mod := { s.mod with recovery := true }, sec := { s.sec with slotFallback := true, bootStage := 0xF } } := by
  set x := s.flash.slots st
  set s0 := s.onFlash fun f => f.putSlots st { x with activeB := firstSlot x, staged := false }
  obtain ⟨tel1, told1⟩ := countSigFail_tellsOnly (fwVerify s st (x.get (firstSlot x))).1 s0
  set s1 := countSigFail (fwVerify s st (x.get (firstSlot x))).1 s0
  obtain ⟨tel, told⟩ := ((raise_tellsOnly 0x6002 [stageNo st] (s1.onSec fun b => { b with slotFallback := true })).trans
    (countSigFail_tellsOnly (fwVerify s st (x.get !(firstSlot x))).1 _)).trans (raise_tellsOnly 0x6003 [stageNo st] _)
  have fails : bootStage st k pufOk s = enterRecovery (raise 0x6003 [stageNo st] (countSigFail (fwVerify s st (x.get !(firstSlot x))).1
      (raise 0x6002 [stageNo st] (s1.onSec fun b => { b with slotFallback := true })))) :=
    (if_false_of bad).trans (if_false_of other)
  rw [told, told1] at fails
  exact ⟨tel, _, fails⟩
end

-- The stages as rows (R441 to R443).

/-- A stage is tried once the stage before it runs, outside recovery; the skein base in each stack that has not verified it (R442). -/
theorem bootStageVerified_tries {st : BootStage} {k : StackIx} {pufOk : Bool} {s : State} (turn : (st, s.mod.bring) ∈ ([(.distaff, .rails),
      (.flyer, .distaff), (.skeinBase, .flyer)] : List (BootStage × Bring))) (healthy : s.mod.recovery = false)
    (fresh : st = .skeinBase → (s.stack k).firmwareOk = false) :
    exec (.bootStageVerified st k pufOk) s = .next (bootStage st k pufOk s) := by
  simp only [List.mem_cons, List.not_mem_nil, or_false, Prod.mk.injEq] at turn
  change (.next (if s.mod.recovery = true then s else _) : Out) = _
  refine (next_eq (if_false_of healthy)).trans (next_eq ?_)
  rcases turn with ⟨rfl, bring⟩ | ⟨rfl, bring⟩ | ⟨rfl, bring⟩ <;> rw [bring]
  exact if_false_of (fresh rfl)

theorem allFirmwareOk_iff (s : State) : s.skn.stk.all (·.firmwareOk) = true ↔ ∀ j, (s.stack j).firmwareOk = true := by
  rw [Vector.all_eq_true]
  exact ⟨fun h j => h j.val j.isLt, fun h i hi => h ⟨i, hi⟩⟩

/-- The skein base runs once each stack has verified it; until then only this stack has (R442). -/
theorem startStage_skeinBase (k : StackIx) (pufOk : Bool) (img : List Byte) (s : State) : ∃ skn,
    (∀ j, ({ s with skn := skn } : State).stack j = if k = j then { s.stack j with firmwareOk := true } else s.stack j) ∧
    ((∀ j, j ≠ k → (s.stack j).firmwareOk = true) → startStage .skeinBase k pufOk img s = { s with
      skn := skn, sec := { s.sec with bootStage := 3, measSkein := sha512 (signedRegion img), verSkein := (imageWord img 3).toNat }
      mod := { s.mod with bring := .skeinBase } }) ∧
    ((∃ j, j ≠ k ∧ (s.stack j).firmwareOk = false) → startStage .skeinBase k pufOk img s = { s with skn := skn }) := by
  have each (j : StackIx) := s.stack_onStack j k fun x => { x with firmwareOk := true }
  refine ⟨_, each, fun others => if_pos ((allFirmwareOk_iff _).2 fun j => ?_), fun other => if_neg ((allFirmwareOk_iff _).not.2 fun all => ?_)⟩
  · rw [each j]
    split
    next => rfl
    next ne => exact others j (Ne.symm ne)
  · obtain ⟨j, ne, not⟩ := other
    have ok := all j
    rw [each j, if_neg (Ne.symm ne), not] at ok
    cases ok

end Sys2Proof.Machine
end

section
/-! The boot stages, ATTEST_READY and skein training as rows (O55, family 14). -/

namespace Sys2Proof.Machine

theorem floors_eq {f g : SecFlash} (h : floors f = floors g) :
    f.floorDistaff = g.floorDistaff ∧ f.floorFlyer = g.floorFlyer ∧ f.floorSkein = g.floorSkein ∧ f.floorWarp = g.floorWarp := by
  simpa only [floors, Prod.mk.injEq] using h

section
variable {st : BootStage} {k : StackIx} {ok : Bool} {s : State} {a : Bool}

/-- What a stage whose first slot verifies leaves: the stage runs and is measured, with the floors as they were (R441, R442). -/
theorem bootStageVerified_runs (turn : (st, s.mod.bring) ∈ ([(.distaff, .rails), (.flyer, .distaff), (.skeinBase, .flyer)] :
      List (BootStage × Bring))) (healthy : s.mod.recovery = false) (fresh : st = .skeinBase → (s.stack k).firmwareOk = false)
    (first : a = firstSlot (s.flash.slots st)) (good : (fwVerify s st ((s.flash.slots st).get a)).2 = true)
    (secret : st = .distaff → ok = true ∧ s.flash.pufHelper = Config.pufHelper) :
    ∃ t, exec (.bootStageVerified st k ok) s = .next t ∧ t.mod.recovery = false ∧
      t.flash.floorDistaff = s.flash.floorDistaff ∧ t.flash.floorFlyer = s.flash.floorFlyer ∧ t.flash.floorSkein = s.flash.floorSkein ∧
      t.flash.floorWarp = s.flash.floorWarp ∧ t.mems = s.mems ∧
      (st = .skeinBase → (t.stack k).firmwareOk = true ∧ ∀ j, j ≠ k → t.stack j = s.stack j) ∧
      (st = .skeinBase → (∃ j, j ≠ k ∧ (s.stack j).firmwareOk = false) → t.mod.bring = .flyer ∧ t.sec = s.sec) ∧
      (st = .skeinBase → (∀ j, j ≠ k → (s.stack j).firmwareOk = true) →
        t.mod.bring = .skeinBase ∧ t.sec.bootStage = 3 ∧ t.sec.measSkein = sha512 (signedRegion ((s.flash.slots st).get a)) ∧
        t.sec.verSkein = (imageWord ((s.flash.slots st).get a) 3).toNat) ∧
      (st = .distaff → t.mod.bring = .distaff ∧ t.sec.bootStage = 1 ∧
        t.sec.measDistaff = sha512 (signedRegion ((s.flash.slots st).get a)) ∧
        t.sec.verDistaff = (imageWord ((s.flash.slots st).get a) 3).toNat ∧ t.i3c.enabled = true) ∧
      (st = .flyer → t.mod.bring = .flyer ∧ t.mod.sgmii = true ∧ t.sec.bootStage = 2 ∧
        t.sec.measFlyer = sha512 (signedRegion ((s.flash.slots st).get a)) ∧
        t.sec.verFlyer = (imageWord ((s.flash.slots st).get a) 3).toNat) := by
  subst first
  obtain ⟨tel, flash, starts, same, helper⟩ := bootStage_first (k := k) (pufOk := ok) good
  have run := (bootStageVerified_tries (pufOk := ok) turn healthy fresh).trans (next_eq starts)
  obtain ⟨fd, ff, fk, fw⟩ := floors_eq same
  cases st with
  | distaff =>
    obtain ⟨yes, puf⟩ := secret rfl
    set img := (s.flash.slots .distaff).get (firstSlot (s.flash.slots .distaff))
    obtain ⟨tel', flash', trd, mapOk, identity, h, same'⟩ := startDistaff_runs (pufOk := ok) (s := { s with
      tel := tel, flash := flash, sec := { s.sec with bootStage := 1, measDistaff := sha512 (signedRegion img), verDistaff := (imageWord img 3).toNat } })
      yes (helper.trans puf)
    obtain ⟨gd, gf, gk, gw⟩ := floors_eq (same'.trans same)
    exact ⟨_, run.trans (next_eq h), healthy, gd, gf, gk, gw, rfl, nofun, nofun, nofun, fun _ => ⟨rfl, rfl, rfl, rfl, rfl⟩, nofun⟩
  | flyer => exact ⟨_, run, healthy, fd, ff, fk, fw, rfl, nofun, nofun, nofun, nofun, fun _ => ⟨rfl, rfl, rfl, rfl, rfl⟩⟩
  | skeinBase =>
    have flyer : s.mod.bring = .flyer := by simpa using turn
    set img := (s.flash.slots .skeinBase).get (firstSlot (s.flash.slots .skeinBase))
    obtain ⟨skn, each, last, notLast⟩ := startStage_skeinBase k ok img { s with tel := tel, flash := flash }
    have verified : (({ s with skn := skn } : State).stack k).firmwareOk = true ∧ ∀ j, j ≠ k → ({ s with skn := skn } : State).stack j = s.stack j :=
      ⟨congrArg Stack.firmwareOk ((each k).trans (if_pos rfl)), fun j ne => (each j).trans (if_neg (Ne.symm ne))⟩
    by_cases others : ∀ j, j ≠ k → (s.stack j).firmwareOk = true
    · exact ⟨_, run.trans (next_eq (last others)), healthy, fd, ff, fk, fw, rfl, fun _ => verified,
        fun _ ⟨j, ne, no⟩ => absurd (others j ne) (ne_of_eq_of_ne no Bool.false_ne_true), fun _ _ => ⟨rfl, rfl, rfl, rfl⟩, nofun, nofun⟩
    · have missing : ∃ j, j ≠ k ∧ (s.stack j).firmwareOk = false := by simpa using others
      exact ⟨_, run.trans (next_eq (notLast missing)), healthy, fd, ff, fk, fw, rfl, fun _ => verified, fun _ _ => ⟨flyer, rfl⟩,
        fun _ all => absurd all others, nofun, nofun⟩

/-- Distaff firmware without its PUF secret, and a stage whose slots both fail, leave the module in recovery (R435, R442). -/
theorem bootStageVerified_noSecret (bring : s.mod.bring = .rails) (healthy : s.mod.recovery = false)
    (first : a = firstSlot (s.flash.slots .distaff)) (good : (fwVerify s .distaff ((s.flash.slots .distaff).get a)).2 = true)
    (none : ok = false ∨ s.flash.pufHelper ≠ Config.pufHelper) : ∃ t, exec (.bootStageVerified .distaff k ok) s = .next t ∧
      t.mod.recovery = true ∧ t.mod.bring = .rails ∧ t.sec.bootStage = 0xF := by
  subst first
  obtain ⟨tel, flash, starts, -, helper⟩ := bootStage_first (k := k) (pufOk := ok) good
  have run := (bootStageVerified_tries (st := .distaff) (k := k) (pufOk := ok) (by simp [bring]) healthy nofun).trans (next_eq starts)
  exact ⟨_, run.trans (next_eq (startDistaff_fails (none.imp_right helper.trans_ne))), rfl, bring, rfl⟩

theorem bootStageVerified_fails (turn : (st, s.mod.bring) ∈ ([(.distaff, .rails), (.flyer, .distaff), (.skeinBase, .flyer)] :
      List (BootStage × Bring))) (healthy : s.mod.recovery = false) (fresh : st = .skeinBase → (s.stack k).firmwareOk = false)
    (first : a = firstSlot (s.flash.slots st)) (bad : (fwVerify s st ((s.flash.slots st).get a)).2 = false)
    (other : (fwVerify s st ((s.flash.slots st).get !a)).2 = false) : ∃ t, exec (.bootStageVerified st k ok) s = .next t ∧
      t.mod = { s.mod with recovery := true } ∧ t.sec.bootStage = 0xF ∧ t.sec.slotFallback = true ∧
      t = { s with mod := t.mod, sec := t.sec, tel := t.tel, flash := t.flash } := by
  subst first
  obtain ⟨tel, flash, fails⟩ := bootStage_neither (k := k) (pufOk := ok) bad other
  exact ⟨_, (bootStageVerified_tries turn healthy fresh).trans (next_eq fails), rfl, rfl, rfl, rfl⟩

theorem bootStageVerified_idle (idle : s.mod.recovery = true ∨ (st = .skeinBase ∧ s.mod.bring = .flyer ∧ (s.stack k).firmwareOk = true)) :
    exec (.bootStageVerified st k ok) s = .next s := by
  change (.next (if s.mod.recovery = true then s else _) : Out) = _
  split
  next => rfl
  next healthy =>
    obtain ⟨rfl, bring, verified⟩ := idle.resolve_left healthy
    rw [bring]
    exact next_pos verified

theorem bootStageTimeout_recovers (waiting : s.mod.bring = .rails ∨ s.mod.bring = .distaff ∨ s.mod.bring = .flyer)
    (healthy : s.mod.recovery = false) : ∃ t, exec .bootStageTimeout s = .next t ∧ t.mod = { s.mod with recovery := true } ∧
      t.sec = { s.sec with bootStage := 0xF } ∧ t = { s with mod := t.mod, sec := t.sec, tel := t.tel } := by
  have late : exec .bootStageTimeout s = .next (enterRecovery (raise 0x6003 [s.sec.bootStage + 1] s)) := by
    change execBootStageTimeout s = _
    unfold execBootStageTimeout
    rcases waiting with h | h | h <;> rw [h] <;> exact next_eq (if_false_of healthy)
  exact ⟨_, late, rfl, rfl, rfl⟩
end

-- The attainment of ATTEST_READY (R443, R445).

/-- Module flash without the firmware floors and what protects them. -/
def SecFlash.unfloored (f : SecFlash) : SecFlash := { f with floorDistaff := 0, floorFlyer := 0, floorSkein := 0, rpCounter := 0, rpTag := [] }

theorem raiseFloor_rest {idx old new : Nat} {put : SecFlash → SecFlash} (s : State) (keeps : ∀ f, (put f).rpCounter = f.rpCounter) :
    (∃ tel flash, raiseFloor idx old new put s = { s with tel := tel, flash := flash }) ∧
      s.flash.rpCounter ≤ (raiseFloor idx old new put s).flash.rpCounter := by
  unfold raiseFloor
  split
  · exact ⟨⟨_, _, rfl⟩, (keeps s.flash).symm.le.trans (Nat.le_succ _)⟩
  · exact ⟨⟨_, _, rfl⟩, le_rfl⟩

theorem raiseFloors_rest (f : SecFlash) (b : SecBlk) (s : State) :
    (∃ tel flash, raiseFloors f b s = { s with tel := tel, flash := flash }) ∧ s.flash.rpCounter ≤ (raiseFloors f b s).flash.rpCounter := by
  unfold raiseFloors
  obtain ⟨⟨tel1, flash1, h1⟩, up1⟩ := raiseFloor_rest (idx := 0) (old := f.floorDistaff) (new := b.verDistaff)
    (put := fun f => { f with floorDistaff := b.verDistaff }) s fun _ => rfl
  rw [h1] at up1 ⊢
  obtain ⟨⟨tel2, flash2, h2⟩, up2⟩ := raiseFloor_rest (idx := 1) (old := f.floorFlyer) (new := b.verFlyer)
    (put := fun f => { f with floorFlyer := b.verFlyer }) { s with tel := tel1, flash := flash1 } fun _ => rfl
  rw [h2] at up2 ⊢
  obtain ⟨⟨tel3, flash3, h3⟩, up3⟩ := raiseFloor_rest (idx := 2) (old := f.floorSkein) (new := b.verSkein)
    (put := fun f => { f with floorSkein := b.verSkein }) { s with tel := tel2, flash := flash2 } fun _ => rfl
  rw [h3] at up3 ⊢
  exact ⟨⟨tel3, flash3, rfl⟩, up1.trans (up2.trans up3)⟩

theorem raiseFloors_flash (b : SecBlk) {f : SecFlash} {s : State} (same : s.flash = f) : (raiseFloors f b s).flash = { f with
    floorDistaff := max f.floorDistaff b.verDistaff, floorFlyer := max f.floorFlyer b.verFlyer, floorSkein := max f.floorSkein b.verSkein
    rpCounter := (raiseFloors f b s).flash.rpCounter, rpTag := (raiseFloors f b s).flash.rpTag } := by
  subst same
  have rest := raiseFloors_kept SecFlash.unfloored s.flash b s fun _ _ _ _ => rfl
  rw [← raiseFloors_distaff, ← raiseFloors_flyer, ← raiseFloors_skein]
  set t := raiseFloors s.flash b s
  exact congrArg (fun f : SecFlash => { f with floorDistaff := t.flash.floorDistaff, floorFlyer := t.flash.floorFlyer,
                                               floorSkein := t.flash.floorSkein, rpCounter := t.flash.rpCounter, rpTag := t.flash.rpTag }) rest

theorem testFails_pos : ∀ e m : Bool, (e && m) = false → 0 < testFails e m := by decide

section
variable {s : State}

theorem attestationReady_attains (identity : s.sec.identityOk = true) (stage : s.sec.bootStage = 3) (map : s.sec.mapOk = true)
    (first : s.sec.attestReady = false) (signs : s.mod.signFault = false) :
    (∃ t, exec (.attestationReady true true) s = .next t ∧ t.sec = { s.sec with attestReady := true, bootStage := 4 } ∧
      t.flash = { s.flash with floorDistaff := max s.flash.floorDistaff s.sec.verDistaff, floorFlyer := max s.flash.floorFlyer s.sec.verFlyer
                               floorSkein := max s.flash.floorSkein s.sec.verSkein
                               rpCounter := t.flash.rpCounter, rpTag := t.flash.rpTag } ∧ s.flash.rpCounter ≤ t.flash.rpCounter ∧
      t = { s with mod := t.mod, sec := t.sec, tel := t.tel, flash := t.flash }) ∧
    (∀ e m, (e && m) = false → exec (.attestationReady e m) s = .next (countSigFail (testFails e m) s)) := by
  have waits : (!(s.sec.identityOk && s.sec.bootStage == 3 && s.sec.mapOk && !s.sec.attestReady && !s.mod.signFault)) = false := by
    simp [identity, stage, map, first, signs]
  constructor
  · obtain ⟨tel0, told⟩ := raise_tellsOnly 0x6005 []
      ((s.onSec fun b => { b with attestReady := true, bootStage := 4 }).onMod fun m => { m with attestMs := msSinceZero s })
    set u := (s.onSec fun b => { b with attestReady := true, bootStage := 4 }).onMod fun m => { m with attestMs := msSinceZero s }
    have run : exec (.attestationReady true true) s = .next (raiseFloors s.flash s.sec (raise 0x6005 [] u)) :=
      (next_eq (if_false_of waits)).trans (next_neg (by decide))
    rw [told] at run
    obtain ⟨⟨tel, flash, rest⟩, up⟩ := raiseFloors_rest s.flash s.sec { u with tel := tel0 }
    have floors := raiseFloors_flash s.sec (f := s.flash) (s := { u with tel := tel0 }) rfl
    rw [rest] at run floors up
    exact ⟨_, run, rfl, floors, up, rfl⟩
  · exact fun e m bad => (next_eq (if_false_of waits)).trans (next_pos (testFails_pos e m bad))

theorem attestationReady_idle (e m : Bool) (idle : s.sec.attestReady = true ∨ s.sec.mapOk = false) : exec (.attestationReady e m) s = .next s := by
  refine next_pos ?_
  rcases idle with done | unread
  · simp [done]
  · simp [unread]

-- Skein training (R388).

theorem skeinTrained_trains (bring : s.mod.bring = .skeinBase) (attested : s.sec.attestReady = true) :
    ∃ t, exec .skeinTrained s = .next t ∧ t.mod.bring = .selfTest ∧ (∀ k, (t.stack k).trained = true) ∧
      t = { s with mod := { s.mod with bring := .selfTest }, skn := t.skn } := by
  refine ⟨_, next_pos (by simp [bring, attested]), rfl, fun k => ?_, rfl⟩
  simp [State.stack, State.onSkn]

theorem skeinTrained_idle (idle : s.mod.bring ≠ .skeinBase ∨ s.sec.attestReady = false) : exec .skeinTrained s = .next s := by
  refine next_neg ?_
  rcases idle with other | early
  · simp [other]
  · simp [early]
end

end Sys2Proof.Machine
end

section
/-! The self-test and READY (O55, family 14). -/

namespace Sys2Proof.Machine

-- What a failed self-test does to the units (R388, R390).

/-- `t` is `s` with more cores in quarantine, perhaps, and what says so in module flash, telemetry and the state of carding. -/
def Condemns (s t : State) : Prop :=
  (∃ tel flash ply, t = { s with tel := tel, flash := flash, ply := ply }) ∧ ∀ c : CoreIx, quarantined s c.val = true → quarantined t c.val = true

theorem Condemns.refl (s : State) : Condemns s s := ⟨⟨_, _, _, rfl⟩, fun _ => id⟩

theorem Condemns.trans {s t u : State} (h : Condemns s t) (k : Condemns t u) : Condemns s u := by
  obtain ⟨⟨tel, flash, ply, rfl⟩, more⟩ := h
  obtain ⟨⟨tel', flash', ply', rfl⟩, more'⟩ := k
  exact ⟨⟨tel', flash', ply', rfl⟩, fun c hc => more' c (more c hc)⟩

theorem Condemns.foldl {α : Type} {f : State → α → State} (h : ∀ s x, Condemns s (f s x)) (l : List α) (s : State) : Condemns s (l.foldl f s) :=
  List.foldlRecOn (motive := Condemns s) l f (.refl s) fun _ ht x _ => ht.trans (h _ x)

theorem quarantineCore_condemns (cause : QCause) (s : State) (c : CoreIx) : Condemns s (quarantineCore cause s c) := by
  unfold quarantineCore
  split
  · exact .refl s
  · refine ⟨⟨_, _, _, rfl⟩, fun d hd => ?_⟩
    change (s.flash.map ||| BitVec.ofNat 576 (2 ^ c.val)).getLsbD d.val = true
    rw [BitVec.getLsbD_or, show s.flash.map.getLsbD d.val = true from hd]
    rfl

theorem lastingFault_condemns (s : State) (u : CardUnit) : Condemns s (lastingFault s u) := by
  cases u with
  | core c => exact quarantineCore_condemns ..
  | creel cl => exact Condemns.foldl (quarantineCore_condemns .creel) _ s
  | update k => exact ⟨⟨_, _, _, rfl⟩, fun _ => id⟩
  | reelEngine e => exact ⟨⟨_, _, _, rfl⟩, fun _ => id⟩

/-- Each core that fails ends in quarantine, and none leaves it. -/
theorem lastingFaults_quarantine (units : List CardUnit) (s : State) {c : CoreIx} (failed : CardUnit.core c ∈ units) :
    quarantined (units.foldl lastingFault s) c.val = true := by
  induction units generalizing s with
  | nil => cases failed
  | cons u us ih =>
    rcases List.mem_cons.1 failed with rfl | later
    · exact (Condemns.foldl lastingFault_condemns us (lastingFault s (.core c))).2 c (quarantineCore_quarantines .reproduced s c)
    · exact ih _ later

theorem selfTestFails_rest (units : List CardUnit) (s : State) :
    (∃ tel flash ply quar, selfTestFails units s = { s with tel := tel, flash := flash, ply := ply, mod := { s.mod with selfTestQuar := quar } }) ∧
    (∀ c, CardUnit.core c ∈ units → quarantined (selfTestFails units s) c.val = true) ∧
    (∀ c : CoreIx, quarantined s c.val = true → quarantined (selfTestFails units s) c.val = true) := by
  obtain ⟨⟨tel, flash, ply, run⟩, more⟩ := Condemns.foldl lastingFault_condemns units s
  have counted (t : State) (f : ModBlk → ModBlk) (c : Nat) : quarantined (t.onMod f) c = quarantined t c := rfl
  refine ⟨⟨tel, flash, ply, ?_⟩, ?_⟩
  · unfold selfTestFails
    dsimp only
    rw [run]
    exact ⟨_, rfl⟩
  · unfold selfTestFails
    dsimp only
    simp only [counted]
    exact ⟨fun c failed => lastingFaults_quarantine units s failed, more⟩

-- The ports once the module is READY (R457, R464).

theorem portReady_notDeaf (s : State) (p : PortIx) : ((portReady s p).port p).st ≠ .deaf := by
  unfold portReady
  dsimp only
  split
  next =>
    split
    · simp
    · split
      · have up : ((portUp p s).port p).st = .up := by simp [portUp, sendHello, putWire]
        simp [up]
      · simp
  next open_ => simpa using open_

theorem portReady_other {p q : PortIx} (other : q ≠ p) (s : State) : (portReady s q).port p = s.port p := by
  unfold portReady
  dsimp only
  split
  · split
    · exact port_onPort_other _ _ other.symm
    · split
      · rw [portUp, sendHello, port_putWire_other _ _ other.symm, port_onPort_other _ _ other.symm]
      · exact port_onPort_other _ _ other.symm
  · rfl

theorem portsReady_notDeaf (s : State) (p : PortIx) : ((portsReady s).port p).st ≠ .deaf := by
  obtain ⟨before, -, turn⟩ := port_foldl_finRange (p := p) (f := portReady) (fun t q other => portReady_other other t) s
  unfold portsReady
  rw [turn]
  exact portReady_notDeaf _ p

theorem portsReady_rest (s : State) : ∃ rov tel, portsReady s = { s with rov := rov, tel := tel } := by
  have quiet (t : State) (p : PortIx) : (portReady t p).quiet = t.quiet := by
    unfold portReady
    dsimp only
    split
    · split
      · simp
      · split <;> simp
    · rfl
  exact ⟨_, _, State.rest_of (foldl_quiet portReady quiet _ s)⟩

-- The self-test and READY (R388, R457).

/-- Event 0x7010 tells of READY (R457). -/
def tellsReady (u : State) : State := raise 0x7010 [(resetCauseWord u).toNat, (bringupMsWord u).toNat, u.mod.selfTestQuar] u

theorem tellsReady_tellsOnly (u : State) : TellsOnly u (tellsReady u) := raise_tellsOnly ..

theorem tellsReady_port (u : State) (p : PortIx) : (tellsReady u).port p = u.port p := rfl

/-- What the end of the self-test does with the state `t` that its units leave (R443, R457). -/
def selfTestEnds (s : State) (e m : Bool) (t : State) : State :=
  if 0 < testFails e m then
    ((countSigFail (testFails e m) t).onMod fun m => { m with signFault := true }).onSec fun b => { b with attestReady := false }
  else if !t.sec.mapOk then t
  else tellsReady (portsReady (t.onMod fun m => { m with bring := .ready, readyMs := msSinceZero s }))

theorem testFails_zero : ∀ e m : Bool, (e && m) = true → testFails e m = 0 := by decide

theorem selfTestEnds_unsigned (s : State) {e m : Bool} (t : State) (bad : (e && m) = false) : ∃ tel, selfTestEnds s e m t = { t with
    tel := tel, mod := { t.mod with signFault := true }, sec := { t.sec with attestReady := false } } := by
  obtain ⟨tel, told⟩ := countSigFail_tellsOnly (testFails e m) t
  refine ⟨tel, (if_pos (testFails_pos e m bad)).trans ?_⟩
  rw [told]
  rfl

theorem selfTestEnds_unread (s : State) {e m : Bool} {t : State} (good : (e && m) = true) (unread : t.sec.mapOk = false) :
    selfTestEnds s e m t = t := by
  rw [selfTestEnds, testFails_zero e m good, unread]
  rfl

/-- The module is READY: no port is deaf any more. -/
theorem selfTestEnds_ready (s : State) {e m : Bool} {t : State} (good : (e && m) = true) (read : t.sec.mapOk = true) :
    (∃ ms rov tel, selfTestEnds s e m t = { t with tel := tel, rov := rov, mod := { t.mod with bring := .ready, readyMs := ms } }) ∧
      ∀ p, ((selfTestEnds s e m t).port p).st ≠ .deaf := by
  have ends : selfTestEnds s e m t = tellsReady (portsReady (t.onMod fun m => { m with bring := .ready, readyMs := msSinceZero s })) := by
    rw [selfTestEnds, if_neg (by rw [testFails_zero e m good]; decide), if_neg (by rw [read]; decide)]
  obtain ⟨rov, tel1, rest⟩ := portsReady_rest (t.onMod fun m => { m with bring := .ready, readyMs := msSinceZero s })
  obtain ⟨tel, told⟩ := tellsReady_tellsOnly (portsReady (t.onMod fun m => { m with bring := .ready, readyMs := msSinceZero s }))
  refine ⟨⟨msSinceZero s, rov, tel, ?_⟩, fun p => ?_⟩
  · rw [ends, told, rest]
    rfl
  · rw [ends, tellsReady_port]
    exact portsReady_notDeaf _ p

theorem bringupComplete_held {s : State} {failed : List CardUnit} {e m : Bool} (em : s.trd.em.any = true) :
    exec (.bringupComplete failed e m) s = .next s :=
  next_neg (by simp [em])

section
variable {s : State} {failed : List CardUnit} {e m : Bool} (bring : s.mod.bring = .selfTest)
include bring

theorem selfTestTimeout_fails (noEm : s.trd.em.any = false) (units : List CardUnit) :
    ∃ t, exec (.selfTestTimeout units) s = .next t ∧ t.mod.bring = .selfTest ∧ (∀ c, CardUnit.core c ∈ units → quarantined t c.val = true) ∧
      (∀ c : CoreIx, quarantined s c.val = true → quarantined t c.val = true) ∧
      t = { s with mod := t.mod, tel := t.tel, flash := t.flash, ply := t.ply } := by
  obtain ⟨⟨tel, flash, ply, quar, run⟩, condemned, kept⟩ := selfTestFails_rest units s
  rw [run] at condemned kept
  exact ⟨_, (next_pos (by simp [bring, noEm])).trans (next_eq run), bring, condemned, kept, rfl⟩

/-- The module is READY once the self-test has passed: units that failed are out of service, and no port is deaf. -/
theorem bringupComplete_ends (noEm : s.trd.em.any = false) : ∃ t, exec (.bringupComplete failed e m) s = .next t ∧
    (∀ c, CardUnit.core c ∈ failed → quarantined t c.val = true) ∧ (∀ c : CoreIx, quarantined s c.val = true → quarantined t c.val = true) ∧
    ((e && m) = false → t.mod.bring = .selfTest ∧ t.mod.signFault = true ∧ t.sec.attestReady = false) ∧
    ((e && m) = true → s.sec.mapOk = false → t.mod.bring = .selfTest) ∧
    ((e && m) = true → s.sec.mapOk = true → t.mod.bring = .ready ∧ ∀ p, (t.port p).st ≠ .deaf) ∧
    t = { s with mod := t.mod, sec := t.sec, tel := t.tel, flash := t.flash, rov := t.rov, ply := t.ply } := by
  have run : exec (.bringupComplete failed e m) s = .next (selfTestEnds s e m (selfTestFails failed s)) := next_pos (by simp [bring, noEm])
  obtain ⟨⟨tel, flash, ply, quar, rest⟩, condemned, kept⟩ := selfTestFails_rest failed s
  rw [rest] at condemned kept run
  cases signed : e && m with
  | false =>
    obtain ⟨tel', ends⟩ := selfTestEnds_unsigned s { s with tel := tel, flash := flash, ply := ply, mod := { s.mod with selfTestQuar := quar } } signed
    exact ⟨_, run.trans (next_eq ends), condemned, kept, fun _ => ⟨bring, rfl, rfl⟩, nofun, nofun, rfl⟩
  | true =>
    cases map : s.sec.mapOk with
    | false => exact ⟨_, run.trans (next_eq (selfTestEnds_unread s signed map)), condemned, kept, nofun, fun _ _ => bring, fun _ => nofun, rfl⟩
    | true =>
      obtain ⟨⟨ms, rov, tel', ends⟩, ports⟩ := selfTestEnds_ready s (t := { s with
        tel := tel, flash := flash, ply := ply, mod := { s.mod with selfTestQuar := quar } }) signed map
      rw [ends] at run ports
      exact ⟨_, run, condemned, kept, nofun, fun _ => nofun, fun _ _ => ⟨rfl, ports⟩, rfl⟩
end

/-- Settles O55: the boot chain, ATTEST_READY, skein training, the self-test and READY, each by its own lemmas. -/
theorem bringupRows : Obligations.BringupRows := by
  intro s
  refine ⟨fun st k ok turn healthy fresh a b first other => ⟨fun good secret => bootStageVerified_runs turn healthy fresh first good secret,
      fun good distaff none => ?_, fun bad alsoBad => bootStageVerified_fails turn healthy fresh first bad (other ▸ alsoBad)⟩,
    fun st k ok => bootStageVerified_idle, bootStageTimeout_recovers, attestationReady_attains, attestationReady_idle, skeinTrained_trains,
    skeinTrained_idle, fun k ch untrained => next_pos ?_, fun failed e m ok bring noEm signed => ?_, fun failed e m _ => bringupComplete_held,
    fun units bring noEm => selfTestTimeout_fails bring noEm units⟩
  · subst distaff
    exact bootStageVerified_noSecret (by simpa using turn) healthy first good none
  · rcases untrained with h | h <;> simp [h]
  · subst signed
    exact bringupComplete_ends bring noEm

end Sys2Proof.Machine
end

section
/-! Sums that are exactly zero (families 03 and 04; R115, R119): the maximum leading exponent of a chunk, and the sum of a value and its negation. -/

namespace Sys2Proof.Machine

theorem foldl_maxLead_none (ps : List FVal) (a : Option Int) (none : ∀ p ∈ ps, leading p = none) :
    ps.foldl (fun m p => maxLead m (leading p)) a = a := by
  induction ps generalizing a with
  | nil => rfl
  | cons p ps ih =>
    rw [List.foldl_cons, none p (.head _), ih _ fun q hq => none q (.tail _ hq)]
    cases a <;> rfl

/-- The fold finds the greatest leading exponent `m`, once it has begun with it or meets it. -/
theorem foldl_maxLead_some (ps : List FVal) (m : Int) (a : Option Int) (met : a = some m ∨ ∃ p ∈ ps, leading p = some m)
    (start : ∀ l, a = some l → l ≤ m) (most : ∀ p ∈ ps, ∀ l, leading p = some l → l ≤ m) :
    ps.foldl (fun m p => maxLead m (leading p)) a = some m := by
  induction ps generalizing a with
  | nil => simpa using met
  | cons p ps ih =>
    rw [List.foldl_cons]
    refine ih _ ?_ ?_ fun q hq => most q (.tail _ hq)
    · rcases met with rfl | ⟨q, hq, lead⟩
      · left
        cases lead : leading p with
        | none => rfl
        | some l => exact congrArg some (max_eq_left (most p (.head _) l lead))
      · rcases List.mem_cons.1 hq with rfl | hq
        · left
          rw [lead]
          cases a with
          | none => rfl
          | some l => exact congrArg some (max_eq_right (start l rfl))
        · exact .inr ⟨q, hq, lead⟩
    · intro l hl
      cases a with
      | none => exact most p (.head _) l hl
      | some b =>
        cases lead : leading p with
        | none => exact start l (by simpa [lead, maxLead] using hl)
        | some c =>
          have e : max b c = l := by simpa [lead, maxLead] using hl
          exact e ▸ max_le (start b rfl) (most p (.head _) c lead)

theorem foldl_aligned (m : Int) (ps : List FVal) (a : Int) : ps.foldl (fun a p => a + aligned m p) a = a + (ps.map (aligned m)).sum := by
  induction ps generalizing a with
  | nil => simp
  | cons p ps ih => rw [List.foldl_cons, ih, List.map_cons, List.sum_cons, add_assoc]

theorem chunkSum_of_noLead {ps : List FVal} (none : ∀ p ∈ ps, leading p = none) : chunkSum ps = FVal.zero := by
  rw [chunkSum, foldl_maxLead_none ps _ none]

theorem chunkSum_of_zeroSum {ps : List FVal} {m : Int} (met : ∃ p ∈ ps, leading p = some m) (most : ∀ p ∈ ps, ∀ l, leading p = some l → l ≤ m)
    (zero : (ps.map (aligned m)).sum = 0) : chunkSum ps = FVal.zero := by
  rw [chunkSum, foldl_maxLead_some ps m none (.inr met) nofun most]
  simp only [foldl_aligned, zero]
  rfl

/-- An exact zero is written as the zero of its sign. -/
theorem finish_zero (i n : Bool) (e : Int) : (finish i (.fin n 0 e)).bits = w32 (f32.pack n 0) := rfl

theorem addFin_opposite (m : Nat) (n : Bool) (e : Int) : addFin n m e (!n) m e = .fin false 0 e := by
  cases n <;> simp [addFin, signedAt]

theorem fadd_of_opposite {x y : Word} {n : Bool} {m : Nat} {e : Int} (hx : dec32 x = .fin n m e) (hy : dec32 y = .fin (!n) m e) :
    (fadd x y).bits = 0 := by
  rw [fadd, hx, hy, FVal.add, addFin_opposite, finish_zero]
  rfl

/-- A pattern below the sign bit, and the same pattern with it, decode to a value and its negation. -/
theorem decode_f32_signed (w : Nat) (below : w < 2 ^ 31) : f32.decode (w + 2 ^ 31) = (f32.decode w).negate ∧ (f32.decode w).neg = false := by
  have man : (w + 2 ^ 31) % 2 ^ 23 = w % 2 ^ 23 := by omega
  have exponent : (w + 2 ^ 31) / 2 ^ 23 % 2 ^ 8 = w / 2 ^ 23 % 2 ^ 8 := by omega
  have set : bitOf (w + 2 ^ 31) 31 = true := by simp only [bitOf, Nat.shiftRight_eq_div_pow, beq_iff_eq]; omega
  have clear : bitOf w 31 = false := by simp only [bitOf, Nat.shiftRight_eq_div_pow, beq_eq_false_iff_ne]; omega
  simp only [FFmt.decode, f32, Nat.shiftRight_eq_div_pow, Nat.reduceSub, Nat.reduceAdd, man, exponent, set, clear]
  constructor <;> split <;> split <;> simp [FVal.negate, FVal.neg]

theorem fadd_negation {x y : Word} (fin : (dec32 x).isFin = true) (neg : y.toNat = x.toNat + 2 ^ 31) :
    (fadd x y).bits = 0 ∧ (fadd y x).bits = 0 := by
  have below : x.toNat < 2 ^ 31 := by have := y.isLt; omega
  obtain ⟨opposite, positive⟩ := decode_f32_signed x.toNat below
  cases hx : dec32 x with
  | nan => simp [hx, FVal.isFin] at fin
  | inf n => simp [hx, FVal.isFin] at fin
  | fin n m e =>
    have hy : dec32 y = .fin (!n) m e := by rw [dec32, neg, opposite, ← dec32, hx]; rfl
    exact ⟨fadd_of_opposite hx hy, fadd_of_opposite hy (by rw [Bool.not_not]; exact hx)⟩

/-- Settles O60: the fold over the leading exponents finds m, and the exact sum of opposite values is +0. -/
theorem zeroSums : Obligations.ZeroSums := by
  refine ⟨fun ps zero => chunkSum_of_noLead fun p hp => ?_, fun ps m => chunkSum_of_zeroSum, fun x y => fadd_negation,
    by decide, by decide, by decide⟩
  obtain ⟨n, e, rfl⟩ := zero p hp
  rfl

end Sys2Proof.Machine
end

section
/-! The registers and the spool window of a core (family 04): CLEAR, the window page, VALID, and what a window access reads and writes
(R129, R141 to R144). -/

namespace Sys2Proof.Machine

theorem CoreState.tile_setTile (k : CoreState) (e i e' i' : Bool) (x : AccTile) :
    (k.setTile e i x).tile e' i' = if e' = e ∧ i' = i then x else k.tile e' i' := by
  cases e <;> cases i <;> cases e' <;> cases i' <;> rfl

theorem State.tile_onTile (s : State) (a b : AccRef) (f : AccTile → AccTile) :
    (s.onTile a f).tile b = if b.core.val = a.core.val ∧ b.eng = a.eng ∧ b.tile = a.tile then f (s.tile a) else s.tile b := by
  unfold State.tile State.onTile
  by_cases same : b.core.val = a.core.val
  · rw [same, State.core_onCore, CoreState.tile_setTile]
    simp
  · rw [State.core_onCore_ne _ _ _ same, if_neg fun h => same h.1]

@[simp] theorem State.tile_onTile_same (s : State) (a : AccRef) (f : AccTile → AccTile) : (s.onTile a f).tile a = f (s.tile a) := by
  rw [State.tile_onTile, if_pos ⟨rfl, rfl, rfl⟩]

/-- Settles O16: each command writes one field of one core, as its register row says. -/
theorem coreRegisterRows : Obligations.CoreRegisterRows := by
  intro s ready
  refine ⟨fun a isOpen => (next_gated_ready ready).trans (next_pos isOpen), fun a shut => (next_gated_ready ready).trans (next_neg (by simp [shut])),
    fun c v fits => ?_, fun c v high => ?_, fun c => next_gated_ready ready, fun c f => ⟨s.core_onCore c f, fun d h => s.core_onCore_ne c d h f, rfl⟩,
    s.tile_onTile⟩
  · exact (next_gated_ready ready).trans (by simp only [writePage, fits, if_true])
  · exact (next_gated_ready ready).trans (by simp only [writePage, Nat.not_le.2 high, if_false])

theorem wordsBytes_singleton (v : Word) : wordsBytes [v] = leBytes 4 v.toNat := List.append_nil _

theorem Memory.readBytes_writeWord {m : Memory} (wf : m.wf = true) (a : Nat) (v : Word) :
    (m.writeWords a [v]).readBytes a 4 = leBytes 4 v.toNat := by
  rw [Memory.writeWords, wordsBytes_singleton]
  exact Memory.readBytes_writeBytes wf a (leBytes 4 v.toNat)

theorem windowPlace_spool (c : CoreIx) {page : Nat} (low : page ≤ 47) (w : Nat) :
    windowPlace c page w = .spool (c.val * 1572864 + page * 32768 + w * 4) := if_pos low

/-- Pages 48 to 55 show the two halves of the tiles of engine 0, then those of engine 1. -/
theorem windowPlace_tile (c : CoreIx) {page : Nat} (low : 48 ≤ page) (high : page ≤ 55) (w : Nat) :
    ∃ r : AccRef, r.core = c ∧ page = 48 + 4 * b2n r.eng + 2 * b2n r.tile + page % 2 ∧
      windowPlace c page w = .tile r (page % 2 * 32768 + w * 4) := by
  refine ⟨⟨c, decide (2 ≤ (page - 48) / 2), (page - 48) / 2 % 2 == 1⟩, rfl, ?_, ?_⟩
  · simp only [b2n, decide_eq_true_eq, beq_iff_eq]
    split <;> split <;> omega
  · have half : (page - 48) % 2 = page % 2 := by omega
    simp only [windowPlace, Nat.not_le.2 low, if_false, half]

section
variable {c : CoreIx} {w : Fin 8192} {s : State} (ready : isReady s = true)
include ready

theorem spoolWindow_open (isOpen : windowOpen s c.val = true) (x : Access) :
    exec (.spoolWindowAccess c w x) s = .next (windowAccess c w.val x s) :=
  next_eq ((if_pos ready).trans (if_pos isOpen))

theorem spoolWindow_shut (shut : windowOpen s c.val = false) (x : Access) :
    exec (.spoolWindowAccess c w x) s = .next (windowRefused c x s) :=
  next_eq ((if_pos ready).trans (if_neg (by simp [shut])))
end

theorem windowWord_plain {c : CoreIx} {page w a : Nat} {s : State} (other : page ≠ 47) :
    windowWord c page w a s = s.spool.readBytes a 4 := if_neg (by simpa using other)

/-- Page 47 returns four bytes as well, of whatever form. -/
theorem windowWord_length (c : CoreIx) (w a : Nat) (s : State) : (windowWord c 47 w a s).length = 4 := rfl

/-- Settles O17: an open access is that of the place its page shows, any other is refused. -/
theorem spoolWindowRows : Obligations.SpoolWindowRows := by
  intro c w s ready ⟨accWf, spoolWf, _⟩
  refine ⟨fun isOpen => ⟨fun v a place => ?_, fun v r off place => ?_, fun a place other => ?_, fun queue => ?_, fun r off place => ?_⟩,
    fun low => windowPlace_spool c low w.val, fun low high => windowPlace_tile c low high w.val,
    fun shut => ⟨fun v => spoolWindow_shut ready shut _, spoolWindow_shut ready shut _⟩⟩ <;>
  simp only [spoolWindow_open ready isOpen, windowAccess]
  · rw [place]
    exact ⟨_, rfl, rfl, Memory.readBytes_writeWord spoolWf a v, fun x => Memory.readByte_writeWords s.spool a [v] x⟩
  · rw [place]
    exact ⟨_, rfl, rfl, Memory.readBytes_writeWord accWf _ v, fun x => Memory.readByte_writeWords s.acc _ [v] x⟩
  · rw [place]
    exact next_eq (congrArg (busRead · false s) (windowWord_plain other))
  · rw [windowPlace_spool c queue.le, queue]
    exact ⟨_, windowWord_length c w.val _ s, rfl⟩
  · rw [place]
    rfl

end Sys2Proof.Machine
end

section
/-! The first F issue (family 05): what begins with an execution, and what of it stays where a skip notice is held already (R180, R181,
R205, R387). -/

namespace Sys2Proof.Machine

/-- The state at the first F issue, before its events. -/
def State.begun (s : State) : State :=
  { s with
    num := s.num.begin
    stp := s.stp.begin (arithCycles s) s.clk.refTimer s.clk.arithScaled s.trd.emDuringStep s.trd.voidDuringStep
    trd := { s.trd with emDuringStep := s.trd.em.any, voidDuringStep := s.trd.deadlineVoid }
    cores := s.cores.map fun c => (c.1, c.2.begin (decide (0 < s.stp.exec)))
    reel := { s.reel with hanks := s.reel.hanks.map fun h => h.begin s.num.begin.e (twoPathSampled s h.tag s.stp.batch) }
    ply := { startCarding s.ply.cardReplay s.ply with cardReplay := [] } }

section
variable (s : State)

theorem firstF_tellsOnly : ∃ tel, TellsOnly (if s.stp.skipHeld then holdSkip { s.begun with tel := tel } else { s.begun with tel := tel }) (firstF s) := by
  obtain ⟨tel, settled⟩ := raiseIf_tellsOnly s.stp.nextSettled 0x1301 [s.stp.nextReason] s.begun
  refine ⟨tel, ?_⟩
  rw [← settled]
  exact (TellsOnly.refl _).ite ((countEvt_tellsOnly ..).trans (raise_tellsOnly ..))

theorem firstF_free (free : s.stp.skipHeld = false) : ∃ tel, firstF s = { s.begun with tel := tel } := by
  obtain ⟨_, tel, told⟩ := firstF_tellsOnly s
  rw [free] at told
  exact ⟨tel, told⟩

theorem firstF_skipped (held : s.stp.skipHeld = true) : ∃ tel, firstF s = { holdSkip s.begun with tel := tel } := by
  obtain ⟨_, tel, told⟩ := firstF_tellsOnly s
  rw [held] at told
  exact ⟨tel, told⟩

/-- Every core begins anew, also one of which nothing is listed. -/
theorem begun_core (c : Nat) : s.begun.core c = (s.core c).begin (decide (0 < s.stp.exec)) :=
  assocGet_map CoreState.reset c (CoreState.begin (decide (0 < s.stp.exec))) (by simp [CoreState.begin, CoreState.reset]) s.cores

theorem begun_core_keeps (c : Nat) : (s.begun.core c).stepFlags = TileFlags.clear ∧ (s.begun.core c).e0t0 = (s.core c).e0t0 ∧
    (s.begun.core c).e0t1 = (s.core c).e0t1 ∧ (s.begun.core c).e1t0 = (s.core c).e1t0 ∧ (s.begun.core c).e1t1 = (s.core c).e1t1 ∧
    (s.begun.core c).page = (s.core c).page ∧ (s.begun.core c).firstInvalid = (s.core c).firstInvalid := by
  rw [begun_core]
  exact ⟨rfl, rfl, rfl, rfl, rfl, rfl, rfl⟩

end

theorem NumBlk.begin_of_next {b : NumBlk} {n : NumNext} (next : b.next = some n) :
    b.begin.e = n.e ∧ b.begin.clean = n.clean ∧ b.begin.layers = n.modes := by
  simp only [NumBlk.begin, next, and_self]

theorem NumBlk.begin_of_none {b : NumBlk} (next : b.next = none) :
    b.begin.e = b.e ∧ b.begin.clean = b.clean ∧ b.begin.layers = b.layers := by
  simp only [NumBlk.begin, next, and_self]

theorem firstFReady_iff (s : State) : firstFReady s = true ↔
    s.warp.state = .loaded ∧ s.warp.dist = true ∧ s.nep.seed.isSome = true ∧ s.job.formed = true ∧ s.stp.desc.isSome = true ∧
      s.stp.running = false ∧ s.reel.initialised = true ∧ (∀ l ∈ firstLayers s, paramsResident s l = true) ∧ s.ply.quarantineHalt = false ∧
      engineCarding s = false ∧ s.trd.ladder = .t0 ∧ s.trd.stopping = false := by
  simp only [firstFReady, arithmeticOn, tilesGoOn, Bool.and_eq_true, beq_iff_eq, Bool.not_eq_true', List.all_eq_true, and_assoc]

/-- Settles O18: the first F issue leaves `State.begun` with its events, and abandons it where a skip notice is held. -/
theorem firstFIssueRow : Obligations.FirstFIssueRow := by
  intro s
  refine ⟨firstFReady_iff s, fun unready => next_neg (by simp [unready]), fun ready held => ?_, fun ready free => ?_⟩
  · obtain ⟨tel, told⟩ := firstF_skipped s held
    exact ⟨_, (next_pos ready).trans (next_eq told), rfl, rfl, rfl⟩
  · obtain ⟨tel, told⟩ := firstF_free s free
    refine ⟨_, (next_pos ready).trans (next_eq told), rfl, rfl, rfl, rfl, rfl, rfl, rfl, rfl, rfl, rfl, rfl, rfl,
      fun n => NumBlk.begin_of_next, NumBlk.begin_of_none, begun_core_keeps s, rfl⟩

end Sys2Proof.Machine
end

section
/-! What the reel leaves of a device (family 07): batch and execution, loader, job formation, accumulator storage, spools, creels, module
flash, queues, host attachment, bring-up and sessions stay through every message, and a tile changes only where a skip notice gives it
up (R205, R250, R252, R342). -/

namespace Sys2Proof.Machine

/-- What no message of the reel changes. -/
def State.steady (s : State) :=
  (s.stp.batch, s.stp.exec, s.stp.stepIndex, s.stp.running, s.job.formed, s.warp, s.acc, s.spool, s.creel, s.flash, s.weft, s.hub, s.mod,
    s.spdm, s.nep)

/-- A tile keeps its state and work, or is a gradient tile that was given up part-way (R205). -/
def AccTile.Kept (x y : AccTile) : Prop :=
  (y.st = x.st ∧ y.parts = x.parts) ∨ (partGradient (fun _ => true) x.parts = true ∧ y.st = .idle ∧ y.parts = [])

namespace AccTile.Kept

theorem refl (x : AccTile) : x.Kept x := .inl ⟨rfl, rfl⟩

theorem trans {x y z : AccTile} (h : x.Kept y) (h' : y.Kept z) : x.Kept z := by
  rcases h with ⟨st, parts⟩ | ⟨part, st, parts⟩
  · rcases h' with h' | h' <;> rw [parts] at h'
    · exact .inl ⟨h'.1.trans st, h'.2⟩
    · exact .inr h'
  · rcases h' with h' | h' <;> rw [parts] at h'
    · exact .inr ⟨part, h'.1.trans st, h'.2⟩
    · exact absurd h'.1 (by decide)

/-- A tile without work stays free. -/
theorem free {x y : AccTile} (h : x.Kept y) (st : x.st = .idle) (parts : x.parts = []) : y.st = .idle ∧ y.parts = [] := by
  rcases h with h | h
  · exact ⟨h.1.trans st, h.2.trans parts⟩
  · exact h.2

/-- A tile whose work is no part of a gradient goes on with it. -/
theorem whole {x y : AccTile} (h : x.Kept y) (whole : partGradient (fun _ => true) x.parts = false) : y.st = x.st ∧ y.parts = x.parts := by
  rcases h with h | h
  · exact h
  · exact absurd h.1 (by simp [whole])

end AccTile.Kept

/-- The steady part with the cores: what the reel leaves where it raises no notice. -/
def State.fixed (s : State) := (s.steady, s.cores)

/-- `t` comes of `s` by what the reel does. -/
structure Follows (s t : State) : Prop where
  steady : t.steady = s.steady
  tiles : ∀ a, (s.tile a).Kept (t.tile a)

namespace Follows

@[refl] theorem refl (s : State) : Follows s s := ⟨rfl, fun _ => .refl _⟩

theorem trans {s t u : State} (h : Follows s t) (h' : Follows t u) : Follows s u :=
  ⟨h'.steady.trans h.steady, fun a => (h.tiles a).trans (h'.tiles a)⟩

theorem of_fixed {s t : State} (fixed : t.fixed = s.fixed) : Follows s t := by
  obtain ⟨steady, cores⟩ := Prod.mk.inj fixed
  refine ⟨steady, fun a => ?_⟩
  have same : t.tile a = s.tile a := by unfold State.tile State.core; rw [cores]
  exact same ▸ .refl _

theorem ite {s t u : State} {c : Prop} [Decidable c] (ht : Follows s t) (hu : Follows s u) : Follows s (if c then t else u) := by
  split
  · exact ht
  · exact hu

theorem foldl {α : Type} {f : State → α → State} (step : ∀ u x, Follows u (f u x)) (l : List α) (s : State) :
    Follows s (l.foldl f s) := by
  induction l generalizing s with
  | nil => exact refl s
  | cons x xs ih => exact (step s x).trans (ih _)

end Follows

theorem fixed_of_quiet {s t : State} (h : t.quiet = s.quiet) : t.fixed = s.fixed := by
  rw [State.rest_of h]
  rfl

@[simp] theorem ite_fixed (c : Prop) [Decidable c] (a b : State) : (if c then a else b).fixed = if c then a.fixed else b.fixed := by
  split <;> rfl

@[simp] theorem foldl_fixed {α : Type} (f : State → α → State) (h : ∀ s x, (f s x).fixed = s.fixed) (l : List α) (s : State) :
    (l.foldl f s).fixed = s.fixed := by
  induction l generalizing s with
  | nil => rfl
  | cons x xs ih => rw [List.foldl_cons, ih, h]

section
variable (s : State)

-- The blocks, and reports.
@[simp] theorem State.onTel_fixed (f : TelBlk → TelBlk) : (s.onTel f).fixed = s.fixed := rfl
@[simp] theorem State.onRov_fixed (f : RovBlk → RovBlk) : (s.onRov f).fixed = s.fixed := rfl
@[simp] theorem State.onPly_fixed (f : PlyBlk → PlyBlk) : (s.onPly f).fixed = s.fixed := rfl
@[simp] theorem State.onReel_fixed (f : ReelBlk → ReelBlk) : (s.onReel f).fixed = s.fixed := rfl
@[simp] theorem State.onSec_fixed (f : SecBlk → SecBlk) : (s.onSec f).fixed = s.fixed := rfl
@[simp] theorem State.onBob_fixed (f : BobBlk → BobBlk) : (s.onBob f).fixed = s.fixed := rfl
@[simp] theorem State.onNum_fixed (f : NumBlk → NumBlk) : (s.onNum f).fixed = s.fixed := rfl
@[simp] theorem State.onTrd_fixed (f : TrdBlk → TrdBlk) : (s.onTrd f).fixed = s.fixed := rfl
@[simp] theorem State.onStp_fixed (f : StpBlk → StpBlk) (batch : ∀ b, (f b).batch = b.batch) (exec : ∀ b, (f b).exec = b.exec)
    (index : ∀ b, (f b).stepIndex = b.stepIndex) (running : ∀ b, (f b).running = b.running) : (s.onStp f).fixed = s.fixed := by
  simp [State.fixed, State.steady, batch, exec, index, running]
@[simp] theorem State.onJob_fixed (f : JobBlk → JobBlk) (formed : ∀ b, (f b).formed = b.formed) : (s.onJob f).fixed = s.fixed := by
  simp [State.fixed, State.steady, formed]
@[simp] theorem raise_fixed (c : Half) (p : List Nat) : (raise c p s).fixed = s.fixed := rfl
@[simp] theorem raiseIf_fixed (b : Bool) (c : Half) (p : List Nat) : (raiseIf b c p s).fixed = s.fixed := by cases b <;> rfl
@[simp] theorem count_fixed (b k n : Nat) : (count b k n s).fixed = s.fixed := rfl
@[simp] theorem countEvt_fixed (k : Nat) : (countEvt k s).fixed = s.fixed := rfl
@[simp] theorem countErr_fixed (k : Nat) : (countErr k s).fixed = s.fixed := rfl
@[simp] theorem faultNow_fixed : (faultNow s).fixed = s.fixed := rfl
@[simp] theorem batchKhz_fixed (scaled tick : Nat) : (batchKhz scaled tick s).fixed = s.fixed := rfl
@[simp] theorem noteError_fixed (addr kind : Nat) (byScrub : Bool) (cls symbol : Nat) :
    (noteError addr kind byScrub cls symbol s).fixed = s.fixed := rfl

-- Frames.
@[simp] theorem giveBack_fixed (p : PortIx) (v n : Nat) : (giveBack p v n s).fixed = s.fixed := rfl
@[simp] theorem sendUnicast_fixed (f : Frame) : (sendUnicast f s).fixed = s.fixed := fixed_of_quiet (sendUnicast_quiet f s)
@[simp] theorem broadcast_fixed (f : Frame) : (broadcast f s).fixed = s.fixed := fixed_of_quiet (broadcast_quiet f s)
@[simp] theorem dropRevoked_fixed (b e : Nat) : (dropRevoked b e s).fixed = s.fixed := fixed_of_quiet (dropRevoked_quiet b e s)
@[simp] theorem sendOn_fixed (p : Option PortIx) (f : Frame) : (sendOn p f s).fixed = s.fixed := fixed_of_quiet (sendOn_quiet p f s)
@[simp] theorem frameParity_fixed (boundary : Fin 8) : (frameParity boundary s).fixed = s.fixed := rfl
@[simp] theorem arrived_fixed (r : Rx) : (arrived r s).fixed = s.fixed := fixed_of_quiet (arrived_quiet r s)

theorem endpoint_follows (first : Bool) {k : Rx → State → State} (r : Rx) (deliver : ∀ x y, Follows y (k x y)) :
    Follows s (endpoint first k r s) := by
  unfold endpoint
  dsimp only
  split
  · split
    · exact .of_fixed rfl
    · exact (Follows.of_fixed (giveBack_fixed s ..)).trans (deliver ..)
  · exact .of_fixed (by cases first <;> rfl)
  · exact .of_fixed rfl
  · exact .of_fixed rfl

-- Skip notices.
theorem partGradient_all {which : Nat → Bool} {parts : List TileWork} (part : partGradient which parts = true) :
    partGradient (fun _ => true) parts = true := by
  unfold partGradient at part ⊢
  split at part
  · simp only [Bool.and_eq_true, Bool.and_true] at part ⊢
    exact ⟨part.1.1, part.2⟩
  · cases part

theorem dropPartGradients_follows (which : Nat → Bool) : Follows s (dropPartGradients which s) := by
  refine ⟨rfl, fun a => ?_⟩
  have core : (dropPartGradients which s).core a.core.val =
      (s.core a.core.val).onTiles fun x => if partGradient which x.parts then x.drop else x :=
    assocGet_map CoreState.reset _ (CoreState.onTiles fun x => if partGradient which x.parts then x.drop else x) rfl s.cores
  have tile : (dropPartGradients which s).tile a = if partGradient which (s.tile a).parts then (s.tile a).drop else s.tile a := by
    unfold State.tile
    rw [core]
    cases a.eng <;> cases a.tile <;> rfl
  rw [tile]
  split
  case isTrue part => exact .inr ⟨partGradient_all part, rfl, rfl⟩
  case isFalse => exact .refl _

theorem holdSkip_follows : Follows s (holdSkip s) :=
  (Follows.of_fixed (by simp)).trans (dropPartGradients_follows ((s.onStp fun b => { b with skipHeld := true }).onReel ReelBlk.abandon) _)

theorem managerNotice_follows : Follows s (managerNotice s) := by
  unfold managerNotice
  split
  · exact .refl s
  · exact (Follows.of_fixed (by simp)).trans (holdSkip_follows _)

theorem noteNonfinite_follows : Follows s (noteNonfinite s) := by
  unfold noteNonfinite
  split
  · exact .refl s
  · split
    · exact (Follows.of_fixed (by simp)).trans (managerNotice_follows _)
    · exact .of_fixed (by simp)

-- Hanks: contributions, adders, and the requests between owners.
@[simp] theorem State.putPlaces_fixed (ps : List (Nat × Nat)) (bs : List Byte) : (s.putPlaces ps bs).fixed = s.fixed := rfl
@[simp] theorem State.onHank_fixed (tag : Nat) (f : HankRt → HankRt) : (s.onHank tag f).fixed = s.fixed := rfl
@[simp] theorem sendReel_fixed (marker : BitVec 4) (role par dest : Nat) (h : RHdr) (body : List Word) :
    (sendReel marker role par dest h body s).fixed = s.fixed := by simp [sendReel]
@[simp] theorem distribute_fixed (marker : BitVec 4) (owner : Nat) (h : RHdr) (body : List Word) :
    (distribute marker owner h body s).fixed = s.fixed := by simp [distribute]
@[simp] theorem readSources_fixed (tag : Nat) (c : Contribution) : (readSources tag c s).fixed = s.fixed := by
  unfold readSources
  split
  · exact foldl_fixed _ (fun t w => by simp) _ s
  · rfl
@[simp] theorem readRetained_fixed (h : HankRt) : (readRetained h s).fixed = s.fixed := by simp [readRetained]
@[simp] theorem countClips_fixed (tag : Nat) (c : Contribution) : (countClips tag c s).fixed = s.fixed := by
  unfold countClips
  split <;> simp
@[simp] theorem forwardPartial_fixed (tag : Nat) (h : HankRt) (second : Bool) (tile seg contributors : Nat) (c : Checked) :
    (forwardPartial tag h second tile seg contributors c s).fixed = s.fixed := by
  unfold forwardPartial
  split <;> simp

/-- An adder tells of a breach, and no more of it reaches a core (R232, R234). -/
theorem finishAdder_follows (tag : Nat) (second : Bool) (tile seg : Nat) : Follows s (finishAdder tag second tile seg s) := by
  unfold finishAdder
  split
  · exact .refl s
  · split
    · exact .refl s
    · split
      · exact .refl s
      · dsimp only
        split
        · exact (Follows.of_fixed (by simp)).trans (noteNonfinite_follows _)
        · exact .of_fixed (by simp)

theorem enterTile_follows (tag : Nat) (second : Bool) (tile : Nat) : Follows s (enterTile tag second tile s) := by
  refine .foldl (fun t seg => ?_) _ s
  split
  · exact .refl t
  · exact (Follows.of_fixed (by simp)).trans (finishAdder_follows ..)

theorem enterHank_follows (tag : Nat) (second : Bool) : Follows s (enterHank tag second s) := by
  unfold enterHank
  split
  · exact .foldl (fun t i => (enterTile_follows ..).ite (.refl t)) _ s
  · exact .refl s

@[simp] theorem comparePaths_fixed (p : Hank) (h : HankRt) : (comparePaths p h s).fixed = s.fixed := by
  unfold comparePaths
  dsimp only
  split
  · rfl
  · simp [capture]
@[simp] theorem abandonShard_fixed (tag : Nat) : (abandonShard tag s).fixed = s.fixed := rfl
@[simp] theorem beginU_fixed : (beginU s).fixed = s.fixed := by
  unfold beginU
  refine State.onStp_fixed s _ ?_ ?_ ?_ ?_ <;> intro b <;> split <;> rfl
@[simp] theorem beginG_fixed : (beginG s).fixed = s.fixed := by
  unfold beginG
  refine State.onStp_fixed s _ ?_ ?_ ?_ ?_ <;> intro b <;> split <;> rfl
@[simp] theorem hankProgress_fixed (tag : Nat) : (hankProgress tag s).fixed = s.fixed := by
  unfold hankProgress
  (repeat' split) <;> simp

theorem secondPath_follows (tag : Nat) (was : HankSt) : Follows s (secondPath tag was s) := by
  unfold secondPath
  split
  · exact (((Follows.of_fixed (readRetained_fixed ..)).trans (enterHank_follows ..)).trans (.of_fixed (hankProgress_fixed ..))).ite (.refl s)
  · exact .refl s

theorem advanceHank_follows (tag : Nat) : Follows s (advanceHank tag s) := by
  unfold advanceHank
  split
  · exact (Follows.of_fixed (by simp)).trans (secondPath_follows ..)
  · exact .refl s

theorem restartHank_follows (tag : Nat) : Follows s (restartHank tag s) := by
  unfold restartHank
  dsimp only
  split
  · exact .of_fixed (by simp)
  · split
    · exact ((Follows.of_fixed (by simp)).trans (enterHank_follows ..)).trans (advanceHank_follows ..)
    · exact .of_fixed (by simp)

theorem markHank_follows (tag : Nat) : Follows s (markHank tag s) := (Follows.of_fixed (by simp)).trans (noteNonfinite_follows _)

theorem ownerRescale_follows (tag attempt detector : Nat) : Follows s (ownerRescale tag attempt detector s) := by
  unfold ownerRescale
  split
  · exact .refl s
  · exact Follows.ite (.refl s) (((Follows.of_fixed (by simp)).trans (restartHank_follows ..)).ite
      ((Follows.of_fixed (by simp)).trans (markHank_follows ..)))

theorem askRescale_follows (tag : Nat) : Follows s (askRescale tag s) := by
  unfold askRescale
  split
  · exact .refl s
  · split
    · dsimp only
      split
      · exact (Follows.of_fixed (by simp)).trans (ownerRescale_follows ..)
      · exact .of_fixed (by simp)
    · exact .refl s

theorem settleHank_follows (tag : Nat) : Follows s (settleHank tag s) :=
  ((advanceHank_follows ..).trans (askRescale_follows ..)).trans (askRescale_follows ..)

@[simp] theorem openHank_fixed (tag : Nat) : (openHank tag s).fixed = s.fixed := rfl
@[simp] theorem reelInvalid_fixed (r : Rx) : (reelInvalid r s).fixed = s.fixed := rfl

theorem startG_follows : Follows s (startG s) := by
  refine (Follows.refl s).ite (.foldl (fun t p => ?_) _ s)
  split
  · exact (Follows.refl t).ite (((Follows.of_fixed (by simp)).trans (enterHank_follows ..)).trans (settleHank_follows ..))
  · exact .refl t

theorem useSegment_follows (h : RHdr) (ws : List Word) : Follows s (useSegment h ws s) := by
  refine Follows.trans (Follows.trans ?_ (finishAdder_follows ..)) (settleHank_follows ..)
  have marked (c : Bool) : Follows s (if c then noteNonfinite (raise 0x2322 [h.tag] (countEvt kMarkers s)) else s) :=
    ((Follows.of_fixed (by simp)).trans (noteNonfinite_follows _)).ite (.refl s)
  exact (marked _).trans (.of_fixed (State.onHank_fixed ..))

theorem takeSegment_follows (r : Rx) : Follows s (takeSegment r s) := by
  unfold takeSegment
  dsimp only
  split
  · exact .refl s
  · exact (Follows.of_fixed (by simp)).ite ((Follows.refl s).ite ((Follows.of_fixed (by simp)).ite (useSegment_follows ..)))

theorem releaseSegments_follows (tag : Nat) : Follows s (releaseSegments tag s) := by
  unfold releaseSegments
  split
  · exact .refl s
  · exact (Follows.of_fixed (by simp)).trans (.foldl (fun t r => takeSegment_follows t r) _ _)

theorem onRescale_follows (r : Rx) : Follows s (onRescale r s) := by
  unfold onRescale
  dsimp only
  split
  · split
    · exact .of_fixed (by simp)
    · split
      · exact (((Follows.of_fixed (by simp)).trans (restartHank_follows ..)).trans (settleHank_follows ..)).trans (releaseSegments_follows ..)
      · exact .of_fixed (by simp)
  · split
    · exact ((ownerRescale_follows ..).trans (settleHank_follows ..)).trans (releaseSegments_follows ..)
    · split
      · exact .refl s
      · exact .of_fixed (by simp)

-- Factors, the phase spans and the scale proposals.
@[simp] theorem State.onLowRank_fixed (layer : Nat) (f : LowRankRt → LowRankRt) : (s.onLowRank layer f).fixed = s.fixed := rfl
@[simp] theorem takeFactor_fixed (layer kind tile seg : Nat) (vals : List Word) : (takeFactor layer kind tile seg vals s).fixed = s.fixed := by
  unfold takeFactor
  dsimp only
  split
  · rfl
  · split
    · split <;> rfl
    · split
      · rfl
      · split
        · exact (foldl_fixed _ (fun _ _ => raise_fixed ..) _ _).trans rfl
        · rfl
@[simp] theorem sendFactor_fixed (tag : Nat) : (sendFactor tag s).fixed = s.fixed := by unfold sendFactor; split <;> simp
@[simp] theorem sendNewFactors_fixed (before : State) : (sendNewFactors before s).fixed = s.fixed := by
  refine foldl_fixed _ (fun t p => ?_) _ s
  dsimp only
  (repeat' split) <;> simp
@[simp] theorem tellReduced_fixed : (tellReduced s).fixed = s.fixed := by simp [tellReduced]
@[simp] theorem endF_fixed : (endF s).fixed = s.fixed := by unfold endF; split <;> simp
@[simp] theorem startU_fixed : (startU s).fixed = s.fixed := by simp [startU]

theorem endB_follows : Follows s (endB s) := by
  unfold endB
  split
  · exact ((Follows.of_fixed (by simp)).trans (startG_follows _)).ite (.of_fixed (by simp))
  · exact .refl s

theorem noteSpans_follows : Follows s (noteSpans s) :=
  (((Follows.of_fixed (endF_fixed s)).ite (.refl s)).trans (endB_follows _)).trans
    ((Follows.of_fixed (startU_fixed _)).trans (.of_fixed (State.onStp_fixed _ _ (fun _ => rfl) (fun _ => rfl) (fun _ => rfl) fun _ => rfl)))

/-- The notes of phases that end, with the factors that go out. -/
theorem noteEnds_follows : Follows s (noteEnds s) :=
  ((noteSpans_follows s).trans (.of_fixed (by simp))).trans (noteSpans_follows _)

@[simp] theorem noteUpdateOvf_fixed (tag n : Nat) : (noteUpdateOvf tag n s).fixed = s.fixed := by
  unfold noteUpdateOvf
  split <;> simp
@[simp] theorem agreeScale_fixed (tag : Nat) (rho : Int) : (agreeScale tag rho s).fixed = s.fixed := rfl
@[simp] theorem tryAgree_fixed (tag : Nat) : (tryAgree tag s).fixed = s.fixed := by
  unfold tryAgree
  dsimp only
  (repeat' split) <;> simp
@[simp] theorem addProposal_fixed (tag source : Nat) (rho : Int) : (addProposal tag source rho s).fixed = s.fixed := by
  simp [addProposal]
@[simp] theorem onProposal_fixed (r : Rx) : (onProposal r s).fixed = s.fixed := by simp [onProposal]
@[simp] theorem passOn_fixed (r : Rx) : (passOn r s).fixed = s.fixed := by simp [passOn]
@[simp] theorem onAgreed_fixed (r : Rx) : (onAgreed r s).fixed = s.fixed := by
  unfold onAgreed
  dsimp only
  split
  · exact (foldl_fixed _ (fun _ _ => agreeScale_fixed ..) _ _).trans (passOn_fixed ..)
  · rfl
@[simp] theorem onFactor_fixed (r : Rx) : (onFactor r s).fixed = s.fixed := by unfold onFactor; dsimp only; split <;> simp

-- Parameters, leaves, and key and value blocks.
@[simp] theorem placeSegment_fixed (p : Hank) (copy fmt tile seg : Nat) (bytes : List Byte) :
    (placeSegment p copy fmt tile seg bytes s).fixed = s.fixed := by
  unfold placeSegment
  (repeat' split) <;> simp
@[simp] theorem emitAll_fixed (p : Hank) (es : List Emitted) : (emitAll p es s).fixed = s.fixed := by simp [emitAll]
@[simp] theorem emitHank_fixed (p : Hank) : (emitHank p s).fixed = s.fixed := by
  unfold emitHank
  (repeat' split) <;> simp
@[simp] theorem reEmit_fixed (p : Hank) : (reEmit p s).fixed = s.fixed := by simp [reEmit]
@[simp] theorem State.onParam_fixed (tag : Nat) (f : ParamRt → ParamRt) : (s.onParam tag f).fixed = s.fixed := rfl
@[simp] theorem onParamSegment_fixed (r : Rx) : (onParamSegment r s).fixed = s.fixed := by
  unfold onParamSegment
  dsimp only
  split <;> simp
@[simp] theorem askResend_fixed (tag : Nat) : (askResend tag s).fixed = s.fixed := by simp [askResend, requestResend]
@[simp] theorem onParamEnd_fixed (r : Rx) : (onParamEnd r s).fixed = s.fixed := by
  unfold onParamEnd
  dsimp only
  (repeat' split) <;> simp
@[simp] theorem onParamResend_fixed (r : Rx) : (onParamResend r s).fixed = s.fixed := by
  unfold onParamResend
  dsimp only
  split <;> simp
@[simp] theorem formPairs_fixed (n : Nat) : (formPairs n s).fixed = s.fixed := by
  induction n generalizing s with
  | zero => rfl
  | succ n ih => unfold formPairs; dsimp only; split <;> simp [ih]
@[simp] theorem holdLeaf_fixed (step tag : Nat) (leaf : List Byte) : (holdLeaf step tag leaf s).fixed = s.fixed := by simp [holdLeaf]
@[simp] theorem onLeaf_fixed (r : Rx) : (onLeaf r s).fixed = s.fixed := by simp [onLeaf, passLeaf]
@[simp] theorem onLeafQuery_fixed (r : Rx) : (onLeafQuery r s).fixed = s.fixed := by
  unfold onLeafQuery
  dsimp only
  split <;> simp
@[simp] theorem sendBlock_fixed (k : KvHdr) (n : Nat) (bs : List Byte) : (sendBlock k n bs s).fixed = s.fixed := by
  induction n generalizing k bs s with
  | zero => rfl
  | succ n ih => unfold sendBlock; dsimp only; split <;> simp [ih]
@[simp] theorem ringOut_fixed (k : KvHdr) (bs : List Byte) : (ringOut k bs s).fixed = s.fixed := by simp [ringOut]
@[simp] theorem kvDeliver_fixed (n : Nat) : (kvDeliver n s).fixed = s.fixed := by
  induction n generalizing s with
  | zero => rfl
  | succ n ih =>
    unfold kvDeliver
    split
    · rfl
    · simp [ih]
@[simp] theorem onKv_fixed (r : Rx) : (onKv r s).fixed = s.fixed := by simp [onKv]
@[simp] theorem noteP_fixed : (noteP s).fixed = s.fixed := by
  unfold noteP
  dsimp only
  split <;> simp

theorem reelWork_follows (r : Rx) : Follows s (reelWork r s) := by
  unfold reelWork
  split
  · exact (Follows.of_fixed (countEvt_fixed s kSegIn)).trans (takeSegment_follows ..)
  · exact onRescale_follows s r
  all_goals exact .of_fixed (by simp)

/-- Every message of the reel keeps the steady part, and tiles but those that a notice gives up. -/
theorem onReelFrame_follows (r : Rx) : Follows s (onReelFrame r s) := by
  unfold onReelFrame
  refine Follows.ite (Follows.ite (.of_fixed (onKv_fixed s r)) (.of_fixed rfl)) (Follows.ite (.of_fixed rfl) ?_)
  exact ((reelWork_follows s r).trans ((Follows.of_fixed (sendNewFactors_fixed ..)).trans (noteEnds_follows _))).trans
    (.of_fixed (noteP_fixed _))

theorem releaseHeld_follows : Follows s (releaseHeld s) :=
  (Follows.of_fixed (State.onRov_fixed ..)).trans
    (.foldl (fun t r => endpoint_follows t false r fun x y => onReelFrame_follows y x) _ _)

end

-- The rows.

theorem reelRow_arrives {ok : Bool} {rx : Rx} {s : State} (arrives : Arrives rx s) (shaped : ok = true) :
    reelRow ok rx s = .next (onReelFrame rx (arrived rx s)) := by
  rw [reelRow, checked, if_pos shaped, receive_arrives _ _ _ arrives]

theorem ftype_of_frameOf {t : BitVec 8} {rx : Rx} (h : frameOf t rx = true) : rx.frame.ftype = t :=
  beq_iff_eq.1 (Bool.and_eq_true_iff.1 h).2

theorem ftype_of_reelOf {n : Nat} {rx : Rx} (h : reelOf n rx = true) : rx.frame.ftype = ftReel :=
  ftype_of_frameOf (Bool.and_eq_true_iff.1 h).1

theorem ftype_of_segmentFrame {rx : Rx} (h : segmentFrame rx = true) : rx.frame.ftype = ftReel :=
  ftype_of_frameOf (Bool.and_eq_true_iff.1 h).1

/-- The rows of the reel differ in the form of their frame only. -/
theorem reelMessage_row {c : Instr} {rx : Rx}
    (row : c ∈ [Instr.hankSegment rx, .rescale rx, .scaleProposal rx, .scaleAgreed rx, .factorResult rx, .paramSegment rx, .paramEnd rx,
      .paramResend rx, .plyLeaf rx, .plyLeafQuery rx, .kvBlock rx]) (wf : WellFormed.Instr.wf c = true) :
    ∃ ok, ok = true ∧ (∀ s, exec c s = reelRow ok rx s) ∧ (c ≠ .kvBlock rx → rx.frame.ftype = ftReel) := by
  simp only [List.mem_cons, List.not_mem_nil, or_false] at row
  rcases row with rfl | rfl | rfl | rfl | rfl | rfl | rfl | rfl | rfl | rfl | rfl
  · exact ⟨_, wf, fun _ => rfl, fun _ => ftype_of_segmentFrame wf⟩
  case inr.inr.inr.inr.inr.inr.inr.inr.inr.inr => exact ⟨_, wf, fun _ => rfl, fun other => absurd rfl other⟩
  all_goals exact ⟨_, wf, fun _ => rfl, fun _ => ftype_of_reelOf wf⟩

/-- Settles O40: every message of the reel keeps the steady part, and one that fails its checks is not used. -/
theorem reelMessageRows : Obligations.ReelMessageRows := by
  intro rx s c arrives _ row wf
  obtain ⟨ok, shaped, runs, reel⟩ := reelMessage_row row wf
  refine ⟨_, (runs s).trans (reelRow_arrives arrives shaped), ?_⟩
  have steady := ((Follows.of_fixed (arrived_fixed s rx)).trans (onReelFrame_follows (arrived rx s) rx)).steady
  simp only [State.steady, Prod.mk.injEq] at steady
  obtain ⟨batch, exec, index, running, formed, warp, acc, spool, creel, flash, weft, hub, mod, spdm, nep⟩ := steady
  refine ⟨batch, exec, index, running, formed, warp, acc, spool, creel, flash, weft, hub, mod, spdm, nep, fun other invalid => ?_⟩
  have unused := (reelRow_arrives arrives shaped).symm.trans (reelRow_invalid ok rx s arrives shaped (reel other) invalid)
  exact Host.Outcome.next.inj unused

end Sys2Proof.Machine
end

section
/-! Segments of a hank and its restart (family 07): a segment that waits, and what a restart ordered by the owner leaves of attempt and scale
(R224, R233, R235). -/

namespace Sys2Proof.Machine

-- A hank after a change of one.

theorem State.hank_onHank {s : State} {tag : Nat} {f : HankRt → HankRt} (keeps : ∀ h, (f h).tag = h.tag) :
    (s.onHank tag f).hank tag = (s.hank tag).map f :=
  find?_updWhere (fun h : HankRt => h.tag == tag) f (fun h same => by rw [keeps]; exact same) s.reel.hanks

theorem State.hank_onHank_some {s : State} {tag : Nat} {x : HankRt} {f : HankRt → HankRt} (keeps : ∀ h, (f h).tag = h.tag)
    (hank : s.hank tag = some x) : (s.onHank tag f).hank tag = some (f x) := by
  rw [State.hank_onHank keeps, hank, Option.map_some]

theorem State.hank_onHank_ne {s : State} {tag g : Nat} {f : HankRt → HankRt} (keeps : ∀ h, (f h).tag = h.tag) (other : g ≠ tag) :
    (s.onHank tag f).hank g = s.hank g :=
  find?_updWhere_ne (fun h : HankRt => h.tag == tag) (fun h => h.tag == g) f (fun h same => by
    have tagged : h.tag = tag := by simpa using same
    simp [keeps, tagged, Ne.symm other]) s.reel.hanks

@[simp] theorem putOperands_tag (second : Bool) (tile seg : Nat) (ops : List Operand) (h : HankRt) :
    (putOperands second tile seg ops h).tag = h.tag := by
  unfold putOperands
  split <;> rfl

section
variable {s t : State} (warp : t.warp = s.warp)
include warp

theorem rankOf_of_warp : rankOf t = rankOf s := by unfold rankOf; rw [warp]
theorem findHank_of_warp (tag : Nat) : findHank t tag = findHank s tag := by unfold findHank hankPlan; rw [warp]
theorem ownerOf_of_warp (tag : Nat) : ownerOf t tag = ownerOf s tag := by unfold ownerOf; rw [findHank_of_warp warp]
theorem routeIn_of_warp : routeIn t = routeIn s := by
  funext owner me second
  unfold routeIn deviceCount isTorus torusX torusY
  rw [warp]
theorem isExact_of_warp : isExact t = isExact s := by unfold isExact; rw [warp]

theorem expectedOperands_of_warp (desc : t.stp.desc = s.stp.desc) (tag : Nat) (second : Bool) :
    expectedOperands t tag second = expectedOperands s tag second := by
  unfold expectedOperands groupCount
  rw [routeIn_of_warp warp, ownerOf_of_warp warp, rankOf_of_warp warp, isExact_of_warp warp, warp, desc]
end

-- A segment that waits for others.

section
variable {s : State} {tag : Nat} {h : HankRt} (hank : s.hank tag = some h)
include hank

theorem finishAdder_waits {second : Bool} {tile seg : Nat} {a : Adder} (found : h.adders.find? (fun a => a.at second tile seg && !a.done) = some a)
    (lacks : a.operands.length < expectedOperands s tag second) : finishAdder tag second tile seg s = s := by
  simp only [finishAdder, hank, found, if_pos lacks]

theorem hankProgress_waits (first : h.st = .first) (lacks : ∀ p, findHank s tag = some p → h.doneCount false ≠ 16 * p.tileCount) :
    hankProgress tag s = s := by
  unfold hankProgress
  rw [hank]
  cases plan : findHank s tag with
  | none => rfl
  | some p => simp [first, lacks p plan]

theorem secondPath_waits (st : h.st ≠ .second) (was : HankSt) : secondPath tag was s = s := by
  unfold secondPath
  rw [hank]
  exact if_neg (by simp [st])

theorem askRescale_waits (sat : h.sat = false) : askRescale tag s = s := by
  unfold askRescale
  rw [hank]
  exact if_neg (by simp [sat])

/-- A hank whose first path is not through and that has not saturated stays as it is. -/
theorem settleHank_waits (first : h.st = .first) (lacks : ∀ p, findHank s tag = some p → h.doneCount false ≠ 16 * p.tileCount)
    (sat : h.sat = false) : settleHank tag s = s := by
  have advance : advanceHank tag s = s := by
    unfold advanceHank
    rw [hank]
    exact (congrArg (secondPath tag h.st) (hankProgress_waits hank first lacks)).trans (secondPath_waits hank (by simp [first]) _)
  rw [settleHank, advance, askRescale_waits hank sat, askRescale_waits hank sat]
end

theorem putOperands_new {second : Bool} {tile seg : Nat} {ops : List Operand} {h : HankRt}
    (new : h.adders.any (fun a => a.at second tile seg) = false) :
    putOperands second tile seg ops h = { h with adders := h.adders ++ [⟨second, tile, seg, ops, false⟩] } := by
  rw [putOperands, if_neg (by simp [new])]

/-- The hank once an operand has opened the adder of its segment. -/
def HankRt.opened (x : HankRt) (h : RHdr) (ws : List Word) : HankRt :=
  { x with clippedSeen := x.clippedSeen || h.clipped, adders := x.adders ++ [⟨h.path == 1, h.tile, h.segment, [segOperand h ws], false⟩] }

theorem HankRt.opened_doneCount (x : HankRt) (h : RHdr) (ws : List Word) : (x.opened h ws).doneCount false = x.doneCount false := by
  simp [HankRt.doneCount, HankRt.opened]

theorem HankRt.opened_adder {x : HankRt} {h : RHdr} {ws : List Word} (new : x.adders.any (fun a => a.at (h.path == 1) h.tile h.segment) = false) :
    (x.opened h ws).adders.find? (fun a => a.at (h.path == 1) h.tile h.segment && !a.done) =
      some ⟨h.path == 1, h.tile, h.segment, [segOperand h ws], false⟩ := by
  have none : x.adders.find? (fun a => a.at (h.path == 1) h.tile h.segment && !a.done) = none := by
    rw [List.find?_eq_none]
    intro a ha
    have := List.any_eq_false.1 new a ha
    simp [this]
  rw [HankRt.opened, List.find?_append, none]
  simp [Adder.at]

/-- What an unmarked operand does to its hank. -/
def HankRt.takes (h : RHdr) (ws : List Word) (y : HankRt) : HankRt :=
  putOperands (h.path == 1) h.tile h.segment [segOperand h ws]
    { y with clippedSeen := y.clippedSeen || h.clipped, marker := y.marker || false }

theorem HankRt.takes_new {x : HankRt} {h : RHdr} {ws : List Word} (new : x.adders.any (fun a => a.at (h.path == 1) h.tile h.segment) = false) :
    x.takes h ws = x.opened h ws := by
  rw [HankRt.takes, Bool.or_false]
  exact putOperands_new new

theorem useSegment_unmarked {s : State} {h : RHdr} {ws : List Word} (unmarked : (segOperand h ws).vals.any (·.isNone) = false) :
    useSegment h ws s = settleHank h.tag (finishAdder h.tag (h.path == 1) h.tile h.segment
      ((openHank h.tag s).onHank h.tag (HankRt.takes h ws))) := by
  simp only [useSegment, unmarked, Bool.false_eq_true, if_false]
  rfl

theorem hank_openHank {s : State} {tag : Nat} {x : HankRt} (hank : s.hank tag = some x) (busy : x.st ≠ .idle) :
    (openHank tag s).hank tag = some x := by
  rw [openHank, State.hank_onHank (fun h => by split <;> rfl), hank, Option.map_some, if_neg (by simpa using busy)]

theorem hank_openHank_ne {s : State} {tag g : Nat} (other : g ≠ tag) : (openHank tag s).hank g = s.hank g :=
  State.hank_onHank_ne (fun h => by split <;> rfl) other

/-- An operand of the current attempt, while others of its segment lack, becomes the first of its adder and no more happens. -/
theorem useSegment_opens {s : State} {h : RHdr} {ws : List Word} {x : HankRt} (hank : s.hank h.tag = some x) (first : x.st = .first)
    (sat : x.sat = false) (lacks : ∀ p, findHank s h.tag = some p → x.doneCount false ≠ 16 * p.tileCount)
    (new : x.adders.any (fun a => a.at (h.path == 1) h.tile h.segment) = false) (more : 1 < expectedOperands s h.tag (h.path == 1))
    (unmarked : (segOperand h ws).vals.any (·.isNone) = false) :
    (useSegment h ws s).hank h.tag = some (x.opened h ws) ∧ ∀ g, g ≠ h.tag → (useSegment h ws s).hank g = s.hank g := by
  have keeps : ∀ y : HankRt, (y.takes h ws).tag = y.tag := fun y => putOperands_tag ..
  have taken : ((openHank h.tag s).onHank h.tag (HankRt.takes h ws)).hank h.tag = some (x.opened h ws) := by
    rw [State.hank_onHank_some keeps (hank_openHank hank (by simp [first])), HankRt.takes_new new]
  rw [useSegment_unmarked unmarked, finishAdder_waits taken (HankRt.opened_adder new) more,
    settleHank_waits taken first (fun p plan => by rw [HankRt.opened_doneCount]; exact lacks p plan) sat]
  exact ⟨taken, fun g other => (State.hank_onHank_ne keeps other).trans (hank_openHank_ne other)⟩

-- HANK_SEGMENT.

/-- What a segment of the sender and contributors that the route implies, and of its form, does (R235, R253). -/
theorem takeSegment_valid {s : State} {rx : Rx} {h : RHdr} {x : HankRt} (hdr : h = readRHdr rx.frame.payload) (hank : s.hank h.tag = some x)
    (route : (h.source, h.contributors) ∈ routeIn s (ownerOf s h.tag) (rankOf s) (h.path == 1)) (wide : h.wide = (h.path == 1 || isExact s))
    (length : rx.frame.payload.length = 8 + (if h.wide then 1024 else 512)) :
    takeSegment rx s = if x.st == .abandoned || x.st == .nonfinite || h.attempt < x.attempt then s
      else if x.attempt < h.attempt then s.onHank h.tag fun y => { y with held := y.held ++ [rx] } else useSegment h rx.frame.payload s := by
  subst hdr
  have member : (routeIn s (ownerOf s (readRHdr rx.frame.payload).tag) (rankOf s) ((readRHdr rx.frame.payload).path == 1)).any
      (fun p => p.1 == (readRHdr rx.frame.payload).source && p.2 == (readRHdr rx.frame.payload).contributors) = true :=
    List.any_eq_true.2 ⟨_, route, by simp⟩
  have good : ((routeIn s (ownerOf s (readRHdr rx.frame.payload).tag) (rankOf s) ((readRHdr rx.frame.payload).path == 1)).any
      (fun p => p.1 == (readRHdr rx.frame.payload).source && p.2 == (readRHdr rx.frame.payload).contributors) &&
      (readRHdr rx.frame.payload).wide == ((readRHdr rx.frame.payload).path == 1 || isExact s) &&
      rx.frame.payload.length == 8 + (if (readRHdr rx.frame.payload).wide then 1024 else 512)) = true := by
    rw [member, ← wide, length]
    simp
  simp only [takeSegment, hank, good, Bool.not_true, Bool.false_eq_true, if_false]

/-- Below the current attempt, or for a hank that is over, nothing; above it the frame is held; at it, its operand opens an adder. -/
theorem takeSegment_cases {s : State} {rx : Rx} {h : RHdr} {x : HankRt} (hdr : h = readRHdr rx.frame.payload) (hank : s.hank h.tag = some x)
    (route : (h.source, h.contributors) ∈ routeIn s (ownerOf s h.tag) (rankOf s) (h.path == 1)) (wide : h.wide = (h.path == 1 || isExact s))
    (length : rx.frame.payload.length = 8 + (if h.wide then 1024 else 512)) :
    (h.attempt < x.attempt ∨ x.st = .abandoned ∨ x.st = .nonfinite → takeSegment rx s = s) ∧
    (x.st ≠ .abandoned → x.st ≠ .nonfinite → x.attempt < h.attempt →
      (takeSegment rx s).hank h.tag = some { x with held := x.held ++ [rx] } ∧ ∀ g, g ≠ h.tag → (takeSegment rx s).hank g = s.hank g) ∧
    (x.st = .first → x.attempt = h.attempt → takeSegment rx s = useSegment h rx.frame.payload s) := by
  rw [takeSegment_valid hdr hank route wide length]
  refine ⟨fun stale => if_pos ?_, fun notAbandoned notNonfinite early => ?_, fun first same => ?_⟩
  · rcases stale with h | h | h <;> simp [h]
  · rw [if_neg (by simp [notAbandoned, notNonfinite]; omega), if_pos early]
    exact ⟨State.hank_onHank_some (fun _ => rfl) hank, fun g other => State.hank_onHank_ne (fun _ => rfl) other⟩
  · rw [if_neg (by simp [first, same]), if_neg (by omega)]

-- Attempt and scale of a hank.

/-- The tag of a hank, its attempt and its scale. -/
abbrev HankRt.pace (h : HankRt) : Nat × Nat × Int := (h.tag, h.attempt, h.hs)

/-- The loader, and attempt and scale of one hank. -/
def State.pace (tag : Nat) (s : State) := (s.warp, (s.hank tag).map HankRt.pace)

@[simp] theorem putOperands_pace (second : Bool) (tile seg : Nat) (ops : List Operand) (h : HankRt) :
    (putOperands second tile seg ops h).pace = h.pace := by
  unfold putOperands
  split <;> rfl

theorem tag_of_pace {f : HankRt → HankRt} (keeps : ∀ h, (f h).pace = h.pace) (h : HankRt) : (f h).tag = h.tag := congrArg Prod.fst (keeps h)

section
variable (tag : Nat) (s : State)

theorem pace_of_quiet {t : State} (h : t.quiet = s.quiet) : t.pace tag = s.pace tag := by
  rw [State.rest_of h]
  rfl

@[simp] theorem ite_pace (c : Prop) [Decidable c] (a b : State) : (if c then a else b).pace tag = if c then a.pace tag else b.pace tag := by
  split <;> rfl

@[simp] theorem foldl_pace {α : Type} (f : State → α → State) (h : ∀ s x, (f s x).pace tag = s.pace tag) (l : List α) :
    (l.foldl f s).pace tag = s.pace tag := by
  induction l generalizing s with
  | nil => rfl
  | cons x xs ih => rw [List.foldl_cons, ih, h]

@[simp] theorem State.onStp_pace (f : StpBlk → StpBlk) : (s.onStp f).pace tag = s.pace tag := (rfl)
@[simp] theorem State.onPly_pace (f : PlyBlk → PlyBlk) : (s.onPly f).pace tag = s.pace tag := (rfl)
@[simp] theorem State.onJob_pace (f : JobBlk → JobBlk) : (s.onJob f).pace tag = s.pace tag := (rfl)
@[simp] theorem raise_pace (c : Half) (p : List Nat) : (raise c p s).pace tag = s.pace tag := (rfl)
@[simp] theorem raiseIf_pace (b : Bool) (c : Half) (p : List Nat) : (raiseIf b c p s).pace tag = s.pace tag := by cases b <;> rfl
@[simp] theorem count_pace (b k n : Nat) : (count b k n s).pace tag = s.pace tag := (rfl)
@[simp] theorem countEvt_pace (k : Nat) : (countEvt k s).pace tag = s.pace tag := (rfl)
@[simp] theorem countErr_pace (k : Nat) : (countErr k s).pace tag = s.pace tag := (rfl)
@[simp] theorem faultNow_pace : (faultNow s).pace tag = s.pace tag := (rfl)
@[simp] theorem noteError_pace (addr kind : Nat) (byScrub : Bool) (cls symbol : Nat) :
    (noteError addr kind byScrub cls symbol s).pace tag = s.pace tag := (rfl)
@[simp] theorem sendUnicast_pace (f : Frame) : (sendUnicast f s).pace tag = s.pace tag := pace_of_quiet tag s (sendUnicast_quiet f s)
@[simp] theorem broadcast_pace (f : Frame) : (broadcast f s).pace tag = s.pace tag := pace_of_quiet tag s (broadcast_quiet f s)
@[simp] theorem dropRevoked_pace (b e : Nat) : (dropRevoked b e s).pace tag = s.pace tag := pace_of_quiet tag s (dropRevoked_quiet b e s)
@[simp] theorem sendOn_pace (p : Option PortIx) (f : Frame) : (sendOn p f s).pace tag = s.pace tag := pace_of_quiet tag s (sendOn_quiet p f s)
@[simp] theorem arrived_pace (r : Rx) : (arrived r s).pace tag = s.pace tag := pace_of_quiet tag s (arrived_quiet r s)

@[simp] theorem State.onHank_pace (g : Nat) (f : HankRt → HankRt) (keeps : ∀ h, (f h).pace = h.pace) : (s.onHank g f).pace tag = s.pace tag := by
  by_cases same : tag = g
  · subst same
    have pace : HankRt.pace ∘ f = HankRt.pace := funext keeps
    simp only [State.pace, State.hank_onHank (tag_of_pace keeps), Option.map_map, pace]
    rfl
  · simp only [State.pace, State.hank_onHank_ne (tag_of_pace keeps) same]
    rfl

theorem find?_map_tag (f : HankRt → HankRt) (keeps : ∀ h, (f h).tag = h.tag) (l : List HankRt) :
    (l.map f).find? (fun h => h.tag == tag) = (l.find? fun h => h.tag == tag).map f := by
  rw [List.find?_map]
  simp only [Function.comp_def, keeps]

/-- A notice abandons hanks and leaves their attempt and scale. -/
@[simp] theorem holdSkip_pace : (holdSkip s).pace tag = s.pace tag := by
  have hanks : (holdSkip s).hank tag =
      (s.hank tag).map fun h => if h.st == .delivered || h.st == .nonfinite then h else { h with st := .abandoned, held := [] } :=
    find?_map_tag tag _ (fun h => by split <;> rfl) s.reel.hanks
  have pace : (HankRt.pace ∘ fun h : HankRt => if h.st == .delivered || h.st == .nonfinite then h else { h with st := .abandoned, held := [] }) =
      HankRt.pace := funext fun h => by dsimp only [Function.comp]; split <;> rfl
  simp only [State.pace, hanks, Option.map_map, pace]
  rfl
@[simp] theorem managerNotice_pace : (managerNotice s).pace tag = s.pace tag := by simp [managerNotice]
@[simp] theorem noteNonfinite_pace : (noteNonfinite s).pace tag = s.pace tag := by
  unfold noteNonfinite
  dsimp only
  (repeat' split) <;> simp

@[simp] theorem sendReel_pace (marker : BitVec 4) (role par dest : Nat) (h : RHdr) (body : List Word) :
    (sendReel marker role par dest h body s).pace tag = s.pace tag := by simp [sendReel]
@[simp] theorem distribute_pace (marker : BitVec 4) (owner : Nat) (h : RHdr) (body : List Word) :
    (distribute marker owner h body s).pace tag = s.pace tag := by simp [distribute]
@[simp] theorem readSources_pace (g : Nat) (c : Contribution) : (readSources g c s).pace tag = s.pace tag := by
  unfold readSources
  split
  · exact foldl_pace tag _ _ (fun t w => by simp) _
  · rfl
@[simp] theorem readRetained_pace (h : HankRt) : (readRetained h s).pace tag = s.pace tag := by simp [readRetained]
@[simp] theorem countClips_pace (g : Nat) (c : Contribution) : (countClips g c s).pace tag = s.pace tag := by
  unfold countClips
  split
  · rfl
  · simp
@[simp] theorem forwardPartial_pace (g : Nat) (h : HankRt) (second : Bool) (tile seg contributors : Nat) (c : Checked) :
    (forwardPartial g h second tile seg contributors c s).pace tag = s.pace tag := by
  unfold forwardPartial
  split <;> simp
@[simp] theorem finishAdder_pace (g : Nat) (second : Bool) (tile seg : Nat) : (finishAdder g second tile seg s).pace tag = s.pace tag := by
  unfold finishAdder
  (repeat' split) <;> simp
@[simp] theorem enterTile_pace (g : Nat) (second : Bool) (tile : Nat) : (enterTile g second tile s).pace tag = s.pace tag := by
  refine foldl_pace tag _ _ (fun t seg => ?_) _
  split <;> simp
@[simp] theorem enterHank_pace (g : Nat) (second : Bool) : (enterHank g second s).pace tag = s.pace tag := by
  unfold enterHank
  split <;> simp
@[simp] theorem comparePaths_pace (p : Hank) (h : HankRt) : (comparePaths p h s).pace tag = s.pace tag := by
  unfold comparePaths
  dsimp only
  split <;> simp [capture]
@[simp] theorem abandonShard_pace (g : Nat) : (abandonShard g s).pace tag = s.pace tag := (rfl)
@[simp] theorem hankProgress_pace (g : Nat) : (hankProgress g s).pace tag = s.pace tag := by
  unfold hankProgress
  (repeat' split) <;> simp
@[simp] theorem secondPath_pace (g : Nat) (was : HankSt) : (secondPath g was s).pace tag = s.pace tag := by
  unfold secondPath
  split <;> simp
@[simp] theorem advanceHank_pace (g : Nat) : (advanceHank g s).pace tag = s.pace tag := by unfold advanceHank; split <;> simp
@[simp] theorem openHank_pace (g : Nat) : (openHank g s).pace tag = s.pace tag :=
  State.onHank_pace tag s g _ fun h => by split <;> rfl
@[simp] theorem markHank_pace (g : Nat) : (markHank g s).pace tag = s.pace tag := by simp [markHank]

end

/-- A hank as a restart leaves it (R233). -/
def HankRt.restarted (h : HankRt) : HankRt :=
  { h with adders := [], delivered := [], hs := nextHs h.hs, attempt := h.attempt + 1, st := if h.agreed then .first else h.st
           sat := false, compared := false }

/-- After the restart itself, nothing on the way changes the attempt or the scale again. -/
theorem restartHank_pace (tag g : Nat) (s : State) : (restartHank g s).pace tag = (s.onHank g HankRt.restarted).pace tag := by
  have unfolded : restartHank g s = match (countEvt kRestarts (s.onHank g HankRt.restarted)).hank g with
      | none => countEvt kRestarts (s.onHank g HankRt.restarted)
      | some h =>
        let s2 := (h.contribs.filter fun c => c.exec == s.stp.exec).foldl (fun t c => countClips g c t)
          (readRetained h (countEvt kRestarts (s.onHank g HankRt.restarted)))
        if reelOpen s2 then advanceHank g (enterHank g false s2) else s2 := rfl
  rw [unfolded]
  split <;> simp

section
variable {tag : Nat} {s : State}

theorem restartHank_pace_ne {g : Nat} (other : tag ≠ g) : (restartHank g s).pace tag = s.pace tag := by
  rw [restartHank_pace]
  simp only [State.pace, State.hank_onHank_ne (f := HankRt.restarted) (fun _ => rfl) other]
  rfl

theorem ownerRescale_pace_ne {g : Nat} (other : tag ≠ g) (attempt detector : Nat) : (ownerRescale g attempt detector s).pace tag = s.pace tag := by
  unfold ownerRescale
  split
  · rfl
  · simp [restartHank_pace_ne other]

/-- A path ends at the owner alone. -/
theorem owner_of_routeOut_none {owner me : Nat} {second : Bool} (ends : routeOut s owner me second = none) : owner = me := by
  unfold routeOut at ends
  dsimp only at ends
  split at ends
  · rename_i same
    exact (beq_iff_eq.1 same).symm
  · (repeat' split at ends) <;> simp at ends

theorem askRescale_pace (worker : ownerOf s tag ≠ rankOf s) (g : Nat) : (askRescale g s).pace tag = s.pace tag := by
  unfold askRescale
  split
  · rfl
  · split
    · dsimp only
      split
      · rename_i ends
        have other : tag ≠ g := fun same => worker (same ▸ owner_of_routeOut_none ends)
        simp [ownerRescale_pace_ne other]
      · simp
    · rfl

theorem worker_of_pace {t : State} (pace : t.pace tag = s.pace tag) (worker : ownerOf s tag ≠ rankOf s) : ownerOf t tag ≠ rankOf t := by
  have warp : t.warp = s.warp := congrArg Prod.fst pace
  rwa [ownerOf_of_warp warp, rankOf_of_warp warp]

theorem settleHank_pace (worker : ownerOf s tag ≠ rankOf s) (g : Nat) : (settleHank g s).pace tag = s.pace tag := by
  have advanced := advanceHank_pace tag s g
  have asked := (askRescale_pace (worker_of_pace advanced worker) g).trans advanced
  exact (askRescale_pace (worker_of_pace asked worker) g).trans asked

theorem useSegment_pace (worker : ownerOf s tag ≠ rankOf s) (h : RHdr) (ws : List Word) : (useSegment h ws s).pace tag = s.pace tag := by
  unfold useSegment
  dsimp only
  refine (settleHank_pace (worker_of_pace (s := s) ?_ worker) _).trans ?_ <;> simp

theorem takeSegment_pace (worker : ownerOf s tag ≠ rankOf s) (r : Rx) : (takeSegment r s).pace tag = s.pace tag := by
  unfold takeSegment
  dsimp only
  split
  · rfl
  · simp [useSegment_pace worker, reelInvalid]

theorem releaseSegments_pace (worker : ownerOf s tag ≠ rankOf s) (g : Nat) : (releaseSegments g s).pace tag = s.pace tag := by
  unfold releaseSegments
  split
  · rfl
  · rename_i h _
    have emptied : (s.onHank g fun x => { x with held := [] }).pace tag = s.pace tag := by simp
    refine Eq.trans ?_ emptied
    generalize (s.onHank g fun x => { x with held := [] }) = u at emptied ⊢
    have away := worker_of_pace emptied worker
    clear emptied
    induction h.held generalizing u with
    | nil => rfl
    | cons r rs ih =>
      have taken := takeSegment_pace away r
      exact (ih _ (worker_of_pace taken away)).trans taken

theorem hank_of_pace {t : State} {x : HankRt} (pace : t.pace tag = s.pace tag) (hank : s.hank tag = some x) :
    ∃ y, t.hank tag = some y ∧ y.attempt = x.attempt ∧ y.hs = x.hs := by
  have same : (t.hank tag).map HankRt.pace = some x.pace := (congrArg Prod.snd pace).trans (by simp [State.pace, hank])
  obtain ⟨y, found, paced⟩ := Option.map_eq_some_iff.1 same
  exact ⟨y, found, congrArg (·.2.1) paced, congrArg (·.2.2) paced⟩

end

-- RESCALE.

/-- An order of the owner for the present attempt restarts the hank on every other device: one attempt and four steps of scale more. -/
theorem onRescale_restarts {s : State} {rx : Rx} {h : RHdr} {x : HankRt} (hdr : h = readRHdr rx.frame.payload) (hank : s.hank h.tag = some x)
    (order : h.source = ownerOf s h.tag) (worker : ownerOf s h.tag ≠ rankOf s) (current : h.attempt = x.attempt)
    (free : s.stp.skipHeld = false) (live : x.st ≠ .abandoned) :
    ∃ y, (onRescale rx s).hank h.tag = some y ∧ y.attempt = x.attempt + 1 ∧ y.hs = min (x.hs + 4) 128 := by
  subst hdr
  have sent := distribute_pace (readRHdr rx.frame.payload).tag s 5 (ownerOf s (readRHdr rx.frame.payload).tag) (readRHdr rx.frame.payload)
    (rx.frame.payload.drop 8)
  have runs : onRescale rx s = releaseSegments (readRHdr rx.frame.payload).tag (settleHank (readRHdr rx.frame.payload).tag
      (restartHank (readRHdr rx.frame.payload).tag (distribute 5 (ownerOf s (readRHdr rx.frame.payload).tag) (readRHdr rx.frame.payload)
        (rx.frame.payload.drop 8) s))) := by
    simp only [onRescale, order, beq_self_eq_true, if_true, hank]
    exact if_pos (by simp [current, free, live])
  rw [runs]
  generalize distribute 5 (ownerOf s (readRHdr rx.frame.payload).tag) (readRHdr rx.frame.payload) (rx.frame.payload.drop 8) s = u at sent ⊢
  obtain ⟨z, hankU, attempt, hs⟩ := hank_of_pace sent hank
  have away := worker_of_pace sent worker
  have restarted := restartHank_pace (readRHdr rx.frame.payload).tag (readRHdr rx.frame.payload).tag u
  have away' : ownerOf (restartHank (readRHdr rx.frame.payload).tag u) (readRHdr rx.frame.payload).tag ≠
      rankOf (restartHank (readRHdr rx.frame.payload).tag u) := worker_of_pace restarted away
  have settled := settleHank_pace away' (readRHdr rx.frame.payload).tag
  have released := releaseSegments_pace (worker_of_pace settled away') (readRHdr rx.frame.payload).tag
  obtain ⟨y, found, attempt', hs'⟩ := hank_of_pace (released.trans (settled.trans restarted))
    (State.hank_onHank_some (f := HankRt.restarted) (fun _ => rfl) hankU)
  exact ⟨y, found, by rw [attempt', ← attempt]; rfl, by rw [hs', ← hs]; rfl⟩

-- The agreement of a scale (R228).

theorem wordAt_drop (ws : List Word) (n i : Nat) : wordAt (ws.drop n) i = wordAt ws (n + i) := by
  simp [wordAt, List.getD]

theorem rhoAt_body (ws : List Word) (i : Nat) :
    rhoAt (ws.drop 8) i = signed 16 (wfield (wordAt ws (9 + i / 2)) (16 * (i % 2) + 15) (16 * (i % 2))) := by
  rw [rhoAt, wordAt_drop, ← Nat.add_assoc]

theorem hank_of_quiet {s t : State} (quiet : t.quiet = s.quiet) (tag : Nat) : t.hank tag = s.hank tag := by
  rw [State.rest_of quiet]
  rfl

@[simp] theorem sendReel_quiet (marker : BitVec 4) (role par dest : Nat) (h : RHdr) (body : List Word) (s : State) :
    (sendReel marker role par dest h body s).quiet = s.quiet := by simp [sendReel]

@[simp] theorem passOn_quiet (r : Rx) (s : State) : (passOn r s).quiet = s.quiet := by simp [passOn]

/-- The hank with the agreed ρ, as the running execution takes it. -/
def HankRt.agrees (s : State) (rho : Int) (h : HankRt) : HankRt :=
  if s.stp.running && !h.agreed then
    { h with rho := rho, agreed := true, hs := hsAfter h.attempt (startHs rho s.num.e)
             st := if h.st == .awaitScale then (if h.adders.isEmpty then .idle else .first) else h.st }
  else { h with rho := rho, agreed := true }

theorem HankRt.agrees_rho (s : State) (rho : Int) (h : HankRt) :
    (h.agrees s rho).tag = h.tag ∧ (h.agrees s rho).agreed = true ∧ (h.agrees s rho).rho = rho := by
  unfold HankRt.agrees
  split <;> exact ⟨rfl, rfl, rfl⟩

theorem hank_agreeScale {tag : Nat} {rho : Int} {s : State} {x : HankRt} (hank : s.hank tag = some x) :
    (agreeScale tag rho s).hank tag = some (x.agrees s rho) :=
  State.hank_onHank_some (fun h => (h.agrees_rho s rho).1) hank

theorem hank_agreeScale_ne {tag g : Nat} {rho : Int} {s : State} (other : g ≠ tag) : (agreeScale tag rho s).hank g = s.hank g :=
  State.hank_onHank_ne (fun h => (h.agrees_rho s rho).1) other

/-- A table of scales agrees every hank that it carries. -/
theorem foldl_agreeScale (tag : Nat) (rho : Nat → Int) (n : Nat) (s : State) :
    (∀ i, i < n → ∀ x, s.hank (tag + i) = some x → ∃ y, ((List.range n).foldl (fun t i => agreeScale (tag + i) (rho i) t) s).hank (tag + i) = some y ∧
      y.agreed = true ∧ y.rho = rho i) ∧
    ∀ i, n ≤ i → ((List.range n).foldl (fun t i => agreeScale (tag + i) (rho i) t) s).hank (tag + i) = s.hank (tag + i) := by
  induction n with
  | zero => exact ⟨fun i none => absurd none (Nat.not_lt_zero i), fun _ _ => rfl⟩
  | succ n ih =>
    rw [List.range_succ, List.foldl_append, List.foldl_cons, List.foldl_nil]
    refine ⟨fun i below x hank => ?_, fun i above => ?_⟩
    · rcases Nat.lt_succ_iff_lt_or_eq.1 below with below | rfl
      · rw [hank_agreeScale_ne (by omega)]
        exact ih.1 i below x hank
      · exact ⟨_, hank_agreeScale ((ih.2 i (Nat.le_refl i)).trans hank), (HankRt.agrees_rho ..).2⟩
    · rw [hank_agreeScale_ne (by omega)]
      exact ih.2 i (by omega)

theorem tableValid_of_warp {s t : State} (warp : t.warp = s.warp) (ws : List Word) : tableValid t ws = tableValid s ws := by
  unfold tableValid
  simp only [findHank_of_warp warp, ownerOf_of_warp warp]

theorem onAgreed_agrees {s : State} {rx : Rx} {h : RHdr} (hdr : h = readRHdr rx.frame.payload) (valid : tableValid s rx.frame.payload = true)
    (i : Nat) (carried : i < (wordAt rx.frame.payload 8).toNat) (x : HankRt) (hank : s.hank (h.tag + i) = some x) :
    ∃ y, (onAgreed rx s).hank (h.tag + i) = some y ∧ y.agreed = true ∧
      y.rho = signed 16 (wfield (wordAt rx.frame.payload (9 + i / 2)) (16 * (i % 2) + 15) (16 * (i % 2))) := by
  subst hdr
  simp only [onAgreed, valid, if_true]
  rw [← rhoAt_body]
  exact (foldl_agreeScale _ (rhoAt (rx.frame.payload.drop 8)) _ _).1 i carried x ((hank_of_quiet (passOn_quiet rx s) _).trans hank)

theorem tryAgree_waits {s : State} {tag : Nat} {h : HankRt} (hank : s.hank tag = some h)
    (lacks : h.proposals.length < 1 + (routeIn s (ownerOf s tag) (rankOf s) false).length) : tryAgree tag s = s := by
  simp only [tryAgree, hank]
  cases proposals : h.proposals with
  | nil => rfl
  | cons p ps => exact if_pos (by rwa [proposals] at lacks)

/-- A hank with one more proposal gathered. -/
def HankRt.gathers (source : Nat) (rho : Int) (h : HankRt) : HankRt :=
  if h.proposals.any fun q => q.1 == source then h else { h with proposals := h.proposals ++ [(source, rho)] }

theorem HankRt.gathers_tag (source : Nat) (rho : Int) (h : HankRt) : (h.gathers source rho).tag = h.tag := by
  unfold HankRt.gathers
  split <;> rfl

/-- The first proposal of a hank is kept while the device's own, at least, lacks. -/
theorem addProposal_first {s : State} {tag source : Nat} {rho : Int} {x : HankRt} (hank : s.hank tag = some x) (none : x.proposals = [])
    (more : 0 < (routeIn s (ownerOf s tag) (rankOf s) false).length) :
    (addProposal tag source rho s).hank tag = some { x with proposals := [(source, rho)] } ∧
      ∀ g, g ≠ tag → (addProposal tag source rho s).hank g = s.hank g := by
  have first : x.gathers source rho = { x with proposals := [(source, rho)] } := by simp [HankRt.gathers, none]
  have gathered : (s.onHank tag (HankRt.gathers source rho)).hank tag = some { x with proposals := [(source, rho)] } :=
    first ▸ State.hank_onHank_some (HankRt.gathers_tag source rho) hank
  have waits : addProposal tag source rho s = s.onHank tag (HankRt.gathers source rho) := by
    have warp : (s.onHank tag (HankRt.gathers source rho)).warp = s.warp := rfl
    refine tryAgree_waits gathered (Nat.lt_add_of_pos_right ?_)
    change 0 < (routeIn (s.onHank tag (HankRt.gathers source rho)) _ _ false).length
    rw [routeIn_of_warp warp]
    exact more
  rw [waits]
  exact ⟨gathered, fun g other => State.hank_onHank_ne (HankRt.gathers_tag source rho) other⟩

theorem onProposal_kept {s : State} {rx : Rx} {h : RHdr} {x : HankRt} (hdr : h = readRHdr rx.frame.payload)
    (valid : tableValid s rx.frame.payload = true) (one : (wordAt rx.frame.payload 8).toNat = 1)
    (route : ∃ p ∈ routeIn s (ownerOf s h.tag) (rankOf s) false, p.1 = h.source) (hank : s.hank h.tag = some x) (none : x.proposals = []) :
    (onProposal rx s).hank h.tag = some { x with proposals := [(h.source, signed 16 (wfield (wordAt rx.frame.payload 9) 15 0))] } ∧
      ∀ g, g ≠ h.tag → (onProposal rx s).hank g = s.hank g := by
  subst hdr
  obtain ⟨p, member, source⟩ := route
  have fromRoute : (routeIn s (ownerOf s (readRHdr rx.frame.payload).tag) (rankOf s) false).any
      (fun p => p.1 == (readRHdr rx.frame.payload).source) = true := List.any_eq_true.2 ⟨p, member, by simpa using source⟩
  have runs : onProposal rx s = addProposal (readRHdr rx.frame.payload).tag (readRHdr rx.frame.payload).source
      (rhoAt (rx.frame.payload.drop 8) 0) s := by
    simp only [onProposal, valid, fromRoute, Bool.and_self, if_true, one]
    rfl
  rw [runs, rhoAt_body]
  exact addProposal_first hank none (List.length_pos_of_mem member)

-- The rows.

theorem type_of_reelOf {rx : Rx} {n : Nat} (type : reelOf n rx = true) : (readRHdr rx.frame.payload).type = n :=
  beq_iff_eq.1 (Bool.and_eq_true_iff.1 type).2

/-- A valid frame of the row HANK_SEGMENT is a hank segment: the reserved types fail the checks of R253. -/
theorem segment_type {s : State} {rx : Rx} (frame : segmentFrame rx = true) (valid : reelValid s rx.frame.payload = true) :
    (readRHdr rx.frame.payload).type = 1 := by
  have types : msgType rx = 1 ∨ msgType rx = 0 ∨ 10 < msgType rx := by
    simpa [or_assoc] using (Bool.and_eq_true_iff.1 frame).2
  have known : 1 ≤ (readRHdr rx.frame.payload).type ∧ (readRHdr rx.frame.payload).type ≤ 10 := by
    simp only [reelValid, Bool.and_eq_true, decide_eq_true_eq] at valid
    exact valid.1.1.1.1.1.1.1
  have same : (readRHdr rx.frame.payload).type = msgType rx := rfl
  omega

/-- A valid message runs its handler on the state its arrival leaves; then come new factors and the notes of phases. -/
theorem reelRow_runs {s : State} {rx : Rx} {ok : Bool} (arrives : Arrives rx s) (valid : reelValid s rx.frame.payload = true) (shaped : ok = true)
    (reel : rx.frame.ftype = ftReel) {u : State} (work : reelWork rx (arrived rx s) = u) :
    reelRow ok rx s = .next (noteP (noteEnds (sendNewFactors (arrived rx s) u))) :=
  work ▸ reelRow_valid ok rx s arrives shaped reel valid

/-- Settles O41: each message runs its handler on the state that its arrival leaves, which holds every hank as before. -/
theorem hankReductionRows : Obligations.HankReductionRows := by
  intro rx s arrives valid h hdr
  have quiet := arrived_quiet rx s
  have warp := arrived_warp rx s
  refine ⟨fun frame x hank route wide length => ?_, fun type x hank order worker current free live => ?_, fun type table => ?_,
    fun type table one route x hank none => ?_⟩
  · have counted : (countEvt kSegIn (arrived rx s)).quiet = s.quiet := (countEvt_quiet _ _).trans quiet
    generalize act : countEvt kSegIn (arrived rx s) = a at counted
    have warpA : a.warp = s.warp := by rw [State.rest_of counted]
    have descA : a.stp.desc = s.stp.desc := by rw [State.rest_of counted]
    have reelA : a.reel = s.reel := by rw [State.rest_of counted]
    have hankA := fun g => hank_of_quiet counted g
    have run := reelRow_runs arrives valid frame (ftype_of_segmentFrame frame) (u := takeSegment rx a)
      (by rw [reelWork, segment_type frame valid, ← act]; rfl)
    obtain ⟨stale, early, used⟩ := takeSegment_cases hdr ((hankA h.tag).trans hank)
      (by rwa [routeIn_of_warp warpA, ownerOf_of_warp warpA, rankOf_of_warp warpA]) (by rwa [isExact_of_warp warpA]) length
    refine ⟨_, run, fun past => by rw [stale past, reelA], fun notAbandoned notNonfinite above => ?_,
      fun first same sat lacks new more unmarked => ?_⟩
    · obtain ⟨held, others⟩ := early notAbandoned notNonfinite above
      exact ⟨held, fun g other => (others g other).trans (hankA g)⟩
    · rw [used first same]
      obtain ⟨opened, others⟩ := useSegment_opens ((hankA h.tag).trans hank) first sat (fun p => by rw [findHank_of_warp warpA]; exact lacks p) new
        (by rwa [expectedOperands_of_warp warpA descA]) unmarked
      exact ⟨opened, fun g other => (others g other).trans (hankA g)⟩
  · have run := reelRow_runs arrives valid type (ftype_of_reelOf type) (u := onRescale rx (arrived rx s))
      (by rw [reelWork, type_of_reelOf type]; rfl)
    obtain ⟨y, found, attempt, hs⟩ := onRescale_restarts hdr ((hank_arrived rx s h.tag).trans hank) (by rwa [ownerOf_arrived])
      (by rwa [ownerOf_arrived, rankOf_arrived]) current (by rwa [arrived_stp]) live
    exact ⟨_, y, run, found, attempt, hs⟩
  · have run := reelRow_runs arrives valid type (ftype_of_reelOf type) (u := onAgreed rx (arrived rx s))
      (by rw [reelWork, type_of_reelOf type]; rfl)
    exact ⟨_, run, fun i carried x hank => onAgreed_agrees hdr ((tableValid_of_warp warp _).trans table) i carried x
      ((hank_arrived rx s _).trans hank)⟩
  · have run := reelRow_runs arrives valid type (ftype_of_reelOf type) (u := onProposal rx (arrived rx s))
      (by rw [reelWork, type_of_reelOf type]; rfl)
    obtain ⟨kept, others⟩ := onProposal_kept hdr ((tableValid_of_warp warp _).trans table) one
      (by rwa [routeIn_of_warp warp, ownerOf_of_warp warp, rankOf_of_warp warp]) ((hank_arrived rx s h.tag).trans hank) none
    exact ⟨_, run, kept, fun g other => (others g other).trans (hank_arrived rx s g)⟩

end Sys2Proof.Machine
end

section
/-! What the reel distributes (family 07): factors, parameters, leaves and blocks at their endpoints (R243, R250, R251, R342, R451 to R453). -/

namespace Sys2Proof.Machine

-- Records of the reel after a change of one.

theorem State.lowRank_onLowRank_some {s : State} {layer : Nat} {x : LowRankRt} {f : LowRankRt → LowRankRt}
    (keeps : ∀ y, (f y).layer = y.layer) (found : s.lowRank layer = some x) : (s.onLowRank layer f).lowRank layer = some (f x) :=
  (find?_updWhere (fun y : LowRankRt => y.layer == layer) f (fun y same => by rw [keeps]; exact same) s.reel.lowRank).trans
    (congrArg (Option.map f) found)

theorem State.param_onParam_some {s : State} {tag : Nat} {x : ParamRt} {f : ParamRt → ParamRt}
    (keeps : ∀ y, (f y).tag = y.tag) (found : s.param tag = some x) : (s.onParam tag f).param tag = some (f x) :=
  (find?_updWhere (fun y : ParamRt => y.tag == tag) f (fun y same => by rw [keeps]; exact same) s.reel.params).trans
    (congrArg (Option.map f) found)

theorem param_of_quiet {s t : State} (quiet : t.quiet = s.quiet) (tag : Nat) : t.param tag = s.param tag := by
  rw [State.rest_of quiet]
  rfl

theorem lowRank_of_quiet {s t : State} (quiet : t.quiet = s.quiet) (layer : Nat) : t.lowRank layer = s.lowRank layer := by
  rw [State.rest_of quiet]
  rfl

theorem rankOfLayer_of_warp {s t : State} (warp : t.warp = s.warp) (layer : Nat) : rankOfLayer t layer = rankOfLayer s layer := by
  unfold rankOfLayer hankPlan
  rw [warp]

-- FACTOR_RESULT (R243).

theorem takeFactor_q {s : State} {layer tile seg : Nat} {vals : List Word} {x : LowRankRt} (found : s.lowRank layer = some x)
    (new : x.gotQ.contains (tile, seg) = false) :
    takeFactor layer 2 tile seg vals s = s.onLowRank layer fun y =>
      { y with qNext := putPiece (rankOfLayer s layer) (tile / gridCols (rankOfLayer s layer) * 128 + 8 * seg)
                 (tile % gridCols (rankOfLayer s layer) * 128) vals y.qNext
               gotQ := (tile, seg) :: y.gotQ } := by
  simp only [takeFactor, found, beq_self_eq_true, if_true]
  exact if_neg (by simpa using new)

/-- A piece of Q that has not come before goes into the next Q of its layer. -/
theorem onFactor_q {s : State} {rx : Rx} {h : RHdr} {p : Hank} {x : LowRankRt} (hdr : h = readRHdr rx.frame.payload)
    (plan : findHank s h.tag = some p) (kind : p.kind = 2) (length : rx.frame.payload.length = 1032) (present : rx.frame.exec.toNat = s.stp.exec)
    (found : s.lowRank p.layer = some x) (new : x.gotQ.contains (h.tile, h.segment) = false) :
    ∃ y, (onFactor rx s).lowRank p.layer = some y ∧ y.gotQ = (h.tile, h.segment) :: x.gotQ ∧ y.q = x.q ∧
      y.qNext = putPiece (rankOfLayer s p.layer) (h.tile / gridCols (rankOfLayer s p.layer) * 128 + 8 * h.segment)
        (h.tile % gridCols (rankOfLayer s p.layer) * 128) (rx.frame.payload.drop 8) x.qNext := by
  subst hdr
  have quiet := passOn_quiet rx s
  have warp : (passOn rx s).warp = s.warp := by rw [State.rest_of quiet]
  have foundU := (lowRank_of_quiet quiet p.layer).trans found
  have runs : onFactor rx s = takeFactor p.layer 2 (readRHdr rx.frame.payload).tile (readRHdr rx.frame.payload).segment
      (rx.frame.payload.drop 8) (passOn rx s) := by
    simp [onFactor, plan, kind, length, present]
  rw [runs, takeFactor_q foundU new, rankOfLayer_of_warp warp]
  exact ⟨_, State.lowRank_onLowRank_some (fun _ => rfl) foundU, rfl, rfl, rfl⟩

-- PARAM_SEGMENT, PARAM_END and PARAM_RESEND (R250, R251).

@[simp] theorem placeSegment_param (p : Hank) (copy fmt tile seg : Nat) (bytes : List Byte) (s : State) (tag : Nat) :
    (placeSegment p copy fmt tile seg bytes s).param tag = s.param tag := by
  unfold placeSegment
  split
  · rfl
  · split <;> rfl

theorem placeSegment_skein {p : Hank} {l : Layer} {base : Nat} {s : State} (wide : p.kind ≠ 2) (layer : layerOf s p.layer = some l)
    (place : paramBase s p.layer = some base) (copy fmt tile seg : Nat) (bytes : List Byte) :
    (placeSegment p copy fmt tile seg bytes s).skein = writePlaces (segPlaces l fmt base copy tile seg) bytes s.skein := by
  simp only [placeSegment, beq_eq_false_iff_ne.2 wide, Bool.false_eq_true, if_false, layer, place]
  rfl

theorem onParamSegment_fits {s : State} {rx : Rx} {h : RHdr} {p : Hank} {x : ParamRt} {n : Nat} (hdr : h = readRHdr rx.frame.payload)
    (plan : findHank s h.tag = some p) (found : s.param h.tag = some x) (count : n = wfield (wordAt rx.frame.payload 8) 31 16) (small : n ≤ 4096)
    (length : rx.frame.payload.length = 9 + ceilDiv n 4)
    (fits : segmentFits s p (wfield (wordAt rx.frame.payload 8) 1 0) (wfield (wordAt rx.frame.payload 8) 7 4) h.tile h.segment n = true) :
    (onParamSegment rx s).param h.tag =
      some { x with bytes := x.bytes ++ (wordsBytes (rx.frame.payload.drop 9)).take n, waiting := true } ∧
    (∀ l base, p.kind ≠ 2 → layerOf s p.layer = some l → paramBase s p.layer = some base → (onParamSegment rx s).skein = writePlaces
      (segPlaces l (wfield (wordAt rx.frame.payload 8) 7 4) base (wfield (wordAt rx.frame.payload 8) 1 0) h.tile h.segment)
      ((wordsBytes (rx.frame.payload.drop 9)).take n) s.skein) := by
  subst hdr count
  have quiet := passOn_quiet rx s
  have runs : onParamSegment rx s = (placeSegment p (wfield (wordAt rx.frame.payload 8) 1 0) (wfield (wordAt rx.frame.payload 8) 7 4)
      (readRHdr rx.frame.payload).tile (readRHdr rx.frame.payload).segment
      ((wordsBytes (rx.frame.payload.drop 9)).take (wfield (wordAt rx.frame.payload 8) 31 16)) (passOn rx s)).onParam
        (readRHdr rx.frame.payload).tag fun x =>
          { x with bytes := x.bytes ++ (wordsBytes (rx.frame.payload.drop 9)).take (wfield (wordAt rx.frame.payload 8) 31 16), waiting := true } := by
    simp only [onParamSegment, plan]
    exact if_pos (by simp [small, length, fits])
  rw [runs]
  refine ⟨State.param_onParam_some (fun _ => rfl) ?_, fun l base wide layer place => ?_⟩
  · rw [placeSegment_param, param_of_quiet quiet]
    exact found
  · rw [State.rest_of quiet]
    exact placeSegment_skein (s := { s with rov := (passOn rx s).rov, tel := (passOn rx s).tel }) wide layer place ..

theorem askResend_param {s : State} {tag : Nat} {x : ParamRt} (found : s.param tag = some x) :
    (askResend tag s).param tag = some { x with bytes := [], ended := false, waiting := false } := by
  rw [askResend, requestResend, param_of_quiet (sendUnicast_quiet _ _), param_of_quiet (countEvt_quiet _ _)]
  exact State.param_onParam_some (fun _ => rfl) ((param_of_quiet (raise_quiet ..) tag).trans found)

/-- The parameters of a hank are resident once the hash agrees; otherwise they are asked for again. -/
theorem onParamEnd_cases {s : State} {rx : Rx} {h : RHdr} {x : ParamRt} (hdr : h = readRHdr rx.frame.payload)
    (length : rx.frame.payload.length = 18) (found : s.param h.tag = some x) :
    (bytesWords 8 (shake256 32 x.bytes) = rx.frame.payload.drop 10 →
      (onParamEnd rx s).param h.tag = some { x with bytes := [], ended := true, waiting := false }) ∧
    (bytesWords 8 (shake256 32 x.bytes) ≠ rx.frame.payload.drop 10 →
      (onParamEnd rx s).param h.tag = some { x with bytes := [], ended := false, waiting := false }) := by
  subst hdr
  have foundU := (param_of_quiet (passOn_quiet rx s) (readRHdr rx.frame.payload).tag).trans found
  have runs : onParamEnd rx s = if bytesWords 8 (shake256 32 x.bytes) == rx.frame.payload.drop 10 then
      (passOn rx s).onParam (readRHdr rx.frame.payload).tag fun y => { y with bytes := [], ended := true, waiting := false }
      else askResend (readRHdr rx.frame.payload).tag (passOn rx s) := by
    simp only [onParamEnd, length, beq_self_eq_true, if_true, foundU]
  rw [runs]
  refine ⟨fun agrees => ?_, fun differs => ?_⟩
  · rw [if_pos (by simpa using agrees)]
    exact State.param_onParam_some (fun _ => rfl) foundU
  · rw [if_neg (by simpa using differs)]
    exact askResend_param foundU

theorem onParamResend_owner {s : State} {rx : Rx} {h : RHdr} {p : Hank} (hdr : h = readRHdr rx.frame.payload) (plan : findHank s h.tag = some p)
    (owner : p.owner = rankOf s) : onParamResend rx s = emitHank p (raise 0x1307 [p.tag] (countEvt 0x400050 s)) := by
  subst hdr
  simp only [onParamResend, plan]
  exact if_pos (by simpa using owner)

-- PLY_LEAF and PLY_LEAF_QUERY (R452, R453).

/-- The leaf of a shard and step is held, or its step is complete. -/
def leafTaken (step tag : Nat) (leaf : List Byte) (s : State) : Prop := step < s.reel.leafStep ∨ leafHeld s step tag = some leaf

/-- The pair of one step keeps the leaves of later ones. -/
theorem find?_laterLeaf (step tag bound : Nat) (later : bound < step) (l : List LeafAt) :
    (l.filter fun x => decide (bound < x.step)).find? (fun x => x.step == step && x.tag == tag) =
      l.find? fun x => x.step == step && x.tag == tag := by
  rw [List.find?_filter]
  congr 1
  funext x
  exact Bool.eq_iff_iff.2 (by simp only [Bool.and_eq_true, decide_eq_true_eq, beq_iff_eq]; omega)

theorem formPairs_leafTaken {step tag : Nat} {leaf : List Byte} (n : Nat) {s : State} (taken : leafTaken step tag leaf s) :
    leafTaken step tag leaf (formPairs n s) := by
  induction n generalizing s with
  | zero => exact taken
  | succ n ih =>
    unfold formPairs
    dsimp only
    split
    case isFalse => exact taken
    case isTrue =>
      refine ih ?_
      rcases Nat.lt_or_ge s.reel.leafStep step with later | done
      · refine .inr ?_
        have held := taken.resolve_left (by omega)
        unfold leafHeld at held ⊢
        exact (congrArg _ (find?_laterLeaf step tag s.reel.leafStep later s.reel.leaves)).trans held
      · exact .inl (Nat.lt_succ_of_le done)

theorem holdLeaf_taken {step tag : Nat} {leaf : List Byte} {s : State} (new : leafHeld s step tag = none) :
    leafTaken step tag leaf (holdLeaf step tag leaf s) := by
  refine formPairs_leafTaken _ (.inr ?_)
  have none : s.reel.leaves.find? (fun x => x.step == step && x.tag == tag) = none := Option.map_eq_none_iff.1 new
  simp [leafHeld, List.find?_append, none]

theorem passLeaf_leaves (r : Rx) (step tag : Nat) (s : State) :
    (passLeaf r step tag s).reel.leaves = s.reel.leaves ∧ (passLeaf r step tag s).reel.leafStep = s.reel.leafStep := by
  unfold passLeaf
  dsimp only
  split
  · rw [State.rest_of (passOn_quiet r s)]
    exact ⟨rfl, rfl⟩
  · exact ⟨rfl, rfl⟩

theorem onLeaf_new {s : State} {rx : Rx} {h : RHdr} (hdr : h = readRHdr rx.frame.payload) (length : rx.frame.payload.length = 18)
    (due : s.reel.leafStep ≤ readStep rx.frame.payload 8) (new : leafHeld s (readStep rx.frame.payload 8) h.tag = none) :
    leafTaken (readStep rx.frame.payload 8) h.tag (wordsBytes (rx.frame.payload.drop 10)) (onLeaf rx s) := by
  subst hdr
  have runs : onLeaf rx s = holdLeaf (readStep rx.frame.payload 8) (readRHdr rx.frame.payload).tag (wordsBytes (rx.frame.payload.drop 10))
      (passLeaf rx (readStep rx.frame.payload 8) (readRHdr rx.frame.payload).tag s) := by
    have fresh : ¬(decide (readStep rx.frame.payload 8 < s.reel.leafStep) ||
        (leafHeld s (readStep rx.frame.payload 8) (readRHdr rx.frame.payload).tag).isSome) = true := by
      rw [new]
      simpa using due
    exact (if_neg (by simp [length])).trans (if_neg fresh)
  rw [runs]
  refine holdLeaf_taken ?_
  rw [leafHeld, (passLeaf_leaves ..).1]
  exact new

-- KV_BLOCK (R213, R342).

/-- A block that the prefix names holds a piece at the prefix's offset. -/
def pieceHeld (k : KvHdr) (s : State) : Prop := ∃ b ∈ s.reel.kv, b.is k = true ∧ ∃ q ∈ b.pieces, q.1 = k.offset

@[simp] theorem sendBlock_quiet (k : KvHdr) (n : Nat) (bs : List Byte) (s : State) : (sendBlock k n bs s).quiet = s.quiet := by
  induction n generalizing k bs s with
  | zero => rfl
  | succ n ih => unfold sendBlock; dsimp only; split <;> simp [ih]

@[simp] theorem ringOut_quiet (k : KvHdr) (bs : List Byte) (s : State) : (ringOut k bs s).quiet = s.quiet := by
  unfold ringOut
  split <;> simp

/-- Delivery marks blocks and keeps what they hold. -/
theorem kvDeliver_pieceHeld {k : KvHdr} (n : Nat) {s : State} (held : pieceHeld k s) : pieceHeld k (kvDeliver n s) := by
  induction n generalizing s with
  | zero => exact held
  | succ n ih =>
    unfold kvDeliver
    split
    · exact held
    · rename_i b _
      dsimp only
      refine ih ?_
      obtain ⟨x, member, named, piece⟩ := held
      have marked : pieceHeld k (s.onReel fun r => { r with kv := r.kv.map fun x => if x == b then { x with delivered := true } else x }) := by
        refine ⟨_, List.mem_map_of_mem member, ?_⟩
        split
        · exact ⟨named, piece⟩
        · exact ⟨named, piece⟩
      split
      · rw [pieceHeld, State.rest_of (ringOut_quiet ..)]
        exact marked
      · exact marked

theorem addPiece_holds (piece : Nat × List Byte) (x : KvBlockRt) : ∃ q ∈ (addPiece piece x).pieces, q.1 = piece.1 := by
  unfold addPiece
  split
  · rename_i has
    obtain ⟨q, member, same⟩ := List.any_eq_true.1 has
    exact ⟨q, member, by simpa using same⟩
  · exact ⟨piece, List.mem_append_right _ (.head _), rfl⟩

theorem addPiece_is (piece : Nat × List Byte) (x : KvBlockRt) (k : KvHdr) : (addPiece piece x).is k = x.is k := by
  unfold addPiece
  split <;> rfl

/-- What a frame brings stands in the buffer of its block, opened where it was not. -/
theorem onKv_pieceHeld (rx : Rx) (s : State) : pieceHeld (readKv rx.frame.payload) (onKv rx s) := by
  refine kvDeliver_pieceHeld _ ?_
  unfold pieceHeld
  simp only [State.onReel_reel]
  split
  · rename_i opened
    obtain ⟨x, member, named⟩ := List.any_eq_true.1 opened
    refine ⟨_, List.mem_map_of_mem member, ?_⟩
    rw [if_pos named, addPiece_is]
    exact ⟨named, addPiece_holds (_, _) x⟩
  · exact ⟨_, List.mem_append_right _ (.head _), by simp [KvBlockRt.is], _, .head _, rfl⟩

theorem kvBlock_runs {s : State} {rx : Rx} (arrives : Arrives rx s) (frame : frameOf 0x11 rx = true) (shaped : kvShaped rx.frame.payload = true) :
    exec (.kvBlock rx) s = .next (onKv rx (arrived rx s)) := by
  refine (reelRow_arrives arrives frame).trans (next_eq ?_)
  unfold onReelFrame
  rw [if_pos (by rw [ftype_of_frameOf frame]; rfl), if_pos shaped]

-- The rows.

/-- What arrival leaves of the conditions on a segment: it changes ports and telemetry only. -/
theorem segmentFits_of_quiet {s t : State} (quiet : t.quiet = s.quiet) : segmentFits t = segmentFits s := by
  rw [State.rest_of quiet]
  rfl

theorem layerOf_of_warp {s t : State} (warp : t.warp = s.warp) (l : Nat) : layerOf t l = layerOf s l := by unfold layerOf; rw [warp]
theorem paramBase_of_warp {s t : State} (warp : t.warp = s.warp) (l : Nat) : paramBase t l = paramBase s l := by unfold paramBase; rw [warp]

/-- The answer to a query: the leaf to the asking device alone, where the owner has it. -/
theorem onLeafQuery_answers {s t : State} (quiet : t.quiet = s.quiet) {rx : Rx} {h : RHdr} (hdr : h = readRHdr rx.frame.payload) :
    (∀ x, s.reel.own.find? (fun x => x.step == readStep rx.frame.payload 8 && x.tag == h.tag) = some x →
      onLeafQuery rx t = sendUnicast (mkFrame 0x10 2 2 h.tag h.source (rankOf s) s.stp.exec (leafMsg s h.tag x.step x.leaf).1.batch
        ((leafMsg s h.tag x.step x.leaf).1.words ++ (leafMsg s h.tag x.step x.leaf).2)) t) ∧
    (s.reel.own.find? (fun x => x.step == readStep rx.frame.payload 8 && x.tag == h.tag) = none → onLeafQuery rx t = t) := by
  subst hdr
  rw [State.rest_of quiet]
  refine ⟨fun x own => ?_, fun none => ?_⟩ <;> simp only [onLeafQuery]
  · rw [own]
    rfl
  · rw [none]

/-- Settles O42: each message runs its handler on the state that its arrival leaves, which differs from the state before in ports and
telemetry alone. -/
theorem reelDistributionRows : Obligations.ReelDistributionRows := by
  intro rx s arrives h hdr
  have quiet := arrived_quiet rx s
  have warp := arrived_warp rx s
  refine ⟨fun valid => ⟨fun p x type plan kind length present found new => ?_, fun p x n type plan found count small length fits => ?_,
    fun x type length found => ?_, fun p type plan owner => ?_, fun type length due new => ?_, fun type => ?_⟩, fun frame shaped => ?_⟩
  · obtain ⟨y, factor⟩ := onFactor_q hdr ((findHank_arrived rx s _).trans plan) kind length (by rwa [arrived_stp])
      ((lowRank_arrived rx s _).trans found) new
    rw [rankOfLayer_of_warp warp] at factor
    exact ⟨_, y, reelRow_runs arrives valid type (ftype_of_reelOf type) (by rw [reelWork, type_of_reelOf type]; rfl), factor⟩
  · obtain ⟨param, skein⟩ := onParamSegment_fits hdr ((findHank_arrived rx s _).trans plan) ((param_arrived rx s _).trans found) count small length
      (by rwa [segmentFits_of_quiet quiet])
    refine ⟨_, reelRow_runs arrives valid type (ftype_of_reelOf type) (by rw [reelWork, type_of_reelOf type]; rfl), param,
      fun l base wide layer place => ?_⟩
    rw [skein l base wide ((layerOf_of_warp warp _).trans layer) ((paramBase_of_warp warp _).trans place), State.rest_of quiet, count]
  · exact ⟨_, reelRow_runs arrives valid type (ftype_of_reelOf type) (by rw [reelWork, type_of_reelOf type]; rfl),
      onParamEnd_cases hdr length ((param_arrived rx s _).trans found)⟩
  · exact reelRow_runs arrives valid type (ftype_of_reelOf type) (by
      rw [reelWork, type_of_reelOf type]
      exact onParamResend_owner hdr ((findHank_arrived rx s _).trans plan) (by rwa [rankOf_arrived]))
  · exact ⟨_, reelRow_runs arrives valid type (ftype_of_reelOf type) (by rw [reelWork, type_of_reelOf type]; rfl),
      onLeaf_new hdr length (by rwa [arrived_reel]) (by rwa [leafHeld, arrived_reel])⟩
  · exact ⟨_, reelRow_runs arrives valid type (ftype_of_reelOf type) (by rw [reelWork, type_of_reelOf type]; rfl),
      onLeafQuery_answers quiet hdr⟩
  · obtain ⟨b, member, named, piece⟩ := onKv_pieceHeld rx (arrived rx s)
    exact ⟨_, b, kvBlock_runs arrives frame shaped, member, named, piece⟩

end Sys2Proof.Machine
end

section
/-! The time limits of the reel and the start of a job without a checkpoint (family 07): a hank that is given up (R254), what is asked for
again (R254, R453), and the first weights of a job (R270). -/

namespace Sys2Proof.Machine

-- A hank given up (R254, R487).

/-- A hank after it is given up. -/
abbrev HankRt.givenUp (x : HankRt) : HankRt := { x with st := .abandoned, held := [] }

/-- The hank `p` is the other factor of the low-rank layer of the hank `tag`. -/
def factorMate (tag : Nat) (s : State) (p : Hank) : Bool :=
  match findHank s tag with
  | some q => q.kind != 0 && p.kind != 0 && p.layer == q.layer
  | none => false

/-- What `abandonHank` does for one hank of the plan. -/
def abandonOne (tag : Nat) (s t : State) (p : Hank) : State :=
  match t.hank p.tag with
  | some h =>
    if p.tag == tag || (factorMate tag s p && !h.st.over) then abandonShard p.tag (t.onHank p.tag HankRt.givenUp) else t
  | none => t

theorem abandonHank_eq (tag : Nat) (s : State) : abandonHank tag s = noteEnds ((hankPlan s).foldl (abandonOne tag s) s) := rfl

/-- The record `x` of the hank `tag` is given up, and so is its shard. -/
structure GivenUp (tag : Nat) (x : HankRt) (t : State) : Prop where
  hank : t.hank tag = some x.givenUp
  shards : ∀ y ∈ t.reel.shards, y.tag = tag → y.abandoned = true

section
variable {tag : Nat} {x : HankRt} {s t : State} {p : Hank}

/-- A shard after the hank `g` is given up: abandoned where it is the hank's, or one that was there. -/
theorem mem_abandonShard {g : Nat} {y : Shard} (mem : y ∈ (abandonShard g t).reel.shards) :
    y.abandoned = true ∨ y.tag ≠ g ∧ y ∈ t.reel.shards := by
  obtain ⟨z, memZ, eq⟩ := List.mem_map.mp mem
  split at eq
  next => exact .inl (eq ▸ rfl)
  next other => exact .inr (eq ▸ ⟨by simpa using other, memZ⟩)

theorem GivenUp.abandonShard {g : Nat} (h : GivenUp tag x t) : GivenUp tag x (abandonShard g t) where
  hank := h.hank
  shards y mem same := (mem_abandonShard mem).elim id fun known => h.shards y known.2 same

/-- The hank itself is given up, whether it is the first time or not. -/
theorem abandonOne_self (known : t.hank tag = some x ∨ GivenUp tag x t) (self : p.tag = tag) : GivenUp tag x (abandonOne tag s t p) := by
  subst self
  have twice : (t.onHank p.tag HankRt.givenUp).hank p.tag = some x.givenUp :=
    known.elim (State.hank_onHank_some fun _ => rfl) fun h =>
      State.hank_onHank_some (x := x.givenUp) (fun _ => rfl) h.hank
  have runs : abandonOne p.tag s t p = abandonShard p.tag (t.onHank p.tag HankRt.givenUp) := by
    obtain found | found := known.imp_right GivenUp.hank <;> simp [abandonOne, found]
  rw [runs]
  exact ⟨twice, fun y mem same => (mem_abandonShard mem).elim id fun known => absurd same known.1⟩

/-- Another hank of the plan leaves the record, and a shard that is given up stays so. -/
theorem abandonOne_other (other : tag ≠ p.tag) :
    (abandonOne tag s t p).hank tag = t.hank tag ∧ (GivenUp tag x t → GivenUp tag x (abandonOne tag s t p)) := by
  have stays : (t.onHank p.tag HankRt.givenUp).hank tag = t.hank tag := State.hank_onHank_ne (fun _ => rfl) other
  unfold abandonOne
  split
  · split
    · exact ⟨stays, fun h => GivenUp.abandonShard ⟨stays.trans h.hank, h.shards⟩⟩
    · exact ⟨rfl, id⟩
  · exact ⟨rfl, id⟩

theorem abandonOne_known (known : t.hank tag = some x ∨ GivenUp tag x t) :
    (abandonOne tag s t p).hank tag = some x ∨ GivenUp tag x (abandonOne tag s t p) := by
  by_cases self : p.tag = tag
  · exact .inr (abandonOne_self known self)
  · obtain ⟨hank, givenUp⟩ := abandonOne_other (x := x) (s := s) (t := t) (Ne.symm self)
    exact known.imp hank.trans givenUp

/-- Every hank of the plan is gone through, so a hank of the plan is given up. -/
theorem foldl_abandonOne (l : List Hank) (known : t.hank tag = some x ∨ GivenUp tag x t)
    (planned : GivenUp tag x t ∨ ∃ p ∈ l, p.tag = tag) : GivenUp tag x (l.foldl (abandonOne tag s) t) := by
  induction l generalizing t with
  | nil => exact planned.elim id fun ⟨_, mem, _⟩ => nomatch mem
  | cons p ps ih =>
    refine ih (abandonOne_known known) ?_
    by_cases self : p.tag = tag
    · exact .inl (abandonOne_self known self)
    · refine planned.imp (abandonOne_other (Ne.symm self)).2 fun ⟨q, mem, same⟩ => ⟨q, ?_, same⟩
      exact (List.mem_cons.mp mem).resolve_left fun h => self (h ▸ same)

theorem shard_abandonShard_ne {g : Nat} (other : g ≠ tag) : (abandonShard tag t).shard g = t.shard g :=
  find?_updWhere_ne (fun y : Shard => y.tag == tag) (fun y => y.tag == g) _ (fun y same => by
    have same : y.tag = tag := by simpa using same
    simp [same, Ne.symm other]) t.reel.shards

/-- A hank without a second factor takes no other hank with it (R487). -/
theorem foldl_abandonOne_dense (alone : ∀ p, factorMate tag s p = false) {g : Nat} (other : g ≠ tag) (l : List Hank) :
    (l.foldl (abandonOne tag s) t).hank g = t.hank g ∧ (l.foldl (abandonOne tag s) t).shard g = t.shard g := by
  induction l generalizing t with
  | nil => exact ⟨rfl, rfl⟩
  | cons p ps ih =>
    have one : (abandonOne tag s t p).hank g = t.hank g ∧ (abandonOne tag s t p).shard g = t.shard g := by
      unfold abandonOne
      split
      · split
        next chosen =>
          obtain rfl : p.tag = tag := by simpa [alone] using chosen
          exact ⟨State.hank_onHank_ne (fun _ => rfl) other, shard_abandonShard_ne other⟩
        · exact ⟨rfl, rfl⟩
      · exact ⟨rfl, rfl⟩
    exact ⟨ih.1.trans one.1, ih.2.trans one.2⟩

theorem foldl_abandonOne_rest (l : List Hank) : ∃ reel, l.foldl (abandonOne tag s) t = { t with reel := reel } := by
  refine List.foldlRecOn (motive := fun u => ∃ reel, u = { t with reel := reel }) l _ ⟨t.reel, rfl⟩ ?_
  rintro _ ⟨reel, rfl⟩ p -
  unfold abandonOne
  split
  · split <;> exact ⟨_, rfl⟩
  · exact ⟨_, rfl⟩

/-- A hank given up at a time limit: the fault is outstanding, the hank and its shard are abandoned, and a dense layer loses nothing else. -/
theorem abandonHank_timeout (code : Half) (payload : List Nat) (hank : s.hank tag = some x) (plan : findHank s tag = some p) :
    ∃ u, abandonHank tag (faultNow (raise code payload s)) = noteEnds u ∧ u.stp.fault = true ∧ u.hank tag = some x.givenUp ∧
      (∀ y ∈ u.reel.shards, y.tag = tag → y.abandoned = true) ∧
      (p.kind = 0 → ∀ g, g ≠ tag → u.hank g = s.hank g ∧ u.shard g = s.shard g) ∧
      u = { s with tel := u.tel, stp := u.stp, reel := u.reel } := by
  obtain ⟨reel, rest⟩ := foldl_abandonOne_rest (tag := tag) (s := faultNow (raise code payload s)) (t := faultNow (raise code payload s))
    (hankPlan (faultNow (raise code payload s)))
  have planned : ∃ q ∈ hankPlan (faultNow (raise code payload s)), q.tag = tag :=
    ⟨p, List.mem_of_find?_eq_some plan, by simpa using List.find?_some plan⟩
  obtain ⟨hankU, shards⟩ := foldl_abandonOne (s := faultNow (raise code payload s)) (t := faultNow (raise code payload s))
    (hankPlan (faultNow (raise code payload s))) (.inl hank) (.inr planned)
  refine ⟨_, abandonHank_eq tag _, by rw [rest]; rfl, hankU, shards, fun dense g other => ?_, by rw [rest]; rfl⟩
  have plan' : findHank (faultNow (raise code payload s)) tag = some p := plan
  exact foldl_abandonOne_dense (fun q => by simp [factorMate, plan', dense]) other _

end

-- The start of a job without a checkpoint (R270).

theorem engineError_reportsOnly (cls cluster : Nat) {err : Option UnitError} (noSkein : ∀ a x, err ≠ some (.skein a x)) (s : State) :
    ReportsOnly s (engineError cls cluster err s).1 := by
  have faulted (code : Half) (payload : List Nat) : ReportsOnly s (faultNow (raise code payload s)) :=
    (raise_reportsOnly code payload s).trans (faultWith_reportsOnly 1 _)
  unfold engineError
  split
  case h_1 | h_2 | h_3 => exact .refl s
  case h_4 | h_5 | h_7 => exact faulted ..
  case h_6 => exact pathParity_reportsOnly ..
  case h_8 => exact sramCorrected_reportsOnly ..
  case h_9 a x => exact absurd rfl (noSkein a x)

/-- The record of a shard as a job without a checkpoint starts it (R270). -/
def firstShard (s : State) (l : Layer) (p : Hank) : Shard :=
  ⟨p.tag, false, false, [], leafOf p.tag ((shardCoords l p).map fun c =>
    initValue (findStream s (streamId 2 2 2 l.id 0)) (streamKey (seedOf s) (streamId 2 2 2 l.id 0)) c.1 c.2), 0, 0⟩

section
variable {s t : State}

theorem clearHeader_reel (tag kind : Nat) : (clearHeader tag kind s).reel = s.reel := by
  unfold clearHeader
  split <;> rfl

theorem initShard_shards (l : Layer) (p : Hank) : (initShard l p t).reel.shards = t.reel.shards ++ [firstShard t l p] := by
  rw [initShard, startShard_eq, putSide_eq]
  simp only [State.onReel, clearHeader_reel]
  rfl

theorem ShardsOnly.layerOf (h : ShardsOnly s t) (id : Nat) : layerOf t id = layerOf s id := by
  obtain ⟨_, _, _, rfl⟩ := h
  rfl

theorem ShardsOnly.firstShard (h : ShardsOnly s t) (l : Layer) (p : Hank) : firstShard t l p = firstShard s l p := by
  obtain ⟨_, _, _, rfl⟩ := h
  rfl

/-- The shard of a hank gets its first weights; a hank whose layer the image does not have is passed over. -/
def initOne (t : State) (p : Hank) : State :=
  match layerOf t p.layer with
  | some l => initShard l p t
  | none => t

theorem initOne_shardsOnly (t : State) (p : Hank) : ShardsOnly t (initOne t p) := by
  unfold initOne
  split
  · exact startShard_shardsOnly t ..
  · exact .refl t

theorem initOne_shards (h : ShardsOnly s t) (p : Hank) :
    (initOne t p).reel.shards = t.reel.shards ++ ((layerOf s p.layer).map fun l => firstShard s l p).toList := by
  unfold initOne
  rw [h.layerOf]
  cases layerOf s p.layer with
  | none => simp
  | some l => simp [initShard_shards, h.firstShard]

theorem foldl_initOne_shards (h : ShardsOnly s t) (l : List Hank) : (l.foldl initOne t).reel.shards =
    t.reel.shards ++ l.flatMap fun p => ((layerOf s p.layer).map fun l => firstShard s l p).toList := by
  induction l generalizing t with
  | nil => simp
  | cons p ps ih =>
    rw [List.foldl_cons, ih (h.trans (initOne_shardsOnly t p)), initOne_shards h, List.flatMap_cons, List.append_assoc]

theorem initVector_reel (l : Layer) (slot : Nat) : (initVector l slot s).reel = s.reel := by
  unfold initVector
  dsimp only
  (repeat' split) <;> rfl

theorem initVectors_reel : (initVectors s).reel = s.reel := by
  have layer (t : State) (l : Layer) : (initVector l 2 (initVector l 1 t)).reel = t.reel :=
    (initVector_reel l 2).trans (initVector_reel l 1)
  unfold initVectors
  split
  · exact List.foldlRecOn (motive := fun t => t.reel = s.reel) _ _ rfl fun t same l _ => (layer t l).trans same
  · rfl

theorem initLowRank_turn (l : Layer) : (initLowRank l s).turn = s.turn :=
  (foldl_turn _ _ (fun t c => (raise_tellsOnly 0x2340 [l.id, c] t).turn) _).trans (s.onReel_turn rfl)

theorem initLowRank_renewed (l : Layer) : (initLowRank l s).renewed = s.renewed :=
  foldl_renewed _ _ (fun t c => (raise_tellsOnly 0x2340 [l.id, c] t).renewed) _

/-- The reel as a job without a checkpoint finds it. -/
abbrev ReelBlk.started (r : ReelBlk) : ReelBlk := { r with shards := [], lowRank := [], initialised := true }

theorem initJob_eq (s : State) : initJob s =
    (lowRankLayers s).foldl (fun t l => initLowRank l t) (initVectors ((ownShards s).foldl initOne (s.onReel ReelBlk.started))) := rfl

/-- What a decision leaves of the shards, the storage of the cores and module flash. -/
theorem State.store_of_turn (h : t.turn = s.turn) :
    t.reel.shards = s.reel.shards ∧ t.acc = s.acc ∧ t.spool = s.spool ∧ t.flash = s.flash := by
  simp only [State.turn, Prod.mk.injEq] at h
  obtain ⟨-, -, -, -, -, -, -, -, -, shards, -, stores⟩ := h
  exact ⟨shards, stores⟩

theorem State.initialised_of_renewed (h : t.renewed = s.renewed) : t.reel.initialised = s.reel.initialised :=
  congrArg (fun x => x.2.2) h

theorem initVectors_started (s : State) (l : List Hank) :
    (initVectors (l.foldl initOne (s.onReel ReelBlk.started))).reel.shards =
        l.flatMap (fun p => ((layerOf s p.layer).map fun l => firstShard s l p).toList) ∧
      (initVectors (l.foldl initOne (s.onReel ReelBlk.started))).reel.initialised = true ∧
      (initVectors (l.foldl initOne (s.onReel ReelBlk.started))).acc = s.acc ∧
      (initVectors (l.foldl initOne (s.onReel ReelBlk.started))).spool = s.spool ∧
      (initVectors (l.foldl initOne (s.onReel ReelBlk.started))).flash = s.flash := by
  refine ⟨?_, ?_⟩
  · rw [initVectors_reel]
    exact foldl_initOne_shards (.refl (s.onReel ReelBlk.started)) l
  · obtain ⟨_, _, _, only⟩ := (ShardsOnly.foldl initOne_shardsOnly l (s.onReel ReelBlk.started)).trans (initVectors_shardsOnly _)
    rw [only]
    exact ⟨rfl, rfl, rfl, rfl⟩

/-- The shards of a started job are the first ones of this device's hanks, and the job is initialised. -/
theorem initJob_starts (s : State) :
    (initJob s).reel.shards = (ownShards s).flatMap (fun p => ((layerOf s p.layer).map fun l => firstShard s l p).toList) ∧
      (initJob s).reel.initialised = true ∧ (initJob s).acc = s.acc ∧ (initJob s).spool = s.spool ∧ (initJob s).flash = s.flash := by
  rw [initJob_eq]
  obtain ⟨shards, initialised, acc, spool, flash⟩ := initVectors_started s (ownShards s)
  have turn := foldl_turn (initVectors ((ownShards s).foldl initOne (s.onReel ReelBlk.started))) _ (fun _ l => initLowRank_turn l)
    (lowRankLayers s)
  have renewed := foldl_renewed (initVectors ((ownShards s).foldl initOne (s.onReel ReelBlk.started))) _
    (fun _ l => initLowRank_renewed l) (lowRankLayers s)
  obtain ⟨shardsT, accT, spoolT, flashT⟩ := State.store_of_turn turn
  exact ⟨shardsT.trans shards, (State.initialised_of_renewed renewed).trans initialised, accT.trans acc, spoolT.trans spool,
    flashT.trans flash⟩

/-- Parameters and leaves go out after the start of a job and leave what it made (R454). -/
theorem initialisation_runs {err : Option UnitError} (noSkein : ∀ a x, err ≠ some (.skein a x)) (s : State) :
    (sendLeaves (emitOwn (awaitParams (initJob (keyError err s))))).reel.shards =
        (ownShards s).flatMap (fun p => ((layerOf s p.layer).map fun l => firstShard s l p).toList) ∧
      (sendLeaves (emitOwn (awaitParams (initJob (keyError err s))))).reel.initialised = true ∧
      (sendLeaves (emitOwn (awaitParams (initJob (keyError err s))))).acc = s.acc ∧
      (sendLeaves (emitOwn (awaitParams (initJob (keyError err s))))).spool = s.spool ∧
      (sendLeaves (emitOwn (awaitParams (initJob (keyError err s))))).flash = s.flash := by
  obtain ⟨stp, tel, skn, key⟩ : ReportsOnly s (keyError err s) := engineError_reportsOnly 3 tableUnit noSkein s
  rw [key]
  obtain ⟨shards, initialised, acc, spool, flash⟩ := initJob_starts { s with stp := stp, tel := tel, skn := skn }
  have turn := ((sendLeaves_turn _).trans (emitOwn_turn _)).trans (awaitParams_turn (initJob { s with stp := stp, tel := tel, skn := skn }))
  have renewed := (sendLeaves_renewed _).trans (emitOwn_renewed (awaitParams (initJob { s with stp := stp, tel := tel, skn := skn })))
  obtain ⟨shardsT, accT, spoolT, flashT⟩ := State.store_of_turn turn
  exact ⟨shardsT.trans shards, (State.initialised_of_renewed renewed).trans initialised, accT.trans acc, spoolT.trans spool,
    flashT.trans flash⟩

end

-- The commands.

section
variable {s : State}

theorem exec_initialisation {err : Option UnitError} (runs : unitsRun s = true) (noSkein : ∀ a x, err ≠ some (.skein a x))
    (loaded : s.warp.state = .loaded) (seed : s.nep.seed.isSome = true) (first : s.reel.initialised = false)
    (idle : s.stp.running = false) : ∃ t, exec (.initialisation err) s = .next t ∧ t.reel.initialised = true ∧ t.acc = s.acc ∧
      t.spool = s.spool ∧ t.flash = s.flash ∧ (∀ x ∈ t.reel.shards, x.shadowReady = false ∧ x.abandoned = false) ∧
      ∀ p l, p ∈ ownShards s → layerOf s p.layer = some l → firstShard s l p ∈ t.reel.shards := by
  obtain ⟨shards, initialised, acc, spool, flash⟩ := initialisation_runs noSkein s
  refine ⟨_, next_pos (by simp [runs, loaded, seed, first, idle]), initialised, acc, spool, flash, fun x mem => ?_, fun p l own layer => ?_⟩
  · rw [shards, List.mem_flatMap] at mem
    obtain ⟨p, -, mem⟩ := mem
    obtain ⟨l, -, rfl⟩ := Option.map_eq_some_iff.mp (Option.mem_toList.mp mem)
    exact ⟨rfl, rfl⟩
  · rw [shards]
    exact List.mem_flatMap.mpr ⟨p, own, by simp [layer]⟩

theorem exec_plyLeafMissing {tag : BitVec 20} {st : BitVec 48} (shard : tag.toNat ∈ shardTags s)
    (foreign : ownerOf s tag.toNat ≠ rankOf s) (later : s.reel.leafStep ≤ st.toNat) (reached : st.toNat ≤ s.stp.stepIndex)
    (lacking : leafHeld s st.toNat tag.toNat = none) : ∃ t, exec (.plyLeafMissing tag st) s = .next t ∧
      t = { s with rov := t.rov, tel := t.tel, reel := { s.reel with leafAsked := (st.toNat, tag.toNat) :: s.reel.leafAsked } } := by
  refine ⟨_, next_pos ?_, State.rest_of ((sendUnicast_quiet _ _).trans (raise_quiet ..))⟩
  simp [shard, foreign, later, reached, lacking]

theorem exec_kvBlockTimeout {l sh b : Nat} (running : s.stp.running = true) (lacks : blockLacks s l sh b = true) :
    exec (.kvBlockTimeout l sh b) s =
      .next (noteEnds ((if s.stp.phases.f.stop = none then loseF else loseBelow (l + 1)) (faultNow (raise 0x4032 [l, sh, b] s)))) := by
  refine (next_pos (by simp [running, lacks])).trans ?_
  simp only [Option.isNone_iff_eq_none]

theorem exec_paramEndTimeout {tag : BitVec 20} {x : ParamRt} (found : s.param tag.toNat = some x) :
    exec (.paramEndTimeout tag) s = .next (if x.waiting then askResend tag.toNat s else s) := by
  simp only [exec, execParamEndTimeout, found]

theorem askResend_eq (tag : Nat) : askResend tag s =
    { s with rov := (askResend tag s).rov, tel := (askResend tag s).tel, reel := (askResend tag s).reel } := by
  have quiet : (askResend tag s).quiet =
      ((raise 0x2360 [tag, s.stp.stepIndex] s).onParam tag fun x => { x with bytes := [], ended := false, waiting := false }).quiet :=
    (sendUnicast_quiet _ _).trans (countEvt_quiet ..)
  obtain ⟨rov, tel, eq⟩ := State.sent_of quiet
  rw [eq]
  rfl

/-- Settles O43: each time limit by the record it finds, the start of a job by the fold over this device's hanks. -/
theorem reelTimeoutRows : Obligations.ReelTimeoutRows := by
  intro s
  refine ⟨fun tag x p hank plan => ⟨fun running agreed => ?_, fun agreed => ?_, fun r lacks => ?_⟩,
    fun tag x found => ⟨fun waiting => ?_, fun idle => ?_⟩, fun tag st => exec_plyLeafMissing, fun l sh b => exec_kvBlockTimeout,
    fun l sh b x _ _ _ _ _ => ⟨_, rfl⟩, fun err done => next_neg (by simp [done]), fun err => fun runs noSkein loaded seed first idle => ?_⟩
  · obtain ⟨u, eq, facts⟩ := abandonHank_timeout 0x2301 [tag.toNat] hank plan
    refine ⟨u, ?_, facts⟩
    rw [← eq, exec, execScaleAgreementTimeout]
    simp [hank, running, agreed]
  · simp [exec, execScaleAgreementTimeout, hank, agreed]
  · obtain ⟨u, eq, facts⟩ := abandonHank_timeout 0x2331 [tag.toNat, r.toNat] hank plan
    refine ⟨u, ?_, facts⟩
    rw [← eq, exec, execHankTimeout]
    simp only [hank]
    exact next_pos (by simpa [or_comm] using lacks)
  · exact ⟨_, (exec_paramEndTimeout found).trans (next_pos waiting), askResend_param found, askResend_eq tag.toNat⟩
  · exact (exec_paramEndTimeout found).trans (next_neg (by simp [idle]))
  · obtain ⟨t, eq, initialised, acc, spool, flash, fresh, own⟩ := exec_initialisation runs noSkein loaded seed first idle
    exact ⟨t, eq, initialised, acc, spool, flash, fresh, fun p l mem layer => ⟨_, own p l mem layer, rfl, rfl⟩⟩

end

end Sys2Proof.Machine
end

section
/-! What an operation leaves in a tile (family 04): a run of the lanes or of the slub unit fills one accumulator tile and reports; neither
the reports nor the notes of phases touch the memories or another tile's work (R116, R121, R129, R130, R141). -/

namespace Sys2Proof.Machine

-- What the reports of a core leave.

section
variable (s : State)

theorem State.tile_onCore {c : Nat} {f : CoreState → CoreState} (keeps : ∀ k eng tile, (f k).tile eng tile = k.tile eng tile) (a : AccRef) :
    (s.onCore c f).tile a = s.tile a := by
  unfold State.tile
  by_cases same : a.core.val = c
  · rw [same, State.core_onCore, keeps]
  · rw [State.core_onCore_ne _ _ _ same]

theorem State.onCore_follows {c : Nat} {f : CoreState → CoreState} (keeps : ∀ k eng tile, (f k).tile eng tile = k.tile eng tile) :
    Follows s (s.onCore c f) :=
  ⟨rfl, fun a => s.tile_onCore keeps a ▸ .refl _⟩

/-- A change of a tile's flags leaves its work. -/
theorem State.onTile_follows {a : AccRef} {f : AccTile → AccTile} (st : ∀ x, (f x).st = x.st) (parts : ∀ x, (f x).parts = x.parts) :
    Follows s (s.onTile a f) := by
  refine ⟨rfl, fun b => .inl ?_⟩
  rw [State.tile_onTile]
  split
  next same =>
    obtain rfl : b = a := by
      obtain ⟨core, eng, tile⟩ := same
      cases a; cases b
      simp_all [Fin.ext_iff]
    exact ⟨st _, parts _⟩
  · exact ⟨rfl, rfl⟩

theorem raiseIf_follows (c : Bool) (code : Half) (payload : List Nat) : Follows s (raiseIf c code payload s) := .of_fixed (raiseIf_fixed ..)

theorem coreInvalid_follows (core : Nat) (sets : List InvalidAt) : Follows s (coreInvalid core sets s) := by
  cases sets with
  | nil => exact .refl s
  | cons x xs =>
    have picked : Follows s (freePick (xs.length + 1) s).2 := ⟨rfl, fun _ => .refl _⟩
    have latched := State.onCore_follows (freePick (xs.length + 1) s).2 (c := core) (f := fun k => { k with
      firstInvalid := if k.firstInvalid.isNone then some ((x :: xs).getD (freePick (xs.length + 1) s).1 x, decide (0 < s.stp.exec),
        w32 s.stp.batch) else k.firstInvalid
      raisedInvalid := true }) fun _ eng tile => by cases eng <;> cases tile <;> rfl
    exact ((picked.trans latched).trans (.of_fixed (count_fixed ..))).trans (raiseIf_follows ..)

theorem coreInf_follows (core : Nat) (inf : Bool) : Follows s (coreInf core inf s) := by
  refine .ite ?_ (.refl s)
  exact (State.onCore_follows s fun _ eng tile => by cases eng <;> cases tile <;> rfl).trans (.of_fixed (raise_fixed ..))

theorem coreReports_follows (core : Nat) (fl : Flags) (sets : List InvalidAt) : Follows s (coreReports core fl sets s) :=
  ((coreInvalid_follows s core sets).trans (coreInf_follows _ core fl.inf)).trans (.ite (noteNonfinite_follows _) (.refl _))

theorem faultTile_follows (on : Bool) (a : AccRef) : Follows s (faultTile on a s) :=
  .ite (State.onTile_follows s (fun _ => rfl) fun _ => rfl) (.refl s)

theorem readEvents_follows (core layer : Nat) (evs : List (Nat × Nat × Nat)) : Follows s (readEvents core layer evs s) := by
  refine .foldl (fun t e => ?_) evs s
  exact .ite (.of_fixed (raise_fixed ..)) (.of_fixed ((faultNow_fixed _).trans (raise_fixed ..)))

end

-- A run in a tile.

theorem runTile_length (at' : AccRef) (w : TileWork) (f : List Pos → List Pos → ElemAcc → ElemAcc) (start : List Word) (a b : List (List Pos)) :
    (runTile at' w f start a b).words.length = 16384 := by
  simp [runTile]

/-- Element (i, j) of a run is the operation on row i and column j from what the element held. -/
theorem runTile_word (at' : AccRef) (w : TileWork) (f : List Pos → List Pos → ElemAcc → ElemAcc) (start : List Word) (a b : List (List Pos))
    {n : Nat} (inside : n < 16384) : (runTile at' w f start a b).words.getD n 0 =
      (f (a.getD (n / 128) []) (b.getD (n % 128) []) (ElemAcc.start (start.getD n 0))).bits := by
  simp [runTile, List.getD_eq_getElem?_getD, List.getElem?_map, List.getElem?_range inside]

/-- The tile `a` holds the elements `ws`; otherwise `t` comes of `s` by reports, and no memory but accumulator storage has changed. -/
structure Filled (a : AccRef) (ws : List Word) (s t : State) : Prop where
  follows : Follows { s with acc := s.acc.writeWords (accBase a) ws } t
  mems : t.mems = { s with acc := s.acc.writeWords (accBase a) ws }.mems

namespace Filled
variable {a : AccRef} {ws : List Word} {s t u : State}

theorem trans (h : Filled a ws s t) (follows : Follows t u) (mems : u.mems = t.mems) : Filled a ws s u :=
  ⟨h.follows.trans follows, mems.trans h.mems⟩

theorem tile (h : Filled a ws s t) (whole : partGradient (fun _ => true) (s.tile a).parts = false) :
    (t.tile a).st = (s.tile a).st ∧ (t.tile a).parts = (s.tile a).parts :=
  (h.follows.tiles a).whole whole

theorem acc (h : Filled a ws s t) : t.acc = s.acc.writeWords (accBase a) ws := congrArg Prod.fst h.mems

theorem rest (h : Filled a ws s t) : t.spool = s.spool ∧ t.creel = s.creel ∧ t.skein = s.skein := by
  have mems := h.mems
  simp only [State.mems, Prod.mk.injEq] at mems
  exact mems.2

theorem words (h : Filled a ws s t) (wf : s.memWf) (size : ws.length = 16384) : accWords t a = ws := by
  unfold accWords
  rw [h.acc, ← size]
  exact Memory.readWords_writeWords wf.1 _ _

theorem outside (h : Filled a ws s t) (size : ws.length = 16384) {x : Nat} (out : x < accBase a ∨ accBase a + 65536 ≤ x) :
    t.acc.readByte x = s.acc.readByte x := by
  rw [h.acc]
  exact Memory.readByte_writeWords _ _ _ _ (by omega)

theorem putRun (a : AccRef) (r : TileRun) (s : State) : Filled a r.words s (putRun a r s) where
  follows := (State.onTile_follows _ (f := fun t => { t with flags := t.flags.merge r.flags r.poison }) (fun _ => rfl)
    fun _ => rfl).trans (coreReports_follows ..)
  mems := coreReports_mems ..

theorem fault (h : Filled a ws s t) (on : Bool) : Filled a ws s (faultTile on a t) :=
  h.trans (faultTile_follows ..) (by unfold faultTile; split <;> rfl)

theorem events (h : Filled a ws s t) (core layer : Nat) (evs : List (Nat × Nat × Nat)) : Filled a ws s (readEvents core layer evs t) :=
  h.trans (readEvents_follows ..) (readEvents_mems ..)

theorem ends (h : Filled a ws s t) : Filled a ws s (noteEnds t) := h.trans (noteEnds_follows _) (noteEnds_mems _)

end Filled

-- The slub pass (R121, R122).

theorem slubRun_filled (a : AccRef) (w : TileWork) (l : Layer) (parts : List TileWork) (s : State) :
    Filled a (runTile a w (elemSlub w.kExtent) (accWords s a) (wholeRows s l true parts) (wholeRows s l false parts)).words s
      (slubRun a w l parts s) :=
  ((Filled.putRun a _ s).fault _).events ..

/-- Work that has entered its tile whole is no part of a gradient. -/
theorem partGradient_of_complete {parts : List TileWork} {w : TileWork} (last : parts.getLast? = some w) (complete : workComplete w = true) :
    partGradient (fun _ => true) parts = false := by
  simp [partGradient, last, complete]

/-- The slub pass of a finished tile whose operands are resident, with no error found. -/
theorem slubPass_runs {a : AccRef} {w : TileWork} {l : Layer} {s : State} (st : (s.tile a).st = .accumulating)
    (inService : quarantined s a.core.val = false) (work : (s.tile a).work = some w) (layer : layerOf s w.layer = some l)
    (complete : workComplete w = true) (here : partsHere s l (s.tile a).parts = true) :
    slubPass a none s = slubRun a w l (s.tile a).parts (s.onTile a fun t => { t with st := .slub }) := by
  unfold slubPass
  rw [st, work]
  simp only [layer]
  rw [if_pos (by simp [complete, inService, here])]
  rfl

/-- Settles O22: the slub unit's run over the whole rows, put into the tile, and what reports and notes leave. -/
theorem slubPassRow : Obligations.SlubPassRow := by
  intro a w l s t0 wf st inService work layer complete here
  have filled := (slubRun_filled a w l (s.tile a).parts (s.onTile a fun t => { t with st := .slub })).ends
  have size := runTile_length a w (elemSlub w.kExtent) (accWords s a) (wholeRows s l true (s.tile a).parts)
    (wholeRows s l false (s.tile a).parts)
  obtain ⟨stT, partsT⟩ := filled.tile (by rw [State.tile_onTile_same]; exact partGradient_of_complete work complete)
  rw [State.tile_onTile_same] at stT partsT
  refine ⟨_, (next_pos (by simp [tilesGoOn, t0])).trans (by rw [slubPass_runs st inService work layer complete here]), stT, partsT,
    fun n inside => ?_, fun x out => filled.outside size out, filled.rest⟩
  rw [filled.words wf size]
  exact runTile_word _ _ _ _ _ _ inside

end Sys2Proof.Machine
end

section
/-! The issue of a tile (family 04): a part that starts at chunk 0 fills its tile with the chunk sums, drains and whorl operations are issued
as they are, and the prefetchers change descriptor queues only (R116, R120, R182 to R185). -/

namespace Sys2Proof.Machine

-- The prefetchers (R26, R291).

/-- `t` differs from `s` in the descriptor queues of cores only. -/
structure QueuesOnly (s t : State) : Prop where
  rest : t = { s with cores := t.cores }
  queues : ∀ c, t.core c = { s.core c with queue := (t.core c).queue }

theorem QueuesOnly.refl (s : State) : QueuesOnly s s := ⟨rfl, fun _ => rfl⟩

theorem QueuesOnly.trans {s t u : State} (h : QueuesOnly s t) (h' : QueuesOnly t u) : QueuesOnly s u where
  rest := h'.rest.trans (by rw [h.rest])
  queues c := by rw [h'.queues c, h.queues c]

theorem QueuesOnly.onCore (s : State) (c : Nat) (q : List TileWork) : QueuesOnly s (s.onCore c fun k => { k with queue := q }) where
  rest := rfl
  queues d := by
    by_cases same : d = c
    · rw [same, State.core_onCore]
    · rw [State.core_onCore_ne _ _ _ same]

theorem prefetch_queuesOnly (cl : ClusterIx) (ready : List Work) (issued : Work) (s : State) :
    QueuesOnly s (prefetch cl ready issued s) :=
  List.foldlRecOn (motive := fun x : State × List TileWork => QueuesOnly s x.1) (clusterCores cl) _ (.refl s) fun x h c _ =>
    h.trans (.onCore x.1 c.val _)

theorem QueuesOnly.tile {s t : State} (h : QueuesOnly s t) (a : AccRef) : t.tile a = s.tile a := by
  unfold State.tile
  rw [h.queues]
  cases a.eng <;> cases a.tile <;> rfl

theorem QueuesOnly.mems {s t : State} (h : QueuesOnly s t) : t.mems = s.mems := by
  rw [h.rest]
  rfl

theorem QueuesOnly.follows {s t : State} (h : QueuesOnly s t) : Follows s t :=
  ⟨by rw [h.rest]; rfl, fun a => h.tile a ▸ .refl _⟩

-- One part (R116, R120).

/-- The chunks of a part of `w`, as an operation on an element. -/
abbrev partChunks (l : Layer) (w : TileWork) : List Pos → List Pos → ElemAcc → ElemAcc :=
  elemChunks l.ply (TileWork.hi w - TileWork.lo w) (w.chunkLo - w.chunkLo) (w.chunkHi - w.chunkLo)

/-- A run with the flags of its operands' reading, and its settings by the chunk of the tile. -/
def TileRun.ofPart (x y : Flags) (chunkLo : Nat) (r : TileRun) : TileRun :=
  { r with flags := (r.flags.or x).or y, settings := r.settings.map fun i => { i with chunk := i.chunk.map (· + chunkLo) } }

@[simp] theorem TileRun.ofPart_words (x y : Flags) (chunkLo : Nat) (r : TileRun) : (r.ofPart x y chunkLo).words = r.words := rfl

/-- The run of the chunks of a part. -/
abbrev partRun (a : AccRef) (w : TileWork) (l : Layer) (s : State) : TileRun :=
  runTile a w (partChunks l w) (accWords s a) (unpackSide s l true w).pos (unpackSide s l false w).pos

theorem runPart_eq (a : AccRef) (w : TileWork) (l : Layer) (s : State) : runPart a w l s =
    readEvents a.core.val w.layer (unpackSide s l false w).events (readEvents a.core.val w.layer (unpackSide s l true w).events
      (faultTile (readFault (unpackSide s l true w).events || readFault (unpackSide s l false w).events) a
        (putRun a ((partRun a w l s).ofPart (unpackSide s l true w).flags (unpackSide s l false w).flags w.chunkLo) s))) := rfl

theorem runPart_filled (a : AccRef) (w : TileWork) (l : Layer) (s : State) : Filled a (partRun a w l s).words s (runPart a w l s) := by
  rw [runPart_eq, ← TileRun.ofPart_words (unpackSide s l true w).flags (unpackSide s l false w).flags w.chunkLo]
  exact (((Filled.putRun a _ s).fault _).events ..).events ..

/-- The tile `a` as a part from chunk 0 finds it: accumulating, its elements +0. -/
def zeroStart (a : AccRef) (w : TileWork) (s : State) : State :=
  { s with acc := s.acc.writeWords (accBase a) (List.replicate 16384 0) }.onTile a fun _ => ⟨.accumulating, TileFlags.clear, [w], [a.core]⟩

theorem beginB_eq (p : Phase) (s : State) : ∃ stp, beginB p s = { s with stp := stp } := by
  unfold beginB
  split
  case h_1 | h_2 => exact ⟨s.stp, rfl⟩
  case h_3 =>
    split
    · exact ⟨_, rfl⟩
    · exact ⟨s.stp, rfl⟩

/-- A part from chunk 0 without a hand-over slot runs its chunks on the cleared tile. -/
theorem issueTile_zero {a : AccRef} {w : TileWork} {l : Layer} {s : State} (layer : layerOf s w.layer = some l) (start : w.start = .zero)
    (park : w.park = none) : ∃ stp, issueTile a w none s = runPart a w l (zeroStart a w { s with stp := stp }) := by
  obtain ⟨stp, begun⟩ := beginB_eq w.phase s
  refine ⟨(noteIssued w { s with stp := stp }).stp, ?_⟩
  unfold issueTile
  simp only [layer]
  rw [park, begun, loadStart, start]
  rfl

theorem zeroStart_words (a : AccRef) (w : TileWork) {s : State} (wf : s.memWf) {n : Nat} :
    (accWords (zeroStart a w s) a).getD n 0 = 0 := by
  have zeros : accWords (zeroStart a w s) a = List.replicate 16384 0 := by
    have read := Memory.readWords_writeWords wf.1 (accBase a) (List.replicate 16384 0)
    rwa [List.length_replicate] at read
  rw [zeros, List.getD_eq_getElem?_getD, List.getElem?_replicate]
  split <;> rfl

theorem zeroStart_wf (a : AccRef) (w : TileWork) {s : State} (wf : s.memWf) : (zeroStart a w s).memWf := by
  unfold State.memWf zeroStart
  rw [State.onTile_mems]
  exact acc_writeWords_wf s _ _ wf

/-- What stands in the tile and around it after the issue of a part from chunk 0. -/
theorem issueTile_runs {a : AccRef} {w : TileWork} {l : Layer} {s t : State} (wf : s.memWf) (layer : layerOf s w.layer = some l)
    (start : w.start = .zero) (park : w.park = none) (follows : Follows (noteEnds (issueTile a w none s)) t)
    (mems : t.mems = (noteEnds (issueTile a w none s)).mems) :
    (partGradient (fun _ => true) [w] = false → (t.tile a).st = .accumulating ∧ (t.tile a).parts = [w]) ∧
      (∀ n, n < 16384 → (accWords t a).getD n 0 = (partChunks l w ((unpackSide s l true w).pos.getD (n / 128) [])
        ((unpackSide s l false w).pos.getD (n % 128) []) (ElemAcc.start 0)).bits) ∧
      (∀ x, x < accBase a ∨ accBase a + 65536 ≤ x → t.acc.readByte x = s.acc.readByte x) ∧
      t.spool = s.spool ∧ t.creel = s.creel ∧ t.skein = s.skein := by
  obtain ⟨stp, runs⟩ := issueTile_zero (a := a) layer start park
  rw [runs] at follows mems
  have wf' : { s with stp := stp }.memWf := wf
  have filled := ((runPart_filled a w l (zeroStart a w { s with stp := stp })).ends).trans follows mems
  have size := runTile_length a w (partChunks l w) (accWords (zeroStart a w { s with stp := stp }) a)
    (unpackSide s l true w).pos (unpackSide s l false w).pos
  have loaded : (zeroStart a w { s with stp := stp }).tile a = ⟨.accumulating, TileFlags.clear, [w], [a.core]⟩ :=
    State.tile_onTile_same ..
  refine ⟨fun whole => ?_, fun n inside => ?_, fun x out => (filled.outside size out).trans ?_, filled.rest⟩
  · have kept := filled.tile (by rw [loaded]; exact whole)
    rwa [loaded] at kept
  · rw [filled.words (zeroStart_wf a w wf') size]
    refine (runTile_word _ _ _ _ _ _ inside).trans ?_
    rw [zeroStart_words a w wf']
    rfl
  · exact Memory.readByte_writeWords _ _ _ _ (by rw [List.length_replicate]; omega)

-- TILE_ISSUE.

section
variable {cl : ClusterIx} {ready : List Work} {s : State} {e : Option UnitError}

theorem exec_tileIssue_none (shaped : ready.all (Work.shaped cl) = true) (usable : ((clusterCores cl).filter (usable s)).isEmpty = false)
    (pick : pickWork s cl ready = none) : exec (.tileIssue cl ready e) s = .next s := by
  have idle : tileIssue cl ready e s = s := by
    simp [tileIssue, pick, usable]
  exact checked_formed shaped idle

/-- Work that is picked is issued, and the prefetchers go on. -/
theorem exec_tileIssue_some {w : Work} (t0 : s.trd.ladder = .t0) (goesOn : s.trd.stopping = false)
    (shaped : ready.all (Work.shaped cl) = true) (usable : ((clusterCores cl).filter (usable s)).isEmpty = false)
    (pick : pickWork s cl ready = some w) : exec (.tileIssue cl ready e) s = .next (prefetch cl ready w (issueWork cl e s w)) := by
  have some' : ready.isEmpty = false := by
    cases ready with
    | nil => cases pick
    | cons _ _ => rfl
  have issues : tileIssue cl ready e s = prefetch cl ready w (issueWork cl e s w) := by
    simp [tileIssue, pick, usable, some', arithmeticOn, tilesGoOn, t0, goesOn]
  exact checked_formed shaped issues

theorem pickWork_ready {w : Work} (pick : pickWork s cl ready = some w) : w ∈ ready ∧ workReady s cl w = true := by
  have among : ∀ x, pickWork s cl ready = some x → x ∈ ready.filter (workReady s cl) :=
    List.foldlRecOn (motive := fun best => ∀ x, best = some x → x ∈ ready.filter (workReady s cl)) _ _ (fun _ none => nomatch none)
      fun best known y mem x some => by
        split at some
        · exact Option.some.inj some ▸ mem
        · split at some
          · exact Option.some.inj some ▸ mem
          next b _ => exact known x some
  exact List.mem_filter.mp (among w pick)

/-- A whorl operation that is picked is the command of its own. -/
theorem issueWork_whorl {w : WhorlWork} (t0 : s.trd.ladder = .t0) (goesOn : s.trd.stopping = false)
    (shaped : ready.all (Work.shaped cl) = true) (pick : pickWork s cl ready = some (.whorl w)) :
    exec (.whorlOp w) s = .next (issueWork cl none s (.whorl w)) := by
  obtain ⟨mem, is⟩ := pickWork_ready pick
  have ready' : whorlReady s w = true := is
  have formed : whorlShaped w = true := (Bool.and_eq_true_iff.mp (List.all_eq_true.mp shaped _ mem)).1
  obtain ⟨l, layer⟩ : ∃ l, layerOf s w.layer = some l := by
    cases layer : layerOf s w.layer with
    | none => simp [whorlReady, layer] at ready'
    | some l => exact ⟨l, rfl⟩
  refine checked_formed formed ?_
  simp only [issueWork, layer, Option.or_none]
  rw [if_pos (by simp [arithmeticOn, tilesGoOn, t0, goesOn, ready'])]

end

/-- Settles O21: the picked work is issued and the prefetchers follow; a part's tile by the run over its chunks. -/
theorem tileIssueRow : Obligations.TileIssueRow := by
  intro cl ready s t0 goesOn shaped wf usable
  refine ⟨fun pick e => exec_tileIssue_none shaped usable pick, fun w a l pick place layer start park => ?_, fun d pick => ?_,
    fun w pick => ?_, fun w t => ⟨(prefetch_queuesOnly cl ready w t).rest, (prefetch_queuesOnly cl ready w t).queues⟩⟩
  · have queues := prefetch_queuesOnly cl ready (.tile w) (noteEnds (issueTile a w none s))
    have facts := issueTile_runs wf layer start park queues.follows queues.mems
    rw [partChunks, Nat.sub_self] at facts
    refine ⟨_, (exec_tileIssue_some t0 goesOn shaped usable pick).trans ?_, facts⟩
    simp only [issueWork, place]
  · refine ⟨_, rfl, (exec_tileIssue_some t0 goesOn shaped usable pick).trans ?_⟩
    rw [issueWork, Option.or_none]
  · exact ⟨_, issueWork_whorl t0 goesOn shaped pick, exec_tileIssue_some t0 goesOn shaped usable pick⟩

end Sys2Proof.Machine
end

section
/-! The drain of a tile (family 04): what its destinations, its record and its ring step leave of accumulator storage, and that the tile ends
free (R135, R137, R141, R222, R228). -/

namespace Sys2Proof.Machine

-- What a record's push leaves of the cores (R188, R306).

/-- The cores with their tiles, and accumulator storage. -/
def State.units (s : State) := (s.cores, s.acc)

theorem Follows.acc {s t : State} (h : Follows s t) : t.acc = s.acc := by
  have steady := h.steady
  simp only [State.steady, Prod.mk.injEq] at steady
  obtain ⟨-, -, -, -, -, -, acc, -⟩ := steady
  exact acc

theorem units_of_fixed {s t : State} (h : t.fixed = s.fixed) : t.units = s.units :=
  Prod.ext (Prod.mk.inj h).2 (Follows.of_fixed h).acc

section
variable (s : State)

theorem State.tile_of_units {s t : State} (h : t.units = s.units) (a : AccRef) : t.tile a = s.tile a := by
  unfold State.tile State.core
  rw [show t.cores = s.cores from congrArg Prod.fst h]

theorem foldl_units {α β : Type} (f : β → State) (g : β → α → β) (h : ∀ x y, (f (g x y)).units = (f x).units) (l : List α) (x : β) :
    (f (l.foldl g x)).units = (f x).units := by
  induction l generalizing x with
  | nil => rfl
  | cons y ys ih => rw [List.foldl_cons, ih, h]

@[simp] theorem onBobbin_units (stage : Nat) (f : BobStage → BobStage) : (onBobbin stage f s).units = s.units := (rfl)

theorem complete_units (q : QueueIx) (d : Desc) (c : Compl) : (complete q d c s).units = s.units := by
  unfold complete
  dsimp only
  split <;> rfl

@[simp] theorem haltStep_units : (haltStep s).units = s.units := by
  unfold haltStep
  split
  · unfold completeStep completeRunning
    split
    · rfl
    · exact complete_units ..
  · rfl

theorem loseCommitted_units : (loseCommitted s).units = s.units := by
  have image : (dropImage .empty s).units = (dropJobFrames s).units := haltStep_units (dropJobFrames s)
  have frames : (dropJobFrames s).units = s.units := by
    unfold dropJobFrames
    rw [State.rov_rest (dropFrames_noRov _ s)]
    rfl
  exact (units_of_fixed (fixed_of_quiet (helloAll_quiet _))).trans (image.trans frames)

theorem stateLost_units (addr : Nat) (byScrub : Bool) (cls : Nat) : (stateLost addr byScrub cls s).units = s.units := by
  unfold stateLost
  dsimp only
  split
  · exact loseCommitted_units _
  · rfl

theorem renewParams_units (layer addr : Nat) : (renewParams layer addr s).units = s.units := by
  refine foldl_units id _ (fun t p => ?_) _ _
  exact units_of_fixed (by simp [requestResend])

theorem uncorrectable_units (addr cls : Nat) : (uncorrectable addr cls s).units = s.units := by
  unfold uncorrectable
  dsimp only
  split
  · exact stateLost_units ..
  · split
    · exact renewParams_units ..
    · exact loseCommitted_units _
    · split <;> rfl
    · rfl

theorem decodeWord_units (cls : Nat) (x : State × Bool) (w : Nat × Ecc) : (decodeWord cls x w).1.units = x.1.units := by
  unfold decodeWord
  split
  · exact uncorrectable_units ..
  · split
    · rfl
    · obtain ⟨_, _, _, eq⟩ := correctedWord_reportsOnly w.1 false cls (Fin.val ‹_›) x.1
      rw [eq]
      rfl
    · exact uncorrectable_units ..

theorem skeinTake_units (cls addr n : Nat) : (skeinTake cls addr n s).1.units = s.units := by
  unfold skeinTake
  split
  · rfl
  · exact foldl_units Prod.fst _ (decodeWord_units cls) _ _

theorem takePieces_units (ps : List (Loc × Nat)) : (takePieces ps s).1.units = s.units := by
  refine foldl_units Prod.fst _ (fun x p => ?_) ps (s, some [])
  dsimp only
  split
  · exact skeinTake_units ..
  · rfl

theorem spillOldest_units (stage : Nat) : (spillOldest stage s).units = s.units := by
  unfold spillOldest
  (repeat' split) <;> rfl

theorem addGrain_units (stage number : Nat) (bs : List Byte) : (addGrain stage number bs s).units = s.units := by
  have spilled (c : Bool) : (if c then spillOldest stage s else s).units = s.units := by
    split
    · exact spillOldest_units ..
    · rfl
  unfold addGrain
  dsimp only
  split
  · exact spilled _
  · split
    all_goals exact spilled _

theorem pushRecord_units (l : Layer) (mb : Nat) (p : PushSpec) : (pushRecord l mb p s).units = s.units := by
  unfold pushRecord
  split
  · rfl
  · dsimp only
    split
    · rfl
    · split
      · exact takePieces_units ..
      · have grains (t : State) (n : Nat) (k : Nat) (bs : List Byte) : ((List.range n).foldl (fun t i =>
            addGrain l.stage k ((bs.drop (256 * i)).take 256) t) t).units = t.units := foldl_units id _ (fun t i => addGrain_units t ..) _ _
        split <;> exact (grains ..).trans ((onBobbin_units ..).trans (takePieces_units ..))

-- What writing leaves of accumulator storage (R100, R145, R195).

@[simp] theorem storeAt_acc (l : Loc) (bs : List Byte) : (s.storeAt l bs).acc = s.acc := by
  unfold State.storeAt
  (repeat' split) <;> rfl

theorem streamDraws_acc (id : Word) (core n : Nat) (coord : Nat → Nat × Nat × Nat) : (streamDraws id core n coord s).2.acc = s.acc := by
  unfold streamDraws
  split
  · rfl
  · split <;> rfl

theorem countFor_acc (p : Phase) (layer : Nat) (c : Counts) : (countFor p layer c s).acc = s.acc := by
  unfold countFor
  split <;> rfl

theorem foldl_acc {α β : Type} (f : β → State) (g : β → α → β) (h : ∀ x y, (f (g x y)).acc = (f x).acc) (l : List α) (x : β) :
    (f (l.foldl g x)).acc = (f x).acc := by
  induction l generalizing x with
  | nil => rfl
  | cons y ys ih => rw [List.foldl_cons, ih, h]

theorem writeNarrowRow_acc (w : Writer) (d : NarrowDest) (c : Layer) (wf : WriteFmt) (x : Wrote × Counts) (p : List Word × Nat) :
    (writeNarrowRow w d c wf x p).1.st.acc = x.1.st.acc := by
  unfold writeNarrowRow
  simp only [storeAt_acc]
  split
  · exact streamDraws_acc ..
  · rfl

theorem writeNarrow_acc (w : Writer) (d : NarrowDest) (rows : List (List Word)) (x : Wrote) : (writeNarrow w d rows x).st.acc = x.st.acc := by
  unfold writeNarrow
  split
  · rfl
  next c _ =>
    split
    · rfl
    next wf _ =>
      exact (countFor_acc ..).trans (foldl_acc (fun y : Wrote × Counts => y.1.st) _ (writeNarrowRow_acc w d c wf) _ (x, Counts.zeros))

theorem writeWide_acc (half : Bool) (base : Loc) (stride : Nat) (rows : List (List Word)) (x : Wrote) :
    (writeWide half base stride rows x).st.acc = x.st.acc :=
  foldl_acc Wrote.st _ (fun _ _ => storeAt_acc ..) _ x

@[simp] theorem putSources_fixed (tag : Nat) (c : Contribution) (vals : List Word) : (putSources tag c vals s).fixed = s.fixed := by
  unfold putSources
  split
  · rfl
  · simp [refuseRequest]

theorem contribute_follows (tag tile group : Nat) (vals : List Word) : Follows s (contribute tag tile group vals s) := by
  have kept : Follows s (countClips tag ⟨s.stp.exec, tile, group⟩ (putSources tag ⟨s.stp.exec, tile, group⟩ vals
      (s.onHank tag (keepContribution ⟨s.stp.exec, tile, group⟩)))) := .of_fixed (by simp)
  refine .ite (.refl s) (.ite kept ?_)
  split
  · exact kept
  · split
    · have opened := kept.trans (.of_fixed ((openHank_fixed _ tag).trans (beginG_fixed _)))
      exact (opened.trans (enterTile_follows _ tag false tile)).trans (settleHank_follows _ tag)
    · exact kept.trans (.of_fixed (beginG_fixed _))

theorem drainDest_acc (d : DrainSpec) (w : TileWork) (l : Layer) (rows pre : List (List Word)) (x : Wrote) (dest : Dest) :
    (drainDest d w l rows pre x dest).st.acc = x.st.acc := by
  cases dest with
  | narrow nd => exact writeNarrow_acc ..
  | wide half base stride => exact writeWide_acc ..
  | preAct base stride => exact writeWide_acc ..
  | wire tag tile group => exact (contribute_follows ..).acc

-- What follows the writes (R142, R378).

theorem plyCheck_fixed (u : PlyUnit) (rows : Nat → List ORow × List ORow) : (plyCheck u rows none s).fixed = s.fixed := by
  unfold plyCheck
  split
  · dsimp only
    split
    · rfl
    · split <;> rfl
  · rfl

theorem stepFlags_acc (core : Nat) (t : TileFlags) : (stepFlags core t s).acc = s.acc := by
  unfold stepFlags
  dsimp only
  split <;> rfl

theorem drainedWith_acc (core off : Nat) (code : Half) (on already : Bool) (mark : CoreState → CoreState) :
    (drainedWith core off code on already mark s).acc = s.acc := by
  unfold drainedWith raiseIf
  (repeat' split) <;> rfl

theorem drainFlags_acc (a : AccRef) (t : TileFlags) : (drainFlags a t s).acc = s.acc :=
  (drainedWith_acc ..).trans ((drainedWith_acc ..).trans (stepFlags_acc ..))

theorem layerTiles_fixed (layer : Nat) (t : TileFlags) : (layerTiles layer t s).fixed = s.fixed := by
  unfold layerTiles
  dsimp only
  (repeat' split) <;> rfl

theorem noteLast_fixed (last : Bool) (p : Phase) (l : Layer) (mb : Nat) : (noteLast last p l mb s).fixed = s.fixed := by
  unfold noteLast
  split
  · split
    · exact endF_fixed s
    all_goals rfl
  · rfl

theorem moveRing_follows (layer : Nat) (p : Phase) (m : Option RingMove) : Follows s (moveRing layer p m s) := by
  cases m with
  | none => exact .refl s
  | some x => exact Follows.trans (.of_fixed (by simp)) (releaseHeld_follows _)

/-- The state after the record that a work pushes, if it pushes one. -/
def recorded (l : Layer) (mb : Nat) (push : Option PushSpec) (s : State) : State :=
  match push with
  | some x => pushRecord l mb x s
  | none => s

/-- The state after the block that a work sends around the ring, if it sends one. -/
def ringSent (ring : Option RingSend) (s : State) : State :=
  match ring with
  | some r => ringSend r s
  | none => s

theorem afterWork_eq (l : Layer) (p : Phase) (mb : Nat) (push : Option PushSpec) (ring : Option RingSend) (m : Option RingMove)
    (last : Bool) (before : State) : afterWork l p mb push ring m last before s =
      noteEnds (sendNewFactors before (noteLast last p l mb (moveRing l.id p m (ringSent ring (recorded l mb push s))))) := rfl

theorem recorded_units (l : Layer) (mb : Nat) (push : Option PushSpec) : (recorded l mb push s).units = s.units := by
  cases push with
  | none => rfl
  | some x => exact pushRecord_units ..

theorem ringSent_fixed (ring : Option RingSend) : (ringSent ring s).fixed = s.fixed := by
  cases ring with
  | none => rfl
  | some r => simp [ringSent, ringSend]

/-- What follows work once its results are written leaves accumulator storage, and a tile without work free. -/
theorem afterWork_leaves (l : Layer) (p : Phase) (mb : Nat) (push : Option PushSpec) (ring : Option RingSend) (m : Option RingMove)
    (last : Bool) (before : State) {a : AccRef} (idle : (s.tile a).st = .idle) (free : (s.tile a).parts = []) :
    ((afterWork l p mb push ring m last before s).tile a).st = .idle ∧ ((afterWork l p mb push ring m last before s).tile a).parts = [] ∧
      (afterWork l p mb push ring m last before s).acc = s.acc := by
  rw [afterWork_eq]
  have units := recorded_units s l mb push
  have tile := State.tile_of_units units a
  have moved := (Follows.of_fixed (ringSent_fixed (recorded l mb push s) ring)).trans (moveRing_follows _ l.id p m)
  have noted := moved.trans (.of_fixed ((sendNewFactors_fixed _ before).trans (noteLast_fixed _ last p l mb)))
  have follows := noted.trans (noteEnds_follows _)
  obtain ⟨st, parts⟩ := (follows.tiles a).free (by rw [tile, idle]) (by rw [tile, free])
  exact ⟨st, parts, follows.acc.trans (congrArg Prod.snd units)⟩

end

-- TILE_DRAIN (R135).

/-- Up to the drop of the tile a drain leaves accumulator storage. -/
theorem drainTile_drops {d : DrainSpec} {w : TileWork} {l : Layer} {s : State} (noError : d.err = none) (noReExec : d.reExec = none) :
    ∃ t u, drainTile d w l s = afterWork l w.phase w.microBatch d.push d.ring d.ringMove d.last s
      (layerTiles w.layer t ((drainFlags d.acc t u).onTile d.acc AccTile.drop)) ∧ u.acc = s.acc := by
  unfold drainTile
  refine ⟨_, _, rfl, ?_⟩
  rw [noReExec, (Follows.of_fixed (plyCheck_fixed _ _ _)).acc, noError]
  refine (foldl_acc Wrote.st _ (drainDest_acc d w l _ _) _ _).trans ?_
  exact (coreReports_follows ..).acc

/-- A drain leaves its tile free and accumulator storage as it was. -/
theorem drainTile_leaves {d : DrainSpec} {w : TileWork} {l : Layer} {s : State} (noError : d.err = none) (noReExec : d.reExec = none) :
    ((drainTile d w l s).tile d.acc).st = .idle ∧ ((drainTile d w l s).tile d.acc).parts = [] ∧ (drainTile d w l s).acc = s.acc := by
  obtain ⟨t, u, drains, acc⟩ := drainTile_drops (w := w) (l := l) (s := s) noError noReExec
  have counted := layerTiles_fixed ((drainFlags d.acc t u).onTile d.acc AccTile.drop) w.layer t
  have dropped : (layerTiles w.layer t ((drainFlags d.acc t u).onTile d.acc AccTile.drop)).tile d.acc = ((drainFlags d.acc t u).tile d.acc).drop :=
    (State.tile_of_units (units_of_fixed counted) d.acc).trans (State.tile_onTile_same ..)
  obtain ⟨st, parts, after⟩ := afterWork_leaves (a := d.acc) _ l w.phase w.microBatch d.push d.ring d.ringMove d.last s
    (congrArg AccTile.st dropped) (congrArg AccTile.parts dropped)
  rw [drains]
  exact ⟨st, parts, after.trans ((Follows.of_fixed counted).acc.trans ((drainFlags_acc u d.acc t).trans acc))⟩

/-- A tile whose slub pass is done passes no more. -/
theorem slubPass_done {a : AccRef} {e : Option UnitError} {s : State} (done : (s.tile a).st = .slub) : slubPass a e s = s := by
  unfold slubPass
  rw [done]

/-- A drain that is ready has work, of a layer of the image. -/
theorem work_of_drainReady {d : DrainSpec} {s : State} (ready : drainReady s d = true) :
    ∃ w l, (s.tile d.acc).work = some w ∧ layerOf s w.layer = some l := by
  unfold drainReady at ready
  dsimp only at ready
  split at ready
  · cases ready
  next w work =>
    split at ready
    · cases ready
    next l layer => exact ⟨w, l, work, layer⟩

/-- Settles O23: what a drain writes never goes to accumulator storage, and what follows it finds the tile dropped. -/
theorem tileDrainRow : Obligations.TileDrainRow := by
  refine fun d s t0 => ⟨fun waits => next_neg (by simp [waits]), fun ready done noError noReExec => ?_⟩
  obtain ⟨w, l, work, layer⟩ := work_of_drainReady ready
  have drains : tileDrain d s = drainTile d w l s := by
    unfold tileDrain
    rw [if_pos (by simp [tilesGoOn, t0, ready]), slubPass_done done]
    simp only [done, work, layer]
  obtain ⟨st, parts, acc⟩ := drainTile_leaves (w := w) (l := l) (s := s) noError noReExec
  exact ⟨_, by rw [← drains]; rfl, st, parts, acc⟩

end Sys2Proof.Machine
end

section
/-! A whorl operation (family 04): its results go into the spool of its core, and beside a residual addition it writes nothing else (R138,
R139, R164, R198, R211). -/

namespace Sys2Proof.Machine

-- The state that an operation starts from (R181, R306).

/-- A state in which a phase may have begun and reads of the skein are noted. -/
abbrev State.started (s : State) (ph : Phases) (k : SknBlk) : State := { s with stp := { s.stp with phases := ph }, skn := k }

theorem beginB_started (p : Phase) (s : State) : ∃ ph, beginB p s = s.started ph s.skn := by
  unfold beginB
  split
  case h_1 | h_2 => exact ⟨s.stp.phases, rfl⟩
  case h_3 =>
    split
    · exact ⟨_, rfl⟩
    · exact ⟨s.stp.phases, rfl⟩

theorem whorlSkein_whole {w : WhorlWork} {s : State}
    (readable : ∀ x v, w.op = .residualAdd x v → s.skn.bad = [] ∧ firstForbidden s 0 false x (4 * v.len) = none) :
    ∃ k, whorlSkein w s = ({ s with skn := k }, true) := by
  unfold whorlSkein
  split
  next x v op =>
    obtain ⟨whole, free⟩ := readable x v op
    rw [skeinTake_whole free whole]
    exact ⟨_, rfl⟩
  · exact ⟨s.skn, rfl⟩

section
variable (w : WhorlWork) (l : Layer) (s : State) (ph : Phases) (k : SknBlk)

theorem tokenIn_started (i : Nat) (es : List SeqEntry) : tokenIn (s.started ph k) i es = tokenIn s i es := by
  induction es generalizing i with
  | nil => rfl
  | cons e es ih => exact congrArg (fun x => if i < shardLen s e then some (e, i) else x) (ih _)

theorem rowKeys_started (mb row : Nat) : rowKeys (s.started ph k) mb row = rowKeys s mb row := by
  unfold rowKeys
  rw [tokenIn_started]
  rfl

theorem tokenAt_started (mb i : Nat) : tokenAt (s.started ph k) mb i = tokenAt s mb i := by
  unfold tokenAt
  rw [tokenIn_started]
  rfl

theorem dropWork_started (probs : Bool) (feat : Nat) (a : List Word) :
    dropWork (s.started ph k) l w probs feat a = dropWork s l w probs feat a := by
  unfold dropWork
  rw [tokenAt_started]
  rfl

theorem probsOut_started (p : List Word) (f : Flags) : probsOut (s.started ph k) l w p f = probsOut s l w p f := by
  unfold probsOut
  rw [dropWork_started]

theorem readVec_started (v : Vec) : (s.started ph k).readVec v = s.readVec v := rfl

theorem attnAt_started : attnAt (s.started ph k) w = attnAt s w := rfl

/-- Neither the start of B nor the notes of a read matter to the result of an operation. -/
theorem whorlEval_started : whorlEval (s.started ph k) l w = whorlEval s l w := by
  have wide (half : Bool) (x : Loc) : wideAt (s.started ph k) half x = wideAt s half x := rfl
  have unpacked (r : Role) (t : NarrowAt) (row k0 n : Nat) : unpackRow (s.started ph k) l r t row k0 n = unpackRow s l r t row k0 n := rfl
  have losses (mb : Nat) (a : List Word) : lossVals (s.started ph k) mb a = lossVals s mb a := rfl
  have stash (ml : Loc) : stashed (s.started ph k) ml = stashed s ml := rfl
  simp only [whorlEval, readVec_started, attnAt_started, rowKeys_started, dropWork_started, probsOut_started, wide, unpacked, losses,
    stash]

end

-- What an operation writes (R138, R139, R164).

section
variable {w : WhorlWork} {l : Layer} {s : State}

/-- What an operation changes beside the spool leaves accumulator storage, spools and creels; only a residual addition writes the skein. -/
theorem whorlEffect_stores (w : WhorlWork) (l : Layer) (vals : List Word) (s : State) :
    (whorlEffect w l vals s).acc = s.acc ∧ (whorlEffect w l vals s).spool = s.spool ∧ (whorlEffect w l vals s).creel = s.creel ∧
      ((∀ a v, w.op ≠ .residualAdd a v) → (whorlEffect w l vals s).skein = s.skein) := by
  have of_mems {t : State} (h : t.mems = s.mems) : t.acc = s.acc ∧ t.spool = s.spool ∧ t.creel = s.creel ∧
      ((∀ a v, w.op ≠ .residualAdd a v) → t.skein = s.skein) := by
    simp only [State.mems, Prod.mk.injEq] at h
    obtain ⟨acc, spool, creel, skein⟩ := h
    exact ⟨acc, spool, creel, fun _ => skein⟩
  unfold whorlEffect
  dsimp only
  split
  next addr v op =>
    refine ⟨storeAt_acc .., ?_, ?_, fun other => absurd op (other addr v)⟩
    all_goals
      unfold State.storeAt
      dsimp only
      split <;> rfl
  · split
    · exact of_mems ((noteNonfinite_mems _).trans rfl)
    · exact of_mems rfl
  · split <;> exact of_mems rfl
  · exact of_mems rfl
  · exact of_mems rfl
  · split
    · split <;> exact of_mems rfl
    · exact of_mems rfl
  · exact of_mems rfl

/-- The scheduler's cores of a stage are in service (R49, R184). -/
theorem stageCores_inService {cl : ClusterIx} {stage : Nat} {c : CoreIx} (mem : (stageCores s cl stage).contains c = true) :
    quarantined s c.val = false := by
  have of_usable (h : usable s c = true) : quarantined s c.val = false := by
    simp only [usable, Bool.and_eq_true, Bool.not_eq_true'] at h
    exact h.1.1
  rw [List.contains_iff_mem] at mem
  unfold stageCores at mem
  split at mem
  · exact of_usable (List.mem_filter.mp mem).2
  · obtain ⟨p, -, found⟩ := List.mem_filterMap.mp (List.mem_filter.mp mem).1
    split at found
    · split at found
      next core _ placed =>
        obtain rfl : core = c := Option.some.inj found
        exact of_usable (Bool.and_eq_true_iff.mp placed).1
      · cases found
    · cases found

theorem inService_of_whorlReady (layer : layerOf s w.layer = some l) (ready : whorlReady s w = true) : quarantined s w.core.val = false := by
  simp only [whorlReady, layer, Bool.and_eq_true] at ready
  obtain ⟨⟨⟨⟨⟨⟨-, placed⟩, -⟩, -⟩, -⟩, -⟩, -⟩ := ready
  exact stageCores_inService placed

/-- The state once the results stand in the spool of their core. -/
def whorlResults (w : WhorlWork) (l : Layer) (s : State) : State :=
  (whorlEffect w l (whorlEval s l w).spool s).storeAt (.spool w.core w.dst) (wordsBytes (whorlEval s l w).spool)

/-- An operation with its data, without a copy through the twist unit, a record or a step of the ring: reports follow the results. -/
theorem whorlOp_runs {t : State} (start : whorlSkein w (beginB w.phase s) = (t, true)) (noError : w.err = none) (noReExec : w.reExec = none)
    (noDests : w.dests = []) (noPush : w.push = none) (noRing : w.ring = none) (noMove : w.ringMove = none) :
    ∃ u rows fl fs sets, whorlOp w l s = noteEnds (sendNewFactors s (noteLast w.last w.phase l w.microBatch
      (plyCheck u rows none (stepFlags w.core.val fl (coreReports w.core.val fs sets
        (readEvents w.core.val w.layer (whorlEval t l w).events (whorlResults w l t))))))) := by
  unfold whorlOp
  simp only [noError, noReExec, noDests, noPush, noRing, noMove, whorlError, unitErrors, start, dataLost, Bool.not_true, Bool.or_self,
    Bool.false_eq_true, if_false, List.foldl_nil, Option.map_none, afterWork_eq, recorded, ringSent, moveRing, whorlResults]
  exact ⟨_, _, _, _, _, rfl⟩

theorem plyCheck_mems (u : PlyUnit) (rows : Nat → List ORow × List ORow) (t : State) : (plyCheck u rows none t).mems = t.mems := by
  unfold plyCheck
  split
  · dsimp only
    split
    · rfl
    · split <;> rfl
  · rfl

/-- Results that fit into the spool of a core in service are written there. -/
theorem whorlResults_spool (inService : quarantined s w.core.val = false)
    (fits : w.dst + 4 * (whorlEval s l w).spool.length ≤ spoolSpace) : whorlResults w l s =
      (whorlEffect w l (whorlEval s l w).spool s).putSpool (spoolAddr w.core w.dst) (wordsBytes (whorlEval s l w).spool) := by
  have flash : (whorlEffect w l (whorlEval s l w).spool s).flash = s.flash := State.flash_of (whorlEffect_lead ..)
  refine storeAt_spool ?_ ?_
  · simpa [Loc.fits, wordsBytes_length] using fits
  · unfold quarantined at inService ⊢
    rw [flash]
    exact inService

/-- Settles O24: the results are written into the spool of the core, and neither effect nor reports touch another memory. -/
theorem whorlOpRow : Obligations.WhorlOpRow := by
  intro w l s t0 goesOn wf layer ready shaped noError noReExec noDests noPush noRing noMove size readable
  obtain ⟨ph, begun⟩ := beginB_started w.phase s
  obtain ⟨k, skein⟩ := whorlSkein_whole (w := w) (s := s.started ph s.skn) readable
  have start : whorlSkein w (beginB w.phase s) = (s.started ph k, true) := by rw [begun, skein]
  obtain ⟨u, rows, fl, fs, sets, runs⟩ := whorlOp_runs (l := l) start noError noReExec noDests noPush noRing noMove
  have eval : whorlEval (s.started ph k) l w = whorlEval s l w := whorlEval_started w l s ph k
  have inService : quarantined (s.started ph k) w.core.val = false := (inService_of_whorlReady layer ready : quarantined s w.core.val = false)
  have fits : w.dst + 4 * (whorlEval (s.started ph k) l w).spool.length ≤ spoolSpace := by
    have within : w.dst + 4 * WhorlOp.size w.op ≤ spoolSpace := by simpa [whorlShaped] using shaped
    rw [eval]
    omega
  have mems : (whorlOp w l s).mems = (whorlResults w l (s.started ph k)).mems := by
    rw [runs, noteEnds_mems, sendNewFactors_mems, noteLast_mems, plyCheck_mems, stepFlags_mems, coreReports_mems, readEvents_mems]
  obtain ⟨acc, spool, creel, skeinSame⟩ := whorlEffect_stores w l (whorlEval s l w).spool (s.started ph k)
  rw [whorlResults_spool inService fits, eval] at mems
  simp only [State.mems, State.putSpool, Prod.mk.injEq] at mems
  obtain ⟨accT, spoolT, creelT, skeinT⟩ := mems
  rw [spool] at spoolT
  refine ⟨whorlOp w l s, checked_formed shaped ?_, ?_, fun x out => ?_, accT.trans acc, creelT.trans creel,
    fun other => skeinT.trans (skeinSame other)⟩
  · simp only [layer]
    rw [if_pos (by simp [arithmeticOn, tilesGoOn, t0, goesOn, ready])]
  · rw [spoolT]
    exact Memory.readWords_writeWords wf.2.1 _ _
  · rw [spoolT]
    exact Memory.readByte_writeWords _ _ _ _ out

end

end Sys2Proof.Machine
end
